-- ==== Sys2Proof/Word.lean ====
section
/-!
DEFINITION. The words of the machine (R4): bytes, 64-bit words and the images of vector registers and tiles (R42).
-/

namespace Sys2Proof

/-- A byte. -/
abbrev Byte := BitVec 8

/-- A 64-bit word: scalar registers, masks, addresses. -/
abbrev Word := BitVec 64

/-- The 256-byte image of a vector register (R42). -/
abbrev VecImage := BitVec 2048

/-- The 4 KiB image of an accumulator tile (R42). -/
abbrev TileImage := BitVec 32768

end Sys2Proof
end

