-- ==== Sys2Proof/Syntax.lean ====
section
/-!
DEFINITION. The instructions of the Plirax Q900 and the steps of its agents, as syntax: one constructor for each row of
spec/opcode_table.json.  Rules R104 to R127 give the slots and their opcode maps, R139 to R281 the operands.
-/

namespace Sys2Proof

/-- R171: element width of the integer vector instructions. -/
inductive ElemWidth where
  | i32 | i16 | i8
deriving DecidableEq, Repr

/-- R161: condition codes of CMP, CMPI and VCMP. -/
inductive Cond where
  | eq | ne | lt | ge | ltu | geu | tst | ntst
deriving DecidableEq, Repr

/-- R168, R181: conditions of FCMP and VFCMP. -/
inductive FCond where
  | eq | lt | le | un | ne
deriving DecidableEq, Repr

/-- R166: format of the scalar float instructions. -/
inductive FFmt where
  | b64 | b32
deriving DecidableEq, Repr

/-- R169: rounding modes of FTOI and FRND. -/
inductive RMode where
  | rne | rz | dn | up
deriving DecidableEq, Repr

/-- R51: format codes; code 0 is "bank" where an instruction field holds it (R108, R211). -/
inductive Fmt where
  | raw | b64 | b32 | b16 | bf16 | i8 | i16 | i32 | i64 | t8 | t6 | bx8
deriving DecidableEq, Repr

/-- R182: tests of VNF and VNFQ. -/
inductive NfTest where
  | nf | nan | inf
deriving DecidableEq, Repr

/-- R187: patterns of VSHUF. -/
inductive Shuf where
  | ziplo | ziphi | even | odd | rev
deriving DecidableEq, Repr

/-- R219: size codes of scalar memory elements. -/
inductive MSize where
  | u8 | u16 | u32 | d | s8 | s16 | s32
deriving DecidableEq, Repr

/-- R224: operations of AMO and VAMO. -/
inductive AtomOp where
  | swap | add | and | or | xor | min | max | minu | maxu | fadd | fmin | fmax
deriving DecidableEq, Repr

/-- R92: orders of the atomics. -/
inductive MOrder where
  | rlx | acq | rel | ar
deriving DecidableEq, Repr

/-- R85: scope codes; the last two are reserved and trap as illegal operands. -/
inductive Scope where
  | ctx | core | clu | die | pkg | pod | res6 | res7
deriving DecidableEq, Repr

/-- R165: registers RDSP reads. -/
inductive Spr where
  | ppw | cid | cyc | nrg
deriving DecidableEq, Repr

/-- R215: registers MSRD reads. -/
inductive MSpr where
  | mcfg | mpat | mrp
deriving DecidableEq, Repr

/-- R354: system registers, with their selectors. -/
inductive SysReg where
  | plv | tvec | xepc | xepl | trec | asn | lnum | bud | tword | pkg
deriving DecidableEq, Repr

/-- R357: values WDSET selects. -/
inductive WdSel where
  | cyc | yd | pin
deriving DecidableEq, Repr

/-- R249: what NBCNT counts. -/
inductive BoardSel where
  | used | off | elig
deriving DecidableEq, Repr

/-- R251: what XSTAT reads. -/
inductive XStatSel where
  | st | clr | cred | win | miss
deriving DecidableEq, Repr

/-- R104: the eight slots of a bundle, slot 0 first. -/
inductive Slot where
  | c | s0 | s1 | v | m | l | x | a
deriving DecidableEq, Repr

/-- R121 to R127: the seven opcode maps; S0 and S1 share one. -/
inductive SlotKind where
  | c | s | v | m | l | x | a
deriving DecidableEq, Repr

/-- R115: the slots that may slip. -/
inductive SlipUnit where
  | v | m | l | x
deriving DecidableEq, Repr

/-- R205: the causes FC of a suspended pass. -/
inductive SuspendCause where
  | notPresent | cxlTier | uncorrectable
deriving DecidableEq, Repr

/-- R301: what a peer package asks for on a connection. -/
inductive RemoteReq where
  | get (addr len : Nat)
  | put (addr : Nat) (data : List Byte)
  | flush
deriving DecidableEq, Repr

/-- The names an instruction reads or writes: the registers of R39 and the writable special registers of R43 and R354. -/
inductive Reg where
  | s (n : Nat) | f (n : Nat) | m (n : Nat) | v (n : Nat) | q (n : Nat) | n (n : Nat) | lc (n : Nat)
  | mcfg | mpat | mrp | ppw | sys (r : SysReg)
deriving DecidableEq, Repr

/-- One constructor per row of spec/opcode_table.json: the steps of the agents, then the slot instructions (R121 to R127),
then the steps at the table's end.  Register fields hold the register number; bounds are in WellFormed.
NOP, HINT, PREF and PREFW change no architectural state: their operand bits stay in SlotOp.  What a step of an agent
acts on (which core, context, request) stands in State.subj. -/
inductive Instr where
  /-- R142. -/
  | br (off : BitVec 25)
  /-- R142. -/
  | brr (a : Nat) (off : BitVec 25)
  /-- R142. -/
  | call (a : Nat) (off : BitVec 25)
  /-- R142. -/
  | callr (a : Nat) (b : Nat) (off : BitVec 25)
  /-- R144. -/
  | ret (a : Nat)
  /-- R142. -/
  | btab (a : Nat) (b : Nat) (off : BitVec 25)
  /-- R142. -/
  | beq (a : Nat) (b : Nat) (off : BitVec 25)
  /-- R142. -/
  | bne (a : Nat) (b : Nat) (off : BitVec 25)
  /-- R142. -/
  | blt (a : Nat) (b : Nat) (off : BitVec 25)
  /-- R142. -/
  | bge (a : Nat) (b : Nat) (off : BitVec 25)
  /-- R142. -/
  | bltu (a : Nat) (b : Nat) (off : BitVec 25)
  /-- R142. -/
  | bgeu (a : Nat) (b : Nat) (off : BitVec 25)
  /-- R145. -/
  | loopn (n : Nat) (bl : Nat)
  /-- R147. -/
  | loopx (n : Nat)
  /-- R148. -/
  | waitG (a : Nat) (b : Nat) (sw : BitVec 17)
  /-- R148. -/
  | waitT (a : Nat) (sw : BitVec 17)
  /-- R150. -/
  | waitr (entries : BitVec 16)
  /-- R153. -/
  | xabort (d : Nat) (a : Nat) (imm : BitVec 32)
  /-- R154. -/
  | trap (a : Nat) (imm : BitVec 32)
  /-- R358. -/
  | rngr (d : Nat) (a : Nat) (w : Bool)
  /-- R358. -/
  | rngw (a : Nat) (b : Nat) (c : Nat)
  /-- R359. -/
  | ppwset (a : Nat)
  /-- R362. -/
  | ctxsave (a : Nat) (b : Nat) (sw : BitVec 17)
  /-- R362. -/
  | ctxload (a : Nat) (b : Nat) (sw : BitVec 17) (h : Bool)
  /-- R360. -/
  | shoot (a : Nat) (b : Nat) (c : Nat) (all : Bool)
  /-- R357. -/
  | wdset (a : Nat) (sel : WdSel) (imm : BitVec 32)
  /-- R159. -/
  | add (d : Nat) (a : Nat) (b : Nat)
  /-- R159. -/
  | sub (d : Nat) (a : Nat) (b : Nat)
  /-- R159. -/
  | and (d : Nat) (a : Nat) (b : Nat)
  /-- R159. -/
  | or (d : Nat) (a : Nat) (b : Nat)
  /-- R159. -/
  | xor (d : Nat) (a : Nat) (b : Nat)
  /-- R159. -/
  | andn (d : Nat) (a : Nat) (b : Nat)
  /-- R159. -/
  | shl (d : Nat) (a : Nat) (b : Nat)
  /-- R159. -/
  | shr (d : Nat) (a : Nat) (b : Nat)
  /-- R159. -/
  | sra (d : Nat) (a : Nat) (b : Nat)
  /-- R159. -/
  | rol (d : Nat) (a : Nat) (b : Nat)
  /-- R159. -/
  | ror (d : Nat) (a : Nat) (b : Nat)
  /-- R159. -/
  | min (d : Nat) (a : Nat) (b : Nat)
  /-- R159. -/
  | max (d : Nat) (a : Nat) (b : Nat)
  /-- R159. -/
  | minu (d : Nat) (a : Nat) (b : Nat)
  /-- R159. -/
  | maxu (d : Nat) (a : Nat) (b : Nat)
  /-- R160. -/
  | clz (d : Nat) (a : Nat)
  /-- R160. -/
  | ctz (d : Nat) (a : Nat)
  /-- R160. -/
  | popc (d : Nat) (a : Nat)
  /-- R160. -/
  | bswap (d : Nat) (a : Nat)
  /-- R160. -/
  | sext (d : Nat) (a : Nat) (p : Nat)
  /-- R160. -/
  | zext (d : Nat) (a : Nat) (p : Nat)
  /-- R160. -/
  | bfx (d : Nat) (a : Nat) (b : Nat) (sg : Bool)
  /-- R160. -/
  | bfi (d : Nat) (a : Nat) (b : Nat) (c : Nat)
  /-- R161. -/
  | cmp (d : Nat) (a : Nat) (b : Nat) (cc : Cond)
  /-- R161. -/
  | sel (d : Nat) (a : Nat) (b : Nat) (c : Nat)
  /-- R161. -/
  | lea (d : Nat) (a : Nat) (b : Nat) (sh : Nat)
  /-- R161. -/
  | fland (d : Nat) (a : Nat) (b : Nat) (inv : Bool)
  /-- R161. -/
  | flor (d : Nat) (a : Nat) (b : Nat) (inv : Bool)
  /-- R161. -/
  | flxor (d : Nat) (a : Nat) (b : Nat) (inv : Bool)
  /-- R162. -/
  | addi (d : Nat) (a : Nat) (imm : BitVec 32)
  /-- R162. -/
  | andi (d : Nat) (a : Nat) (imm : BitVec 32)
  /-- R162. -/
  | ori (d : Nat) (a : Nat) (imm : BitVec 32)
  /-- R162. -/
  | xori (d : Nat) (a : Nat) (imm : BitVec 32)
  /-- R162. -/
  | shli (d : Nat) (a : Nat) (imm : BitVec 32)
  /-- R162. -/
  | shri (d : Nat) (a : Nat) (imm : BitVec 32)
  /-- R162. -/
  | srai (d : Nat) (a : Nat) (imm : BitVec 32)
  /-- R161. -/
  | cmpi (d : Nat) (a : Nat) (cc : Cond) (imm : BitVec 32)
  /-- R163. -/
  | movi (d : Nat) (imm : BitVec 45)
  /-- R163. -/
  | movhi (d : Nat) (imm : BitVec 45)
  /-- R164. -/
  | mul (d : Nat) (a : Nat) (b : Nat)
  /-- R164. -/
  | mulh (d : Nat) (a : Nat) (b : Nat)
  /-- R164. -/
  | mulhu (d : Nat) (a : Nat) (b : Nat)
  /-- R165. -/
  | rdsp (d : Nat) (sp : Spr)
  /-- R165. -/
  | lcrd (d : Nat) (a : Nat)
  /-- R165. -/
  | lcwr (d : Nat) (a : Nat)
  /-- R165. -/
  | nrd (d : Nat) (a : Nat) (w : Nat)
  /-- R165. -/
  | nwr (d : Nat) (a : Nat) (w : Nat)
  /-- R167. -/
  | fadd (d : Nat) (a : Nat) (b : Nat) (ff : FFmt)
  /-- R167. -/
  | fsub (d : Nat) (a : Nat) (b : Nat) (ff : FFmt)
  /-- R167. -/
  | fmul (d : Nat) (a : Nat) (b : Nat) (ff : FFmt)
  /-- R167. -/
  | fmin (d : Nat) (a : Nat) (b : Nat) (ff : FFmt)
  /-- R167. -/
  | fmax (d : Nat) (a : Nat) (b : Nat) (ff : FFmt)
  /-- R167. -/
  | fcpys (d : Nat) (a : Nat) (b : Nat) (ff : FFmt)
  /-- R167. -/
  | fma (d : Nat) (a : Nat) (b : Nat) (c : Nat) (ff : FFmt)
  /-- R167. -/
  | fms (d : Nat) (a : Nat) (b : Nat) (c : Nat) (ff : FFmt)
  /-- R167. -/
  | fnma (d : Nat) (a : Nat) (b : Nat) (c : Nat) (ff : FFmt)
  /-- R167. -/
  | fabs (d : Nat) (a : Nat) (ff : FFmt)
  /-- R167. -/
  | fneg (d : Nat) (a : Nat) (ff : FFmt)
  /-- R168. -/
  | fclass (d : Nat) (a : Nat) (ff : FFmt)
  /-- R167. -/
  | fsqrt (d : Nat) (a : Nat) (ff : FFmt)
  /-- R167. -/
  | frcp (d : Nat) (a : Nat) (ff : FFmt)
  /-- R167. -/
  | frsq (d : Nat) (a : Nat) (ff : FFmt)
  /-- R168. -/
  | fcmp (d : Nat) (a : Nat) (b : Nat) (cc : FCond) (ff : FFmt)
  /-- R169. -/
  | fcvt (d : Nat) (a : Nat) (dst : Fmt) (src : Fmt)
  /-- R169. -/
  | ftoi (d : Nat) (a : Nat) (u : Bool) (rm : RMode) (ff : FFmt)
  /-- R169. -/
  | itof (d : Nat) (a : Nat) (u : Bool) (ff : FFmt)
  /-- R169. -/
  | frnd (d : Nat) (a : Nat) (rm : RMode) (ff : FFmt)
  /-- R355. -/
  | sysr (d : Nat) (reg : SysReg)
  /-- R355. -/
  | sysw (a : Nat) (reg : SysReg)
  /-- R175. -/
  | vadd (d : Nat) (a : Nat) (b : Nat) (k : Nat) (w : ElemWidth)
  /-- R175. -/
  | vsub (d : Nat) (a : Nat) (b : Nat) (k : Nat) (w : ElemWidth)
  /-- R175. -/
  | vmul (d : Nat) (a : Nat) (b : Nat) (k : Nat) (w : ElemWidth)
  /-- R175. -/
  | vmulh (d : Nat) (a : Nat) (b : Nat) (k : Nat) (u : Bool) (w : ElemWidth)
  /-- R175. -/
  | vand (d : Nat) (a : Nat) (b : Nat) (k : Nat) (w : ElemWidth)
  /-- R175. -/
  | vor (d : Nat) (a : Nat) (b : Nat) (k : Nat) (w : ElemWidth)
  /-- R175. -/
  | vxor (d : Nat) (a : Nat) (b : Nat) (k : Nat) (w : ElemWidth)
  /-- R175. -/
  | vshl (d : Nat) (a : Nat) (b : Nat) (k : Nat) (w : ElemWidth)
  /-- R175. -/
  | vshr (d : Nat) (a : Nat) (b : Nat) (k : Nat) (w : ElemWidth)
  /-- R175. -/
  | vsra (d : Nat) (a : Nat) (b : Nat) (k : Nat) (w : ElemWidth)
  /-- R175. -/
  | vmin (d : Nat) (a : Nat) (b : Nat) (k : Nat) (w : ElemWidth)
  /-- R175. -/
  | vmax (d : Nat) (a : Nat) (b : Nat) (k : Nat) (w : ElemWidth)
  /-- R175. -/
  | vminu (d : Nat) (a : Nat) (b : Nat) (k : Nat) (w : ElemWidth)
  /-- R175. -/
  | vmaxu (d : Nat) (a : Nat) (b : Nat) (k : Nat) (w : ElemWidth)
  /-- R175. -/
  | vabs (d : Nat) (a : Nat) (k : Nat) (w : ElemWidth)
  /-- R175. -/
  | vadds (d : Nat) (a : Nat) (b : Nat) (k : Nat) (u : Bool) (w : ElemWidth)
  /-- R175. -/
  | vsubs (d : Nat) (a : Nat) (b : Nat) (k : Nat) (u : Bool) (w : ElemWidth)
  /-- R176. -/
  | vaddi (d : Nat) (a : Nat) (k : Nat) (w : ElemWidth) (imm : BitVec 32)
  /-- R176. -/
  | vshli (d : Nat) (a : Nat) (k : Nat) (w : ElemWidth) (imm : BitVec 32)
  /-- R176. -/
  | vshri (d : Nat) (a : Nat) (k : Nat) (w : ElemWidth) (imm : BitVec 32)
  /-- R176. -/
  | vsrai (d : Nat) (a : Nat) (k : Nat) (w : ElemWidth) (imm : BitVec 32)
  /-- R176. -/
  | vmovi (d : Nat) (k : Nat) (w : ElemWidth) (imm : BitVec 32)
  /-- R177. -/
  | vbcast (d : Nat) (a : Nat) (k : Nat) (w : ElemWidth)
  /-- R178. -/
  | vfadd (d : Nat) (a : Nat) (b : Nat) (k : Nat)
  /-- R178. -/
  | vfsub (d : Nat) (a : Nat) (b : Nat) (k : Nat)
  /-- R178. -/
  | vfmul (d : Nat) (a : Nat) (b : Nat) (k : Nat)
  /-- R178. -/
  | vfmin (d : Nat) (a : Nat) (b : Nat) (k : Nat)
  /-- R178. -/
  | vfmax (d : Nat) (a : Nat) (b : Nat) (k : Nat)
  /-- R178. -/
  | vfma (d : Nat) (a : Nat) (b : Nat) (c : Nat) (k : Nat)
  /-- R178. -/
  | vfms (d : Nat) (a : Nat) (b : Nat) (c : Nat) (k : Nat)
  /-- R178. -/
  | vfabs (d : Nat) (a : Nat) (k : Nat)
  /-- R178. -/
  | vfneg (d : Nat) (a : Nat) (k : Nat)
  /-- R178. -/
  | vfrcp (d : Nat) (a : Nat) (k : Nat)
  /-- R178. -/
  | vfrsq (d : Nat) (a : Nat) (k : Nat)
  /-- R178. -/
  | vfexp (d : Nat) (a : Nat) (k : Nat)
  /-- R191. -/
  | vcvt (d : Nat) (a : Nat) (k : Nat) (dst : Fmt) (src : Fmt)
  /-- R192. -/
  | vpack (d : Nat) (a : Nat) (k : Nat) (s32 : Bool) (part : Nat) (dst : Fmt)
  /-- R193. -/
  | vunpk (d : Nat) (a : Nat) (k : Nat) (part : Nat) (src : Fmt)
  /-- R180. -/
  | vcmp (d : Nat) (a : Nat) (b : Nat) (k : Nat) (cc : Cond)
  /-- R181. -/
  | vfcmp (d : Nat) (a : Nat) (b : Nat) (k : Nat) (cc : FCond)
  /-- R182. -/
  | vnf (d : Nat) (a : Nat) (k : Nat) (t : NfTest)
  /-- R183. -/
  | vnfq (d : Nat) (a : Nat) (b : Nat) (k : Nat) (q : Bool) (t : NfTest)
  /-- R184. -/
  | mand (d : Nat) (a : Nat) (b : Nat) (inv : Bool)
  /-- R184. -/
  | mor (d : Nat) (a : Nat) (b : Nat) (inv : Bool)
  /-- R184. -/
  | mxor (d : Nat) (a : Nat) (b : Nat) (inv : Bool)
  /-- R184. -/
  | mnot (d : Nat) (a : Nat)
  /-- R185. -/
  | mpop (d : Nat) (a : Nat) (k : Nat)
  /-- R185. -/
  | many (d : Nat) (a : Nat) (k : Nat) (all : Bool)
  /-- R186. -/
  | vperm (d : Nat) (a : Nat) (b : Nat) (k : Nat)
  /-- R187. -/
  | vshuf (d : Nat) (a : Nat) (b : Nat) (k : Nat) (pat : Shuf)
  /-- R188. -/
  | vrot (d : Nat) (a : Nat) (b : Nat) (k : Nat) (z : Bool)
  /-- R189. -/
  | vsel (d : Nat) (a : Nat) (b : Nat) (c : Nat) (k : Nat)
  /-- R190. -/
  | vext (d : Nat) (a : Nat) (b : Nat) (sg : Bool)
  /-- R190. -/
  | vins (d : Nat) (a : Nat) (b : Nat)
  /-- R194. -/
  | vradd (d : Nat) (a : Nat) (k : Nat) (u : Bool) (w : ElemWidth)
  /-- R194. -/
  | vrmin (d : Nat) (a : Nat) (k : Nat) (u : Bool) (w : ElemWidth)
  /-- R194. -/
  | vrmax (d : Nat) (a : Nat) (k : Nat) (u : Bool) (w : ElemWidth)
  /-- R195. -/
  | vrfadd (d : Nat) (a : Nat) (k : Nat) (seq : Bool)
  /-- R196. -/
  | vrfmin (d : Nat) (a : Nat) (k : Nat)
  /-- R196. -/
  | vrfmax (d : Nat) (a : Nat) (k : Nat)
  /-- R199. -/
  | mma (q : Nat) (aa : Nat) (as : Nat) (ba : Nat) (bs : Nat) (fmt : Fmt) (kb : Nat) (z : Bool) (wb : Bool) (wa : Bool)
  /-- R210. -/
  | scx (d : Nat) (a : Nat)
  /-- R211. -/
  | mdrn (a : Nat) (b : Nat) (c : Nat) (p : Bool) (w : Bool) (fmt : Fmt)
  /-- R212. -/
  | mdrnb (d : Nat) (a : Nat) (b : Nat) (c : Nat) (p : Bool) (w : Bool) (fmt : Fmt)
  /-- R213. -/
  | mzero (d : Nat) (p : Bool)
  /-- R213. -/
  | mmov (d : Nat) (a : Nat) (p : Bool)
  /-- R213. -/
  | mtrn (d : Nat) (a : Nat) (p : Bool)
  /-- R213. -/
  | mwrv (d : Nat) (a : Nat) (k : Nat) (h : Nat)
  /-- R213. -/
  | mrdv (d : Nat) (a : Nat) (k : Nat) (h : Nat)
  /-- R215. -/
  | mpset (a : Nat)
  /-- R215. -/
  | mcset (a : Nat)
  /-- R208. -/
  | mrpwr (a : Nat)
  /-- R215. -/
  | msrd (d : Nat) (sp : MSpr)
  /-- R214. -/
  | mqwait (a : Nat) (all : Bool)
  /-- R219. -/
  | ld (t : Nat) (a : Nat) (sz : MSize) (w : Bool) (off : BitVec 27)
  /-- R219. -/
  | ldx (d : Nat) (a : Nat) (b : Nat) (w : Bool) (sz : MSize)
  /-- R219. -/
  | st (t : Nat) (a : Nat) (sz : Nat) (w : Bool) (off : BitVec 27)
  /-- R219. -/
  | stx (d : Nat) (a : Nat) (b : Nat) (w : Bool) (sz : Nat)
  /-- R219. -/
  | sti (d : Nat) (a : Nat) (w : Bool) (sz : Nat) (imm : BitVec 32)
  /-- R220. -/
  | vld (t : Nat) (a : Nat) (k : Nat) (w : Bool) (off : BitVec 27)
  /-- R220. -/
  | vst (t : Nat) (a : Nat) (k : Nat) (w : Bool) (off : BitVec 27)
  /-- R220. -/
  | vlds (d : Nat) (a : Nat) (b : Nat) (k : Nat) (w : Bool)
  /-- R220. -/
  | vsts (d : Nat) (a : Nat) (b : Nat) (k : Nat) (w : Bool)
  /-- R220. -/
  | vgth (d : Nat) (a : Nat) (b : Nat) (k : Nat) (w : Bool) (sh : Nat)
  /-- R220. -/
  | vsct (d : Nat) (a : Nat) (b : Nat) (k : Nat) (w : Bool) (sh : Nat)
  /-- R220. -/
  | vldb (t : Nat) (a : Nat) (k : Nat) (sz : MSize) (w : Bool) (off : BitVec 27)
  /-- R222. -/
  | qld (t : Nat) (a : Nat) (p : Bool) (w : Bool) (off : BitVec 27)
  /-- R222. -/
  | qst (t : Nat) (a : Nat) (p : Bool) (w : Bool) (off : BitVec 27)
  /-- R224. -/
  | amo (d : Nat) (a : Nat) (b : Nat) (sc : Scope) (ord : MOrder) (sz : Nat) (op : AtomOp)
  /-- R225. -/
  | cas (d : Nat) (a : Nat) (b : Nat) (c : Nat) (ord : MOrder) (sz : Nat) (sc : Scope)
  /-- R226. -/
  | vamo (d : Nat) (a : Nat) (b : Nat) (sc : Scope) (k : Nat) (ord : MOrder) (x : Bool) (op : AtomOp)
  /-- R227. -/
  | ald (t : Nat) (a : Nat) (sz : MSize) (sc : Scope) (ord : MOrder) (off : BitVec 27)
  /-- R229. -/
  | xlat (t : Nat) (a : Nat) (pi : Bool) (off : BitVec 27)
  /-- R91. -/
  | drain (sc : Scope)
  /-- R232. -/
  | mcast (t : Nat) (a : Nat) (k : Nat) (off : BitVec 27)
  /-- R234. -/
  | bfmt (a : Nat) (code : BitVec 4) (imm : BitVec 32)
  /-- R228. -/
  | ldt (t : Nat) (a : Nat) (sz : MSize) (f : Nat) (off : BitVec 27)
  /-- R228. -/
  | vldt (t : Nat) (a : Nat) (k : Nat) (f : Nat) (off : BitVec 27)
  /-- R238. -/
  | note (a : Nat) (sw : BitVec 17) (v : Bool)
  /-- R240. -/
  | pull (a : Nat) (b : Nat) (sw : BitVec 17) (last : Bool)
  /-- R241. -/
  | pullRank (b : Nat) (sw : BitVec 17)
  /-- R243. -/
  | pulladd (a : Nat) (b : Nat) (sw : BitVec 17) (last : Bool)
  /-- R244. -/
  | decl (b : Nat)
  /-- R245. -/
  | wdraw (b : Nat)
  /-- R248. -/
  | nbrd (d : Nat) (a : Nat) (w : Nat)
  /-- R249. -/
  | nbcnt (d : Nat) (sel : BoardSel)
  /-- R249. -/
  | nbfind (d : Nat) (a : Nat) (b : Nat) (any : Bool)
  /-- R246. -/
  | pwinSet (a : Nat) (b : Nat)
  /-- R247. -/
  | rkset (a : Nat)
  /-- R250. -/
  | ngrpNew (d : Nat) (a : Nat) (b : Nat)
  /-- R250. -/
  | ngrpFree (d : Nat) (a : Nat)
  /-- R254. -/
  | rcont (a : Nat) (b : Nat) (sw : BitVec 17)
  /-- R253. -/
  | rroot (a : Nat) (b : Nat) (sw : BitVec 17)
  /-- R255. -/
  | agload (a : Nat) (b : Nat) (sw : BitVec 17)
  /-- R255. -/
  | agrel (a : Nat)
  /-- R256. -/
  | agrun (a : Nat) (b : Nat) (sw : BitVec 17)
  /-- R256. -/
  | agwait (b : Nat)
  /-- R257. -/
  | rget (d : Nat) (a : Nat) (b : Nat) (sw : BitVec 17)
  /-- R257. -/
  | rput (d : Nat) (a : Nat) (b : Nat) (sw : BitVec 17) (v : Bool)
  /-- R257. -/
  | rflush (b : Nat) (sw : BitVec 17)
  /-- R251. -/
  | xstat (d : Nat) (sel : XStatSel)
  /-- R368. -/
  | ckey (a : Nat) (b : Nat) (sw : BitVec 17)
  /-- R264. -/
  | copy (a : Nat) (b : Nat) (sw : BitVec 17) (ws : Bool) (wd : Bool) (n : Nat)
  /-- R267. -/
  | copyc (a : Nat) (b : Nat) (sw : BitVec 17) (wd : Bool) (n : Nat)
  /-- R273. -/
  | spawn (d : Nat) (a : Nat) (b : Nat) (ar : Bool)
  /-- R274. -/
  | fref (d : Nat) (a : Nat)
  /-- R274. -/
  | fdrop (d : Nat) (a : Nat)
  /-- R276. -/
  | fset (d : Nat) (a : Nat)
  /-- R275. -/
  | fstat (d : Nat) (a : Nat)
  /-- R275. -/
  | fawait (d : Nat) (a : Nat) (c : Nat)
  /-- R309. -/
  | ssnap (d : Nat) (a : Nat) (b : Nat)
  /-- R310. -/
  | sroll (d : Nat) (a : Nat) (b : Nat)
  /-- R311. -/
  | sfork (d : Nat) (a : Nat) (b : Nat)
  /-- R313. -/
  | sld (d : Nat) (a : Nat) (b : Nat) (sw : BitVec 17)
  /-- R306. -/
  | sst (d : Nat) (a : Nat) (b : Nat) (sw : BitVec 17)
  /-- R312. -/
  | sdrop (d : Nat) (a : Nat) (b : Nat) (sq : Bool)
  /-- R280. -/
  | kvst (d : Nat) (a : Nat) (sw : BitVec 17)
  /-- R280. -/
  | kvnx (d : Nat) (b : Nat)
  /-- R280. -/
  | kvnxEnd (d : Nat) (b : Nat)
  /-- R281. -/
  | hmsg (d : Nat) (a : Nat) (b : Nat) (sw : BitVec 17) (code : BitVec 4)
  /-- R268. -/
  | swset (d : Nat) (a : Nat) (b : Nat) (sw : BitVec 17) (g : Bool)
  /-- R268. -/
  | swadd (a : Nat) (b : Nat) (sw : BitVec 17)
  /-- R268. -/
  | swrd (d : Nat) (a : Nat) (sw : BitVec 17) (hi : Bool)
  /-- R269. -/
  | rtwr (d : Nat) (a : Nat)
  /-- R269. -/
  | rtrd (d : Nat) (a : Nat)
  /-- R269. -/
  | rtarm (a : Nat)
  /-- R379. -/
  | qmap (a : Nat) (b : Nat)
  /-- R379. -/
  | qunmap (b : Nat)
  /-- R379. -/
  | qkick (b : Nat)
  /-- R151. -/
  | waits
  /-- R155. -/
  | yield
  /-- R155. -/
  | ychk
  /-- R152. -/
  | mark
  /-- R156. -/
  | done
  /-- R157. -/
  | isync
  /-- R356. -/
  | pret
  /-- R361. -/
  | halt
  /-- R246. -/
  | pwinReset
  /-- R277. -/
  | fpin
  /-- R277. -/
  | funpin
  /-- R233. -/
  | pref
  /-- R233. -/
  | prefw
  /-- R13. -/
  | bundleIssue
  /-- R14. -/
  | reissue
  /-- R115. -/
  | slipEntryExecute
  /-- R112. -/
  | resultLand
  /-- R113. -/
  | scoreboardLand
  /-- R401. -/
  | afterMark
  /-- R20. -/
  | taskStart
  /-- R22. -/
  | taskComplete
  /-- R23. -/
  | teamSliceEnd
  /-- R380. -/
  | teamSwapIn
  /-- R26. -/
  | stealRequest
  /-- R27. -/
  | stealAnswer
  /-- R382. -/
  | stealBackoffExpiry
  /-- R26. -/
  | stolenTaskArrival
  /-- R30. -/
  | reclaimStop
  /-- R32. -/
  | pinLimitExpiry
  /-- R36. -/
  | watchdogExpiry
  /-- R37. -/
  | yieldDeadlineExpiry
  /-- R34. -/
  | taskResume
  /-- R52. -/
  | bankFormatTakesEffect
  /-- R198. -/
  | passStart
  /-- R203. -/
  | kBlockIssue
  /-- R79. -/
  | kBlockFold
  /-- R206. -/
  | passSuspend
  /-- R347. -/
  | passFaultServed
  /-- R207. -/
  | passAbandon
  /-- R218. -/
  | pageFaultReport
  /-- R406. -/
  | trapDelivery
  /-- R410. -/
  | uncorrectableError
  /-- R236. -/
  | engineAcceptance
  /-- R285. -/
  | noticeOffer
  /-- R289. -/
  | rankedAdmission
  /-- R291. -/
  | pacingWindowStart
  /-- R292. -/
  | pullRequestIssue
  /-- R293. -/
  | flitLanding
  /-- R287. -/
  | noticeTimeout
  /-- R254. -/
  | treeContribution
  /-- R295. -/
  | treeClose
  /-- R253. -/
  | treeResultLand
  /-- R298. -/
  | graphNodeComplete
  /-- R212. -/
  | chunkTileCount
  /-- R300. -/
  | barkerPublish
  /-- R266. -/
  | copyChunk
  /-- R301. -/
  | remoteRequest
  /-- R303. -/
  | frameReceive
  /-- R420. -/
  | linkFrameLoss
  /-- R396. -/
  | pageInComplete
  /-- R317. -/
  | chainWalkStep
  /-- R279. -/
  | stateOpComplete
  /-- R330. -/
  | missTrigger
  /-- R330. -/
  | fillTrigger
  /-- R330. -/
  | evictionTrigger
  /-- R339. -/
  | chainStepTrigger
  /-- R332. -/
  | handlerInvocationStart
  /-- R333. -/
  | handlerEcall
  /-- R338. -/
  | handlerAbort
  /-- R338. -/
  | handlerTimeLimit
  /-- R337. -/
  | prefetchCommand
  /-- R337. -/
  | fillCommand
  /-- R337. -/
  | postNotice
  /-- R337. -/
  | pageInCommand
  /-- R373. -/
  | notifyWrite
  /-- R375. -/
  | entryAdmission
  /-- R376. -/
  | launchComplete
  /-- R379. -/
  | unmapTimeout
  /-- R391. -/
  | translationWalk
  /-- R398. -/
  | xans
  /-- R393. -/
  | shootComplete
  /-- R230. -/
  | xlatTimeout
  /-- R418. -/
  | quiesceRequest
  /-- R418. -/
  | quiesceComplete
  /-- R419. -/
  | resumeRequest
  /-- R419. -/
  | flush
  /-- R432. -/
  | flushComplete
  /-- R419. -/
  | resume
  /-- R419. -/
  | nbrWrite
  /-- R419. -/
  | milWrite
  /-- R424. -/
  | pgive
  /-- R424. -/
  | tokenMessage
  /-- R424. -/
  | tokenGiveTimeout
  /-- R425. -/
  | energyWindow
  /-- R427. -/
  | stepEnd
  /-- R427. -/
  | stepMarker
  /-- R427. -/
  | stepMarkerTimeout
  /-- R328. -/
  | tenantEnable
  /-- R440. -/
  | registerWrite
  /-- R434. -/
  | powerGood
  /-- R439. -/
  | getStatus
  /-- R438. -/
  | getReport
  /-- R439. -/
  | loadImage
  /-- R439. -/
  | reset
  /-- R109. -/
  | nop
  /-- R109. -/
  | hint
  /-- R115. -/
  | lagReturnsToZero
  /-- R97. -/
  | contextSaveComplete
  /-- R362. -/
  | contextImageComplete
  /-- R255. -/
  | graphLoadComplete
  /-- R410. -/
  | loadPipeReread
  /-- R325. -/
  | handlerInstructionRetire
  /-- R337. -/
  | serviceCommandDone
  /-- R439. -/
  | mctpControlMessage
deriving DecidableEq, Repr

/-- R105: an instruction with its predicate.  bits holds what the slot value says beyond it: the ignored bits of a hint
(R109) and the operand field of a prefetch (R233); 0 otherwise. -/
structure SlotOp where
  pred : Nat
  neg : Bool
  ins : Instr
  bits : Nat
deriving DecidableEq, Repr

end Sys2Proof
end

