-- ==== Sys2Proof/Config.lean ====
section
/-!
DEFINITION. What an implementation fixes and the spec leaves open.  A free value (R7) is an opaque constant applied to a
key that State.fresh supplies, so no proof can rest on what it is.
-/

namespace Sys2Proof.Config

/-- R7, R112, R114: what an undefined register reads as (64 bits used, or fewer), by the key of the read. -/
opaque undefReg : Nat → Reg → Nat

/-- R157: which copy of a bundle's line the fetch meets when the line was changed since the context's last ISYNC. -/
opaque staleFetch : Nat → Word → Bool

/-- R425, R426: the energy, in 0.1 pJ, that a meter of the package reads in a cycle, by the number of the meter. -/
opaque energy : Nat → Nat → Nat

/-- R436: the digests of Byilarik's keys in the mask ROM, for slots 0 to 3. -/
opaque romDigest : Nat → List Byte

/-- R437: the address by which a configuration record names the PKG system register. -/
opaque pkgAddress : Nat

/-- R438: the 57 bytes of the private half of the package's identity key, which never leaves the boot controller. -/
opaque identityKey : Nat → Byte

/-- R7, R271: which of several free records, frames or slots the device takes. -/
opaque pick : Nat → Nat

/-- R52: the launch format code of a bank, by the address of the launch's template; taken modulo 12. -/
opaque bankTable : Nat → Nat → Nat

/-- R391: a translation cache still holds the leaf it once held. -/
opaque tlbHolds : Nat → Nat → Bool

/-- R362: what a context image does not hold and the device has not kept, by the place in the image that would hold it. -/
opaque lost : Nat → Nat → Nat

/-- R208: a byte of an operand row that a restart from a written ROW takes as fetched, though no fetch of it is kept. -/
opaque unfetched : Nat → Nat → Byte

end Sys2Proof.Config
end

