-- ==== Sys2Proof/Machine/Sparse.lean ====
section
/-!
DEFINITION. Sparse maps in one canonical form: keys strictly rising, and no entry that holds what an unlisted key reads
as.  Equal maps are then equal lists.  Memory (R4), register files and the tables of agents are such maps.
-/

namespace Sys2Proof.Machine

/-- A map from numbers to values; a key that is not listed reads as a value the user of the map names. -/
abbrev Sparse (α : Type) := List (Nat × α)

/-- The value at a key; d where the key is not listed. -/
def sget {α : Type} (d : α) : Sparse α → Nat → α
  | [], _ => d
  | (j, v) :: m, k => if k = j then v else if k < j then d else sget d m k

/-- The map without a key. -/
def sdel {α : Type} : Sparse α → Nat → Sparse α
  | [], _ => []
  | (j, v) :: m, k => if k = j then m else if k < j then (j, v) :: m else (j, v) :: sdel m k

/-- The map with a value that is listed whatever it is. -/
def sins {α : Type} : Sparse α → Nat → α → Sparse α
  | [], k, x => [(k, x)]
  | (j, v) :: m, k, x =>
    if k = j then (k, x) :: m else if k < j then (k, x) :: (j, v) :: m else (j, v) :: sins m k x

/-- The map with a value at a key; writing what an unlisted key reads as removes the entry. -/
def sput {α : Type} [DecidableEq α] (d : α) (m : Sparse α) (k : Nat) (x : α) : Sparse α :=
  if x = d then sdel m k else sins m k x

/-- Every listed key lies above b, keys rise strictly, and no entry holds d. -/
def swfFrom {α : Type} [DecidableEq α] (d : α) : Option Nat → Sparse α → Bool
  | _, [] => true
  | b, (j, v) :: m =>
    (match b with
      | none => true
      | some b => decide (b < j)) && decide (v ≠ d) && swfFrom d (some j) m

/-- The canonical form of a sparse map. -/
def swf {α : Type} [DecidableEq α] (d : α) (m : Sparse α) : Bool := swfFrom d none m

end Sys2Proof.Machine
end

