-- ==== Sys2Proof/Machine/State.lean ====
section
/-!
DEFINITION. The state of the package as plain data: contexts (R11, R39), cores, and the agents around them.  A record with
all its fields at their default values is that unit at reset.
-/

namespace Sys2Proof.Machine

/-- Why the machine stops. -/
inductive Fault where
  /-- Raised by step: the schedule names a slot instruction or NOP as an agent's step.  Safe: no hardware does so. -/
  | strayInstruction
deriving DecidableEq, Repr

/-- Why an instruction is given no meaning. -/
inductive Refusal where
  /-- Raised by an arm of exec whose meaning is not written yet.  Safe. -/
  | notModelled (mnemonic : String)
deriving DecidableEq, Repr

/-! ### Contexts -/

/-- R12: the states of a context. -/
inductive CtxSt where
  | free | ready | waiting | stopping
deriving DecidableEq, Repr

/-- R38, R30, R361: what a stopping context stops for. -/
inductive StopWhy where
  | none | save | reclaim | halt | done | fault
deriving DecidableEq, Repr

/-- R146: the loop state, with the nest register the loop was started from (R147) and its body address (R145). -/
structure LoopState where
  active : Bool := false
  nest : Nat := 0
  body : Word := 0
  endPc : Word := 0
  desc : List Word := []
  base : List Word := []
deriving DecidableEq, Repr

/-- R404: the registers a rollback restores.  Unlisted scalar, mask, vector, nest and loop registers read zero. -/
structure Regs where
  s : Sparse Word := []
  f : BitVec 16 := 0
  m : Sparse Word := []
  v : Sparse VecImage := []
  /-- word w of nest register k at key 16 k + w (R262). -/
  n : Sparse Word := []
  lc : Sparse (BitVec 32) := []
  loop : LoopState := {}
  mcfg : Word := 0
  mpat : BitVec 32 := 0
  /-- R226. -/
  ep : Nat := 0
  eppc : Word := 0
  /-- R226: the privilege level at which the VAMO trapped -/
  eppl : Nat := 0
  /-- R32: the pin depth. -/
  pin : Nat := 0
deriving DecidableEq, Repr

/-- R84, R216: one byte a load reads: its place in the result, its intermediate address, and the value forwarded from the
context's own store gate (R86), taken when the load executes. -/
structure LoadByte where
  place : Nat
  ia : Nat
  fwd : Option Byte
deriving DecidableEq, Repr

/-- R217 to R222: how the loaded bytes become the destination. -/
inductive LoadShape where
  | scalar (sz : MSize)
  | lanes (old : VecImage)
  | bcast (sz : MSize) (old : VecImage) (sel : Word)
  | tile
deriving DecidableEq, Repr

/-- One write of a result: the register, the word within a nest register, and the value's bits. -/
structure RegWrite where
  dst : Reg
  word : Nat := 0
  bits : Nat
deriving DecidableEq, Repr

/-- Where a result in flight takes its value. -/
inductive FlightSrc where
  /-- the value is known -/
  | bits (ws : List RegWrite)
  /-- R217: bytes beyond the core, bound when the result lands -/
  | load (dst : Reg) (shape : LoadShape) (va : Word) (bytes : List LoadByte)
  /-- R228: a tier-tolerant load, which sets a flag instead of waiting for a page -/
  | tolerant (dst : Reg) (flag : Nat) (shape : LoadShape) (va : Word) (bytes : List LoadByte)
  /-- R229: XLAT of this virtual and intermediate address with the permission bits found -/
  | xlat (dst : Reg) (va : Word) (ia : Nat) (rd wr pageIn : Bool)
  /-- R211: scratchpad bytes of a drain, with the drain's chunk handle -/
  | stores (chunk : Option Nat) (bs : List (Nat × Byte))
  /-- R224 to R227: an atomic beyond the core: elements still to apply (lane, intermediate address, operand), the
  distance from an intermediate to its virtual address, old values by lane, elements applied so far -/
  | atomic (ins : Instr) (elems : List (Nat × Nat × Nat)) (va : Word) (olds : List (Nat × Nat)) (done : Nat)
  /-- R259: an agent answers later; until then nothing can land -/
  | agent (req : Nat)
deriving DecidableEq, Repr

/-- R112, R113: a result that has not landed. -/
structure Flight where
  id : Nat
  dsts : List Reg
  src : FlightSrc
  fixed : Bool
  /-- the bound L of R112, counted from the executing cycle; 0 for a scoreboarded result without one -/
  bound : Nat
  exec : Nat
  issued : Nat
  /-- the bundle that issued it, by count -/
  bseq : Nat
  /-- R114: destinations whose later write, of the bundle with this count, has landed already -/
  dead : List (Reg × Nat) := []
  /-- the executing instruction's bundle, slot and whether it was buffered, for a trap the landing raises (R218) -/
  pc : Word := 0
  slot : Nat := 0
  buf : Bool := false
deriving DecidableEq, Repr

/-- R387: a range register. -/
structure RangeReg where
  w0 : Word := 0
  w1 : Word := 0
deriving DecidableEq, Repr

/-- R115: an instruction as it executes: its slot, its operands read at issue, and where it came from. -/
structure Work where
  op : SlotOp
  slot : Nat
  raw : Word
  pc : Word
  bseq : Nat
  issued : Nat
  buf : Bool := false
  /-- R115: scalar operands as read at issue -/
  caps : List (Nat × Word) := []
  /-- R117: vector registers, masks and special registers that lock-step execution would read as undefined -/
  undef : List Reg := []
  /-- R117, R173: vector registers and masks as they stood before a result of the work's own bundle landed in them -/
  olds : List (Reg × Nat) := []
  /-- R114: destinations that a boundary write has replaced since the bundle issued -/
  dead : List Reg := []
  /-- R358: the range registers that its bundle was issued under, where an RNGW of that bundle has replaced them -/
  rregs : Option (Sparse RangeReg) := none
deriving DecidableEq, Repr

/-- R117: a fixed-latency result that has landed: its destinations, the count and issue of its bundle, and its execution and bound. -/
structure Owe where
  dsts : List Reg
  bseq : Nat
  issued : Nat
  exec : Nat
  bound : Nat
deriving DecidableEq, Repr

/-- R115: an entry of a slip buffer. -/
structure SlipEntry where
  work : Work
  due : Nat
  pred : Bool
deriving DecidableEq, Repr

/-- R115: a slip buffer with its lag; blocked says that what holds its head back stood at the end of the last cycle, so that the head
executes in the next one at the earliest. -/
structure SlipBuf where
  lag : Nat := 0
  entries : List SlipEntry := []
  blocked : Bool := false
deriving DecidableEq, Repr

/-- R53: a range-table entry with the cycle in which it was armed (R55). -/
structure RangeEntry where
  word : Word := 0
  armed : Nat := 0
deriving DecidableEq, Repr

/-- R100: a wake token. -/
structure Token where
  word : Nat
  gen : Nat
deriving DecidableEq, Repr

/-- R89, R402: one byte waiting in the store gate, in program order. -/
structure GateByte where
  ia : Nat
  byte : Byte
  /-- the store it belongs to, so that a control-register write is taken whole -/
  store : Nat
  pl : Nat := 0
  /-- the bundle, its count and the slot of the store, for a trap its translation raises (R218) -/
  pc : Word := 0
  seq : Nat := 0
  slot : Nat := 0
  va : Nat := 0
  /-- the cycle in which the store executed (R52) -/
  exec : Nat := 0
  /-- R83: a multicast byte still goes to the issuing core's own copy: no later store of the context has written that -/
  own : Bool := true
  /-- R218: the physical address that the mark which released it confirmed -/
  pa : Option Nat := none
deriving DecidableEq, Repr

/-- R402: one entry of the undo journal: a scratchpad byte, or a bank's format code (R234), before its first write. -/
inductive JournalItem where
  | byte (off : Nat) (old : Byte)
  | bank (bank : Nat) (old : Nat)
deriving DecidableEq, Repr

/-- R402 to R404: what the open region has done that a rollback undoes. -/
structure Region where
  seq : Nat := 0
  gate : List GateByte := []
  journal : List JournalItem := []
  /-- R212: barker chunks whose counters rise when the region's stores have performed -/
  chunks : List Nat := []
  popped : List Token := []
  /-- R403: images of the tiles written in the region, as they stood before -/
  shadow : Sparse TileImage := []
deriving DecidableEq, Repr

/-- R367, R399: a trap with its record's fields; CORE, CTX and FUT are added on delivery. -/
structure Trap where
  code : Nat
  slot : Nat := 0
  buf : Bool := false
  pc : Word := 0
  pl : Nat := 0
  ep : Nat := 0
  cyc : Nat := 0
  p0 : Word := 0
  p1 : Word := 0
  p2 : Word := 0
  p3 : Word := 0
  /-- R319: the KV page to quarantine on delivery, by virtual and intermediate address -/
  quar : Option (Nat × Nat) := none
  /-- R226: lanes of the vector register a VAMO element fault keeps, with its new EP and EPPC -/
  keep : Option (Nat × VecImage × Nat × Word) := none
deriving DecidableEq, Repr

/-- R21: the phases of a task. -/
inductive Phase where
  | prologue | kernel | epilogue
deriving DecidableEq, Repr

/-- R272: a task record with what its launch adds (R18). -/
structure TaskRec where
  pro : Word := 0
  ker : Word := 0
  epi : Word := 0
  trip : Nat := 0
  itr : Nat := 0
  ppw : Word := 0
  arg : Word := 0
  scope : Nat := 0
  fut : Word := 0
  /-- R18: spatial index registers with their values -/
  spatial : List (Nat × Nat) := []
  /-- R21: temporal index registers with their extents, outermost first; register 0 is not delivered -/
  temporal : List (Nat × Nat) := []
  launch : Nat := 0
  parent : Word := 0
  pl : Nat := 0
  asn : Nat := 0
  tvec : Word := 0
  trec : Word := 0
  tword : Nat := 0
  cycLim : Nat := 0
  yd : Nat := 0
  pinLim : Nat := 0
  /-- R26: the record was made by SPAWN -/
  spawned : Bool := false
deriving DecidableEq, Repr

/-- R21, R28: a task on a context. -/
structure TaskRun where
  record : TaskRec := {}
  phase : Phase := .prologue
  iter : Nat := 0
  /-- R28: handles of the references the task holds, in list order, one entry a reference -/
  held : List Word := []
  /-- R22: the epilogue's DONE has issued -/
  ended : Bool := false
deriving DecidableEq, Repr

/-- R401: a completed mark: the registers, the bundle and the place in the task a rollback restores. -/
structure Mark where
  regs : Regs := {}
  restart : Word := 0
  bseq : Nat := 0
  phase : Phase := .prologue
  iter : Nat := 0
deriving DecidableEq, Repr

/-- R205, R206: why and where a pass is suspended. -/
structure Suspension where
  fc : Nat := 0
  op : Bool := false
  row : Nat := 0
  rdy : Bool := false
  ia : Nat := 0
  va : Nat := 0
  /-- R206: rows of operands A and B already fetched; none where a save has lost them, or none is kept -/
  kept : Option (List (List Byte) × List (List Byte)) := none
  /-- R208: the cycle in which its service completed -/
  served : Option Nat := none
  /-- R347: the cycle in which the pass suspended -/
  since : Nat := 0
deriving DecidableEq, Repr

/-- R198: the stages of a pass. -/
inductive PassSt where
  | waiting | running | suspended
deriving DecidableEq, Repr

/-- R198, R199: a tile pass. -/
structure Pass where
  id : Nat
  ctx : Nat := 0
  q : Nat
  pair : Bool := false
  fmt : Fmt
  kb : Nat
  kbn : Nat := 0
  aBase : Word
  aStride : Word
  bBase : Word
  bStride : Word
  wa : Bool
  wb : Bool
  z : Bool
  mcfg : Word
  mpat : BitVec 32
  st : PassSt := .waiting
  susp : Suspension := {}
  /-- R404: the region in which its MMA executed -/
  region : Nat := 0
  exec : Nat := 0
  paced : Bool := true
  /-- the first cycle in which its next K-block may issue -/
  due : Nat := 0
  /-- R204: operand bytes the context has written since the MMA, with their values as of its execution -/
  overlay : Sparse Byte := []
  /-- R358: the range registers in force when its MMA executed -/
  maps : Sparse RangeReg := []
  /-- folds of its K-blocks that have not been made yet -/
  folding : Nat := 0
  /-- R204: the count of its MMA's bundle -/
  seq : Nat := 0
  /-- R209: issue no further K-block: the context stops -/
  stop : Bool := false
deriving DecidableEq, Repr

/-- R79: the partial sums of a K-block on their way to a tile's port: one exact value for each covered element. -/
structure PortSum where
  id : Nat
  ctx : Nat
  pass : Nat
  /-- the cycle in which the sums stand on the port and fold -/
  at_ : Nat
  kb : Nat
  bytesA : List Byte
  bytesB : List Byte
  /-- R210: the exponents SCX has applied -/
  scx : List Int := []
deriving DecidableEq, Repr

/-- R34, R155, R361: what follows a bundle's mark at the boundary the context stands at. -/
inductive Boundary where
  | none | check | yield | halt
deriving DecidableEq, Repr

/-- R391: a leaf held by a translation cache. -/
structure TlbEntry where
  /-- the lead quarter of its partition -/
  q : Nat
  asn : Nat
  page : Nat
  leaf : Nat
  /-- the physical address of the leaf's entry; 2 ^ 52, where no entry lies, for a leaf that system software installed (R398) -/
  entry : Nat
  huge : Bool
  /-- R391, R432: the slice that holds it -/
  home : Nat
deriving DecidableEq, Repr

/-- R11: a context. -/
structure Ctx where
  st : CtxSt := .free
  why : StopWhy := .none
  halted : Bool := false
  saved : Bool := false
  pc : Word := 0
  pl : Nat := 0
  task : Option TaskRun := none
  regs : Regs := {}
  q : Sparse TileImage := []
  mrp : Word := 0
  ppw : Word := 0x3D0
  asn : Nat := 0
  lnum : Nat := 0
  flights : List Flight := []
  slipV : SlipBuf := {}
  slipM : SlipBuf := {}
  slipL : SlipBuf := {}
  slipX : SlipBuf := {}
  range : Sparse RangeEntry := []
  rregs : Sparse RangeReg := []
  wake : List Token := []
  /-- R100: tokens held at the comparator while the queue holds sixteen words -/
  held : List Token := []
  /-- R100, R149: the sync word the context is stalled on in a WAIT -/
  stalled : Option Nat := none
  /-- R275: the future a FAWAIT blocks on -/
  awaiting : Option Word := none
  /-- R256: the graph slot an AGWAIT blocks on -/
  agwait : Option Nat := none
  xst : Word := 0
  /-- R237: the cycle of the end xst holds, and when its request was accepted -/
  xstAt : Nat × Nat := (0, 0)
  miss : Word := 0
  mark : Mark := {}
  region : Region := {}
  /-- R401: the after-mark under way, with the region it opens -/
  nextMark : Option Mark := none
  nextRegion : Region := {}
  /-- R30: the mark under way is one the program asked for, of MARK, DONE, FPIN or FUNPIN -/
  ownMark : Bool := false
  /-- R218: the context waits for its mark's store translations -/
  markWait : Bool := false
  /-- R34, R361: what the boundary holds for the context once its mark's translations have come -/
  checkDue : Boundary := .none
  /-- R89, R204, R334, R396: released store bytes that have still to perform, in program order: the first of them waits for a pass, a handler
  or a migration -/
  late : List GateByte := []
  /-- R212: barker chunks whose counters rise once those bytes have performed -/
  lateTiles : List Nat := []
  /-- R117: fixed-latency results that landed before their bounds, until these are over -/
  owes : List Owe := []
  bseq : Nat := 0
  tvec : Word := 0
  xepc : Word := 0
  xepl : Nat := 0
  trec : Word := 0
  tword : Nat := 0
  inService : Bool := false
  wdc : Nat := 0
  cycLim : Nat := 200000
  yd : Nat := 250000
  pinLim : Nat := 65536
  async : List Trap := []
  heldTrap : Option Trap := none
  yieldReq : Bool := false
  /-- R37: the cycle in which the yield request was raised -/
  yieldAt : Nat := 0
  /-- R38: the deadline has passed: pre-empt at the next bundle boundary -/
  forced : Bool := false
  reclaim : Bool := false
  reclaimAt : Nat := 0
  /-- R13, R34: the cycle since which the context has been ready without issuing -/
  readyAt : Nat := 0
  /-- R231: requests and results that later accesses wait for, each with the bundle of the DRAIN that orders it -/
  drains : List (Nat × Nat) := []
  /-- R360: a SHOOT under way -/
  shooting : Option Nat := none
  /-- R157: bundles fetched since the last ISYNC, by address -/
  fetched : List (Word × List Byte) := []
  /-- R157: storage and its translations as they stood when the last ISYNC issued -/
  isync : Option (List Host.Cell × List TlbEntry) := none
  /-- R209: the passes of a context that stands on no core -/
  passes : List Pass := []
  /-- R410: a region retry is under way -/
  retry : Bool := false
  /-- R364: GENs of linked and waited-on words at save -/
  savedGens : List (Nat × Nat) := []
  savedWait : Option (Nat × Nat) := none
  /-- R363: it was waiting at its PC when it stopped -/
  wt : Bool := false
deriving DecidableEq, Repr

/-! ### Cores -/

/-- R52: a bank-format write not yet in effect. -/
structure FmtWrite where
  bank : Nat
  code : Nat
  ctx : Nat
  exec : Nat
deriving DecidableEq, Repr

/-- R99: what is counted into a sync word in the current cycle. -/
structure Arrival where
  word : Nat
  bytes : Nat := 0
  short : Bool := false
  err : Bool := false
deriving DecidableEq, Repr

/-- R248: a board entry. -/
structure BoardEntry where
  st : Nat := 0
  rk : Bool := false
  seq : Nat := 0
  dst : Nat := 0
  since : Nat := 0
  notice : Nat := 0
  claim : Nat := 0
deriving DecidableEq, Repr

/-- R241: a credit for one ranked admission, with the context and task that gave it. -/
structure Credit where
  key : Nat
  word : Nat
  swo : Nat
  fut : Word
deriving DecidableEq, Repr

/-- R293: a flit of a pull on its way: source bytes from an offset of the block. -/
structure Flit where
  pull : Nat
  off : Nat
  len : Nat
  link : Nat
deriving DecidableEq, Repr

/-- R426: what a core's meter holds of the present energy window: the launches whose tasks it held, their issue cycles, and the energy of cycles
in which a context issued and of those in which none did, in 0.1 pJ. -/
structure Meter where
  held : List Nat := []
  issues : Sparse Nat := []
  busy : Nat := 0
  idle : Nat := 0
deriving DecidableEq, Repr

/-- R26, R382: the stealing of a core's task engine: launch, generator, back-off, and the victim asked. -/
structure Steal where
  launch : Nat := 0
  x : Nat := 0
  wait : Nat := 64
  asked : Option Nat := none
  /-- the back-off is running -/
  off : Bool := false
deriving DecidableEq, Repr

/-- R317: a page of a chain: its addresses, 2 where the chain ends there, its successor, and whether its chain-step trigger is out. -/
structure ChainPage where
  va : Word := 0
  ia : Nat := 0
  st : Nat := 0
  next : Word := 0
  asked : Bool := false
deriving DecidableEq, Repr

/-- R280, R317, R339: a chain slot: its generation, the context and task that walk, the range registers it began with, its sync word, the
pages KVNX has returned, the pages found, and whether hardware takes the next step whatever the mode. -/
structure Chain where
  gen : Nat := 0
  live : Bool := false
  key : Nat := 0
  fut : Word := 0
  asn : Nat := 0
  word : Nat := 0
  maps : Sparse RangeReg := []
  start : Word := 0
  ret : Nat := 0
  pages : List ChainPage := []
  plain : Bool := false
deriving DecidableEq, Repr

/-- R11: a core, with the units its contexts share. -/
structure CoreSt where
  vreg : Bool := false
  tile : Nat := 0
  fmts : Sparse Nat := []
  fmtPend : List FmtWrite := []
  sel : Nat := 0
  selAt : Nat := 0
  gated : Bool := true
  /-- the last cycle in which the core issued a bundle -/
  last : Nat := 0
  /-- R119: units that have taken an instruction in this cycle, with the context whose it was -/
  used : List (SlipUnit × Nat) := []
  arrivals : List Arrival := []
  /-- R268: SWSET words applied in this cycle before its arrivals are added: word, target, new GEN -/
  swsets : List (Nat × Nat × Option Nat) := []
  passes : List Pass := []
  /-- R203: T_L + cpk_L of the last K-block issued; 0 while the unit has run none -/
  portFree : Nat := 0
  sums : List PortSum := []
  /-- R291, R354, R355: the pacing budget BUD, the pacing window it applies from, and the budget until then -/
  bud : Nat := 4096
  budFrom : Nat := 0
  budOld : Nat := 4096
  board : Sparse BoardEntry := []
  /-- R246: the pull window, its allocation point, and a PWIN still to take effect -/
  winBase : Nat := 0
  winLen : Nat := 0
  winAlloc : Nat := 0
  winNext : Option (Nat × Nat) := none
  /-- R289: the cycle of the last admission, with the allocation point at its start -/
  winSeen : Option (Nat × Nat) := none
  /-- R247: the rank order, the order before it, and the cycle of the last RKSET -/
  rank : Nat := 0x4688
  rankOld : Nat := 0x4688
  rankAt : Nat := 0
  credits : List Credit := []
  /-- R291: the pacing window the remaining budgets of N, E, S and W belong to -/
  budWin : Nat := 0
  budLeft : List Nat := []
  flits : List Flit := []
  /-- R26: the ready queue of the task engine, head first -/
  rq : List TaskRec := []
  steal : Steal := {}
  chains : Sparse Chain := []
  meter : Meter := {}
deriving DecidableEq, Repr

/-! ### The package -/

/-- The agent, request or unit a step of an agent acts on. -/
structure Subject where
  core : Nat := 0
  ctx : Nat := 0
  unit : SlipUnit := .v
  id : Nat := 0
  val : Nat := 0
  flag : Bool := false
  data : List Byte := []
  req : Option RemoteReq := none
  /-- the request an answer is for, and how it answers -/
  ref : Nat := 0
  code : Nat := 0
  cause : SuspendCause := .notPresent
deriving DecidableEq, Repr

/-- A step of an agent, with its subject. -/
structure Event where
  ev : Instr
  subj : Subject
deriving DecidableEq, Repr

/-- What the schedule lets happen next: a step of an agent, or the end of the cycle. -/
inductive Turn where
  | run (e : Event)
  | tick
deriving DecidableEq, Repr

/-- The bundle being issued, or the buffered entry being executed. -/
structure Iss where
  /-- instructions still to execute, in ascending slot order -/
  work : List Work := []
  cur : Option Work := none
  /-- the work is a whole bundle, whose end comes after its last slot -/
  bundle : Bool := false
  pc : Word := 0
  bseq : Nat := 0
  /-- a trap, rollback or stop has ended the bundle -/
  cut : Bool := false
  /-- R87: scratchpad bytes to write once every slot has read -/
  stores : List (Nat × Byte) := []
  /-- R143: the target of a taken transfer -/
  target : Option Word := none
  /-- R145: the loop a LOOPN starts, and where the bundle after it lies -/
  loopn : Option LoopState := none
  loopTo : Option Word := none
  mark : Bool := false
  done : Bool := false
  yield : Bool := false
  check : Bool := false
  loopx : Bool := false
  halt : Bool := false
  /-- R277: pin depth after the bundle's mark, where FPIN or FUNPIN changes it -/
  pin : Option Nat := none
  /-- the bundle took an implicit mark, whose after-mark follows -/
  after : Bool := false
  /-- R118: DRAIN of the bundle -/
  drain : Bool := false
  /-- R357: the cycle limit that WDSET sets after the bundle's own comparison -/
  wdLim : Option Nat := none
  /-- R359: the partition word PPWSET sets after the bundle -/
  ppw : Option Word := none
  /-- R358: the range register RNGW writes after the bundle -/
  rng : Option (Nat × RangeReg) := none
  /-- R356: the privilege level PRET returns to -/
  ret : Option Nat := none
deriving DecidableEq, Repr

/-- R285: a live notice: its 256 bits with ADDR and PROD, the context and task that published it, and its consumers. -/
structure Notice where
  id : Nat
  img : Nat
  key : Nat
  fut : Word := 0
  asn : Nat := 0
  /-- the cycle of its acceptance -/
  since : Nat := 0
  /-- R238: the retention sync word; R299: the chunk record of a barker's notice -/
  word : Nat := 0
  chunk : Option Nat := none
  members : List Nat := []
  /-- consumer positions written to a board, and positions served -/
  seen : List Nat := []
  served : List Nat := []
  released : Bool := false
  /-- R24: it travels with the image of a team that is out: the team, its block and its retention word where they lay in the core's
  scratchpad, and what was counted into that word since -/
  out : Bool := false
  team : Nat := 0
  block : List Byte := []
  kept : List Byte := []
  late : List (Nat × Bool) := []
  /-- R337: a handler's notice, which has no retention word -/
  posted : Bool := false
  /-- R300: whose arming or count published a chunk: its slice -/
  slice : Nat := 0
deriving DecidableEq, Repr

/-- R284: a consumer group. -/
structure Group where
  gen : Nat := 0
  live : Bool := false
  members : List Nat := []
deriving DecidableEq, Repr

/-- R240 to R243, R257: a pull, or the data of a remote get: source bytes base to base + n − 1 of the block at ia. -/
structure PullJob where
  notice : Nat := 0
  ent : Nat := 0
  ia : Nat := 0
  asn : Nat := 0
  base : Nat := 0
  n : Nat := 0
  dst : Nat := 0
  srcF : Fmt := .raw
  dstF : Fmt := .raw
  conv : Bool := false
  add : Bool := false
  claim : Bool := false
  /-- a place in the pull window was assigned to it -/
  assigned : Bool := false
  link : Nat := 0
  /-- bytes asked for, landed, and placed -/
  asked : Nat := 0
  landed : Nat := 0
  placed : Nat := 0
deriving DecidableEq, Repr

/-- R264: a copy or fill: its shape, bases, the formats of the run under way, and the next run and byte. -/
structure CopyJob where
  desc : List Word := []
  dst : Nat := 0
  src : Nat := 0
  wd : Bool := false
  ws : Bool := false
  fill : Option Word := none
  srcF : Fmt := .raw
  dstF : Fmt := .raw
  conv : Bool := false
  run : Nat := 0
  off : Nat := 0
deriving DecidableEq, Repr

/-- R252: an open tree at its root, with the contributions by member position. -/
structure TreeJob where
  root : Nat := 0
  tag : Nat := 0
  op : Nat := 0
  len : Nat := 0
  shp : Nat := 0
  dst : Nat := 0
  members : List Nat := []
  leaves : Sparse (List Byte) := []
  closed : Bool := false
deriving DecidableEq, Repr

/-- R298: a graph run: translated bases, counters and bytes moved by node, nodes counted. -/
structure RunJob where
  graph : Nat := 0
  bases : List (Word × RangeReg) := []
  counters : List Nat := []
  moved : List Nat := []
  counted : List Nat := []
deriving DecidableEq, Repr

/-- R302: a remote request: its connection, remote address, length and bytes sent. -/
structure RemoteJob where
  conn : Nat := 0
  addr : Nat := 0
  n : Nat := 0
  local_ : Nat := 0
  w : Bool := true
  sent : Nat := 0
deriving DecidableEq, Repr

/-- R314: a state-store operation that has taken effect: the demoted frames whose page-ins it waits for, and whether one failed. -/
structure StateJob where
  pend : List Nat := []
  failed : Bool := false
  /-- the cycle in which it took effect -/
  cyc : Nat := 0
deriving DecidableEq, Repr

/-- How far an accepted operation has come. -/
inductive Job where
  | none
  | pull (p : PullJob)
  | copy (c : CopyJob)
  | tree (t : TreeJob)
  | run (r : RunJob)
  | remote (r : RemoteJob)
  | state (t : StateJob)
deriving DecidableEq, Repr

/-- R236, R259: an operation handed to an agent. -/
structure Req where
  id : Nat
  key : Nat
  ins : Instr
  pc : Word := 0
  slot : Nat := 0
  bseq : Nat := 0
  pl : Nat := 0
  /-- R237: the sync word it counts into -/
  word : Option Nat := none
  swo : Nat := 0
  /-- operands read at issue -/
  args : List Nat := []
  data : List Byte := []
  /-- R56: the range registers as the issuing unit found them, where the operation's agent translates its addresses -/
  maps : Sparse RangeReg := []
  exec : Nat := 0
  accepted : Bool := false
  /-- the order of acceptance -/
  acc : Nat := 0
  /-- R52: the cycle of acceptance -/
  accAt : Nat := 0
  job : Job := .none
  fut : Word := 0
  asn : Nat := 0
  cancel : Bool := false
  /-- R101: bytes of its context's own scratchpad, by storage address, that the context has stored to since: as the operation still reads
  them -/
  kept : Sparse Byte := []
deriving DecidableEq, Repr

/-- R60: an L1 tag: its superblock, and its lines that are valid and that are dirty, as masks of four bits. -/
structure L1Tag where
  block : Nat
  valid : Nat := 0
  dirty : Nat := 0
deriving DecidableEq, Repr

/-- R398: a request for a walk or a service that system software answers. -/
structure XReq where
  id : Nat
  quarter : Nat
  ev : Nat
  cause : Nat
  acc : Nat
  asn : Nat
  page : Nat
  /-- the record stands in the ring; otherwise it is held back for room -/
  posted : Bool := false
  /-- R391: other address spaces whose accesses have joined it -/
  joined : List Nat := []
  /-- the answer was fail, and every access that joined meets it: false in the cycle of the answer, true in the next -/
  failed : Option Bool := none
  /-- R398: a shoot-down overlapped the request -/
  shot : Bool := false
deriving DecidableEq, Repr

/-- R391, R398, R441: a page that the step in hand must wait for: the lead quarter of its partition, its address space, an address in it, and
whether the step writes it. -/
structure PageAsk where
  q : Nat
  asn : Nat
  ia : Nat
  write : Bool
deriving DecidableEq, Repr

/-- R396: a page-in under way: the page, its entry, the frame taken, and whose miss raised it first (R324). -/
structure PageIn where
  id : Nat
  quarter : Nat
  asn : Nat
  ia : Nat
  entry : Nat
  huge : Bool := false
  frame : Option Nat := none
  core : Nat := 0
  ctx : Nat := 0
  src : Nat := 0
  cyc : Nat := 0
  /-- R323: contexts that raised a miss from LDT, VLDT or XLAT.in, by key -/
  keys : List Nat := []
  /-- R317: chains that count the page when it has come in: context, task and sync word -/
  counts : List (Nat × Word × Nat) := []
  /-- R337: handler commands that wait for it: slice and command -/
  cmds : List (Nat × Nat) := []
deriving DecidableEq, Repr

/-- R317: a chain's page that lies away while system software moves it: the chain counts it once it is resident. -/
structure PageWait where
  quarter : Nat
  asn : Nat
  ia : Nat
  core : Nat
  ctx : Nat
  /-- the context, its task and the sync word -/
  count : Nat × Word × Nat
  /-- R323: its page-in failed, and nothing has asked for the page since -/
  idle : Bool := false
deriving DecidableEq, Repr

/-- R330 to R333: a trigger queued at a slice, or the running invocation's. -/
structure Invoke where
  id : Nat
  key : Nat
  slot : Nat
  a1 : Nat
  a2 : Nat := 0
  a3 : Nat := 0
  core : Nat := 0
  ctx : Nat := 0
  /-- the cycle in which it was raised -/
  cyc : Nat := 0
  /-- the HMSG request it answers -/
  req : Nat := 0
  /-- the chain slot of a chain step, with its generation -/
  chain : Nat × Nat := (0, 0)
deriving DecidableEq, Repr

/-- R325 to R336: a handler core during an invocation: pc, registers, the cycles of its first and last instructions, instructions
retired, fill-buffer bytes written, the service registers, and the last command issued. -/
structure HandlerRun where
  inv : Invoke
  pc : Nat
  regs : Sparse Word := []
  first : Nat
  last : Option Nat := none
  ret : Nat := 0
  fill : Sparse Byte := []
  addr : Nat := 0
  len : Nat := 0
  cmd : Option Nat := none
deriving DecidableEq, Repr

/-- R337: a service command: the invocation that issued it, its code, span, tenant and requester, and its status. -/
structure Cmd where
  id : Nat
  inv : Nat
  code : Nat
  addr : Nat
  len : Nat
  slot : Nat
  core : Nat := 0
  ctx : Nat := 0
  stat : Nat := 0
deriving DecidableEq, Repr

/-- R335: a line frame of a slice that holds a line: its address, and whether some byte of it is dirty. -/
structure LineFrame where
  ia : Nat
  dirty : Bool := false
deriving DecidableEq, Repr

/-- R330: how far a line has come on its way into a slice: found absent, its data here, or a frame chosen that holds another line. -/
inductive LineStage where
  | miss
  | fill
  | evict (frame : Nat)
deriving DecidableEq, Repr

/-- R330, R334: a line on its way into its home slice while handlers may be called: the context that asked first, its stage, whether the
stage's trigger has been queued, and whether a handler supplied the line. -/
structure LineFetch where
  line : Nat
  key : Nat
  stage : LineStage := .miss
  asked : Bool := false
  supplied : Bool := false
deriving DecidableEq, Repr

/-- R328 to R336: a slice: tenant descriptor dwords at 32 × slot + word, overflow count, chain-step mode, queued invocations, the one
that runs, aborted ones whose default action comes in the next cycle (R338), its commands, the lines on their way in, the contexts that wait
for them, those a bypass has given the data of a line, and its fenced line frames (R411). -/
structure SliceSt where
  desc : Sparse Nat := []
  ovf : Nat := 0
  chain : Bool := false
  queue : List Invoke := []
  run : Option HandlerRun := none
  aborts : List Invoke := []
  cmds : List Cmd := []
  fetches : List LineFetch := []
  asks : List (Nat × Nat) := []
  given : List (Nat × Nat) := []
  fenced : List Nat := []
deriving DecidableEq, Repr

/-- R255: a loaded accord graph: its nodes, its successor entries, and its address space. -/
structure Graph where
  asn : Nat
  loaded : Bool := false
  releasing : Bool := false
  nodes : List Nat := []
  succs : List Nat := []
deriving DecidableEq, Repr

/-- R301, R368: a connection. -/
structure Conn where
  opened : Bool := false
  txk : Nat := 0
  rxk : Nat := 0
  /-- R421: the receiving key in use until a frame authenticates under the new one -/
  oldRxk : Option Nat := none
  /-- R421: the last counter accepted under that key -/
  oldRxc : Nat := 0
  asn : Nat := 0
  peer : Nat := 0
  wbase : Nat := 0
  wlim : Nat := 0
  wrd : Bool := false
  wwr : Bool := false
  /-- R301: frame counters; the receiving one is the last accepted -/
  txc : Nat := 0
  rxc : Nat := 0
  /-- R302: requests of the peer that wait for a page, or for an earlier one of the same context of the peer, with that context -/
  waits : List (Nat × RemoteReq) := []
deriving DecidableEq, Repr

/-- R299: a chunk record tiles have been counted into: its place, whose write last touched it, and whether its publication
has failed since. -/
structure Chunk where
  ia : Nat
  key : Nat
  asn : Nat
  failed : Bool := false
  /-- R300: the cycle of the last attempt to publish it -/
  tried : Option Nat := none
deriving DecidableEq, Repr

/-- R365, R376: an admitted launch. -/
structure Launch where
  id : Nat
  /-- the quarter whose blocks govern it, its launch number, and its slot and queue -/
  lead : Nat := 0
  lnum : Nat := 0
  slot : Nat := 0
  queue : Nat := 0
  cset : Nat := 0
  kctx : Nat := 1
  pri : Nat := 0
  ns : Bool := false
  tsl : Nat := 0
  ppw : Word := 0
  tmpl : Nat := 0
  csw : Nat := 0
  tvec : Word := 0
  trec : Word := 0
  tword : Nat := 0
  /-- R28: the references the launch holds -/
  futs : List Nat := []
  /-- tasks that have not ended -/
  live : Nat := 0
  err : Bool := false
deriving DecidableEq, Repr

/-- R24: what travels with a team's image from one of its cores. -/
structure CoreImage where
  rq : List TaskRec := []
  board : Sparse BoardEntry := []
  winBase : Nat := 0
  winLen : Nat := 0
  winAlloc : Nat := 0
  winNext : Option (Nat × Nat) := none
  /-- R241 -/
  credits : List Credit := []
deriving DecidableEq, Repr

/-- R19, R380: a team: its die and number, tasks not yet started by position in the team, and its cluster. -/
structure Team where
  id : Nat
  launch : Nat
  die : Nat
  num : Nat
  todo : List (Nat × TaskRec) := []
  cluster : Option Nat := none
  /-- the cycle in which it began to wait, or was made resident -/
  since : Nat := 0
  /-- R380: the cycle in which its slice began -/
  slice : Option Nat := none
  /-- R24: it is being swapped out -/
  leaving : Bool := false
  /-- R24: the images of its cores, and the cluster it left -/
  image : List CoreImage := []
  last : Option Nat := none
  /-- R24: its saved contexts, by the places they left and their futures -/
  outs : List (Nat × Word) := []
  /-- R23: it was resident before -/
  ran : Bool := false
deriving DecidableEq, Repr

/-- R372, R377: a hardware slot: its queue, the descriptor fields it holds, and a pending unmap. -/
structure QSlot where
  queue : Nat
  rbase : Nat := 0
  log2n : Nat := 0
  priv : Bool := false
  mach : Bool := false
  en : Bool := true
  asn : Nat := 0
  stalled : Bool := false
  drn : Bool := false
  /-- the unmap in force, by number -/
  unmap : Nat := 0
  ref : Bool := false
deriving DecidableEq, Repr

/-- R424: a give in flight, or returned. -/
structure Give where
  seq : Nat
  target : Nat
  amount : Nat
deriving DecidableEq, Repr

/-- R378, R424 to R427, R431: what a quarter keeps beside its control registers. -/
structure QuarterSt where
  /-- R375: the partition's next launch number -/
  nextLaunch : Nat := 1
  slots : Sparse QSlot := []
  /-- R378: pending queues with the cycles of their notify writes -/
  pend : List (Nat × Nat) := []
  /-- R417, R430: the cycle in which QACK became 1; a flush is under way -/
  ackAt : Nat := 0
  flushing : Bool := false
  /-- R433: QSET of the partition the quarter last resumed in, or that a configuration image gave it; none for the quarter alone -/
  joined : Option Nat := none
  /-- R424: gives in flight; messages received, by sender's code and number; excess returned to peers; the next give's number -/
  gives : List Give := []
  heard : List (Nat × Nat) := []
  back : List Give := []
  nextGive : Nat := 0
  /-- R425: energy spent beyond the last budget and in this window, in 0.1 pJ; the window's budget has been reached -/
  debt : Nat := 0
  used : Nat := 0
  spent : Bool := false
  /-- R426: energy that no launch caused, in 0.1 pJ -/
  idle : Nat := 0
  /-- R427: the cycle in which the current step began, that in which it ended, the markers received (link and step) and those sent -/
  stepAt : Nat := 0
  stepEnd : Option Nat := none
  marks : List (Nat × Nat) := []
  told : List (Nat × Nat) := []
deriving DecidableEq, Repr

/-- R360: a SHOOT under way: the context that waits, its partition, and the covered pages of one or every address space. -/
structure Shoot where
  id : Nat
  key : Nat
  q : Nat
  asn : Option Nat := none
  lo : Nat := 0
  /-- pages; none covers every page -/
  n : Option Nat := none
deriving DecidableEq, Repr

/-- R434 to R439: the boot controller: its status, the image copies in boot flash (at 2 × KIND + copy), the floors, the public keys
offered for slots 0 to 3 and those of the owner, the copies used at the last bring-up, the measurements with their security versions, whether the
management channels of the links are keyed, the MCTP endpoint ID, and its last answer: command code and bytes. -/
structure Boot where
  stat : Nat := 1
  flash : Sparse (List Byte) := []
  floors : Sparse Nat := []
  vendor : Sparse (List Byte) := []
  owner : Sparse (List Byte) := []
  used : Sparse Nat := []
  mfw : List Byte := []
  mcfg : List Byte := []
  mkeys : List Byte := []
  linked : Bool := false
  svnf : Nat := 0
  svnc : Nat := 0
  eid : Nat := 0
  answer : Option (Nat × List Byte) := none
deriving DecidableEq, Repr
/-- The machine. -/
structure State where
  cyc : Nat := 0
  /-- the model's own: the key of the next free value (R7) -/
  fresh : Nat := 0
  /-- the model's own: the next number of a result, request, pass or notice -/
  nextId : Nat := 1
  mem : List Host.Cell := []
  ctxs : Sparse Ctx := []
  cores : Sparse CoreSt := []
  /-- R371, R385, R408, R413: control registers by quarter, at block × 0x1000 + offset; unlisted ones at their reset -/
  ctl : Sparse (Sparse Nat) := []
  pkg : Nat := 0
  /-- the context now acting: 4 × core + context -/
  at_ : Nat := 0
  subj : Subject := {}
  iss : Iss := {}
  reqs : List Req := []
  tlb : List TlbEntry := []
  /-- R60: L1 tags by core, at 8 × set + way -/
  l1 : Sparse (Sparse L1Tag) := []
  xreqs : List XReq := []
  /-- R441: pages that the step in hand must wait for: it is done again, from its start, in the next cycle; none between steps -/
  asks : List PageAsk := []
  pageIns : List PageIn := []
  /-- R228: pages whose page-in has updated their translation in this cycle, by quarter, with the contexts whose tier words have counted -/
  moved : List (Nat × Nat × List Nat) := []
  /-- R317: pages that chains have still to count -/
  owed : List PageWait := []
  /-- R411: frames fenced after a lasting error -/
  fenced : List Nat := []
  /-- R46: energy a launch has consumed, by launch -/
  nrg : Sparse Nat := []
  /-- R426: energy charged to launches, in 0.1 pJ, of which nrg shows the microjoules at each window -/
  joules : Sparse Nat := []
  slices : Sparse SliceSt := []
  /-- R3, R335: the line frames of the slices that hold a line, by slice and frame -/
  frames : Sparse (Sparse LineFrame) := []
  /-- R325: reservations of handler cores: slice, storage address and bytes -/
  resv : List (Nat × Nat × Nat) := []
  notices : List Notice := []
  /-- R284: group tables, at 4096 × lowest quarter + index -/
  groups : Sparse Group := []
  /-- R24, R34: contexts saved by the device, with their places -/
  saved : List (Nat × Ctx) := []
  /-- R255: graph slots, at 16 × die + slot -/
  graphs : List (Nat × Graph) := []
  conns : Sparse Conn := []
  chunks : List Chunk := []
  launches : List Launch := []
  teams : List Team := []
  /-- R26: stolen tasks on their way: the thief and the task -/
  transit : List (Nat × TaskRec) := []
  quarters : Sparse QuarterSt := []
  boot : Boot := {}
  /-- R362: contexts that system software has saved, as they stood: what an image does not hold comes from here -/
  parked : List Ctx := []
  /-- R360: shoot-downs under way -/
  shoots : List Shoot := []
  /-- the model's own: steps that fall due in a cycle, by cycle -/
  timers : List (Nat × Event) := []
  /-- the model's own: steps enabled now, in order -/
  ready : List Event := []
  /-- the model's own: the order the spec leaves open (R7), and what the outside does -/
  schedule : List Turn := []
  /-- cores that have not issued in this cycle -/
  turn : List Nat := []
deriving DecidableEq, Repr

/-- The machine right after package reset. -/
def State.reset : State := {}

end Sys2Proof.Machine
end

