-- ==== Sys2Proof/Machine/Bits.lean ====
section
/-!
DEFINITION. Bit fields, byte order (R4) and the lanes of register images (R42, R171).
-/

namespace Sys2Proof.Machine

/-- Bits [hi:lo] of a number. -/
def fld (x hi lo : Nat) : Nat := x / 2 ^ lo % 2 ^ (hi + 1 - lo)

/-- Bit i of a number. -/
def bitAt (x i : Nat) : Bool := x / 2 ^ i % 2 == 1

/-- The number with bits [hi:lo] replaced. -/
def setFld (x hi lo v : Nat) : Nat :=
  x / 2 ^ (hi + 1) * 2 ^ (hi + 1) + v % 2 ^ (hi + 1 - lo) * 2 ^ lo + x % 2 ^ lo

/-- The number with bit i set to b. -/
def setBit (x i : Nat) (b : Bool) : Nat := setFld x i i b.toNat

/-- R4: a number as n little-endian bytes. -/
def toBytes : Nat → Nat → List Byte
  | 0, _ => []
  | n + 1, x => BitVec.ofNat 8 x :: toBytes n (x / 256)

/-- R4: the number little-endian bytes hold. -/
def ofBytes : List Byte → Nat
  | [] => 0
  | b :: bs => b.toNat + 256 * ofBytes bs

/-- The signed integer the low w bits of a number hold. -/
def toSigned (w x : Nat) : Int :=
  let y := x % 2 ^ w
  if 2 * y < 2 ^ w then (y : Int) else (y : Int) - (2 ^ w : Nat)

/-- The low w bits of an integer in two's complement. -/
def ofSigned (w : Nat) (i : Int) : Nat := (i % ((2 ^ w : Nat) : Int)).toNat

/-- Sign extension of the low w bits to 64. -/
def sext (w x : Nat) : Word := BitVec.ofNat 64 (ofSigned 64 (toSigned w x))

/-- Integer saturation to the bounds (R9). -/
def satInt (lo hi x : Int) : Int := if x < lo then lo else if hi < x then hi else x

/-- R171: element j of width w of an image. -/
def elem (img w j : Nat) : Nat := img / 2 ^ (w * j) % 2 ^ w

/-- The image with n elements of width w, from element 0 on. -/
def packElems (w : Nat) : List Nat → Nat
  | [] => 0
  | e :: es => e % 2 ^ w + 2 ^ w * packElems w es

/-- An image built element by element. -/
def buildElems (w n : Nat) (f : Nat → Nat) : Nat := packElems w ((List.range n).map f)

/-- R4, R219: the register value of a scalar element with this size code. -/
def extendSize (sz : MSize) (x : Nat) : Word :=
  match sz with
  | .u8 => BitVec.ofNat 64 (x % 2 ^ 8)
  | .u16 => BitVec.ofNat 64 (x % 2 ^ 16)
  | .u32 => BitVec.ofNat 64 (x % 2 ^ 32)
  | .d => BitVec.ofNat 64 x
  | .s8 => sext 8 x
  | .s16 => sext 16 x
  | .s32 => sext 32 x

/-- R219: bytes of a scalar element. -/
def sizeBytes : MSize → Nat
  | .u8 | .s8 => 1
  | .u16 | .s16 => 2
  | .u32 | .s32 => 4
  | .d => 8

end Sys2Proof.Machine
end

