-- ==== Sys2Proof/Machine/Crypto.lean ====
section
/-!
DEFINITION. SHAKE256 and pure Ed448 with an empty context string (R436, R438).  PRESUMED (log 11): the spec names RFC 8032 and SHAKE256 for
them, and their algorithms are taken from those standards.
-/

namespace Sys2Proof.Machine

/-! ### SHAKE256 -/

/-- A 64-bit lane rotated left. -/
def rotLane (x n : Nat) : Nat := (x * 2 ^ n + x / 2 ^ (64 - n)) % 2 ^ 64

/-- The rotations of the lanes, lane x + 5y at place x + 5y. -/
def laneTurns : List Nat :=
  [0, 1, 62, 28, 27, 36, 44, 6, 55, 20, 3, 10, 43, 25, 39, 41, 45, 15, 21, 8, 18, 2, 61, 56, 14]

/-- The round constants. -/
def roundConstants : List Nat :=
  [0x1, 0x8082, 0x800000000000808A, 0x8000000080008000, 0x808B, 0x80000001, 0x8000000080008081, 0x8000000000008009,
   0x8A, 0x88, 0x80008009, 0x8000000A, 0x8000808B, 0x800000000000008B, 0x8000000000008089, 0x8000000000008003,
   0x8000000000008002, 0x8000000000000080, 0x800A, 0x800000008000000A, 0x8000000080008081, 0x8000000000008080,
   0x80000001, 0x8000000080008008]

/-- One round of the permutation on 25 lanes. -/
def shakeRound (a : List Nat) (rc : Nat) : List Nat :=
  let col (x : Nat) : Nat := (List.range 5).foldl (fun v y => v ^^^ a.getD (x + 5 * y) 0) 0
  let c := (List.range 5).map col
  let d := (List.range 5).map fun x => c.getD ((x + 4) % 5) 0 ^^^ rotLane (c.getD ((x + 1) % 5) 0) 1
  let t := (List.range 25).map fun i => rotLane (a.getD i 0 ^^^ d.getD (i % 5) 0) (laneTurns.getD i 0)
  let b := (List.range 25).map fun i => t.getD ((i % 5 + 3 * (i / 5)) % 5 + 5 * (i % 5)) 0
  let e := (List.range 25).map fun i =>
    b.getD i 0 ^^^ ((2 ^ 64 - 1 - b.getD ((i + 1) % 5 + i / 5 * 5) 0) &&& b.getD ((i + 2) % 5 + i / 5 * 5) 0)
  (e.headD 0 ^^^ rc) :: e.drop 1

/-- The permutation. -/
def shakePermute (a : List Nat) : List Nat := roundConstants.foldl shakeRound a

/-- The message with the padding of SHAKE256: whole blocks of 136 bytes. -/
def shakePad (m : List Byte) : List Byte :=
  let n := 136 - m.length % 136
  m ++ (if n = 1 then [0x9F] else 0x1F :: List.replicate (n - 2) (0 : Byte) ++ [0x80])

/-- The lanes after n blocks of a padded message. -/
def shakeAbsorb : Nat → List Byte → List Nat → List Nat
  | 0, _, a => a
  | n + 1, m, a =>
    let x := ofBytes (m.take 136)
    shakeAbsorb n (m.drop 136) (shakePermute ((List.range 25).map fun i => a.getD i 0 ^^^ elem x 64 i))

/-- n blocks of output. -/
def shakeSqueeze : Nat → List Nat → List Byte
  | 0, _ => []
  | n + 1, a => (a.take 17).flatMap (toBytes 8) ++ shakeSqueeze n (shakePermute a)

/-- R436: n bytes of the SHAKE256 hash of a message. -/
def shake256 (m : List Byte) (n : Nat) : List Byte :=
  let p := shakePad m
  (shakeSqueeze ((n + 135) / 136) (shakeAbsorb (p.length / 136) p (List.replicate 25 0))).take n

/-! ### Ed448 -/

/-- The prime of the field. -/
def edP : Nat := 2 ^ 448 - 2 ^ 224 - 1

/-- The order of the base point. -/
def edL : Nat := 2 ^ 446 - 13818066809895115352007386748515426880336692474882178609894547503885

/-- The constant of the curve x² + y² = 1 + d x² y². -/
def edD : Nat := edP - 39081

/-- A point in projective coordinates. -/
structure EdPoint where
  x : Nat
  y : Nat
  z : Nat
deriving DecidableEq, Repr

/-- The base point. -/
def edBase : EdPoint :=
  { x := 224580040295924300187604334099896036246789641632564134246125461686950415467406032909029192869357953282578032075146446173674602635247710
    y := 298819210078481492676017930443930673437544040154080242095928241372331506189835876003536878655418784733982303233503462500531545062832660
    z := 1 }

/-- A difference in the field. -/
def edSub (a b : Nat) : Nat := (a + (edP - b % edP)) % edP

/-- The sum of two points. -/
def edAdd (p q : EdPoint) : EdPoint :=
  let a := p.z * q.z % edP
  let b := a * a % edP
  let c := p.x * q.x % edP
  let d := p.y * q.y % edP
  let e := edD * c % edP * d % edP
  let f := edSub b e
  let g := (b + e) % edP
  let h := (p.x + p.y) * (q.x + q.y) % edP
  { x := a * f % edP * edSub (edSub h c) d % edP, y := a * g % edP * edSub d c % edP, z := f * g % edP }

/-- n times a point, for n below 2 ^ 456. -/
def edMul (n : Nat) (p : EdPoint) : EdPoint :=
  (List.range 456).foldr (fun i r => let r := edAdd r r; if bitAt n i then edAdd r p else r) ⟨0, 1, 1⟩

/-- x to the power n in the field, for n below 2 ^ 456. -/
def edPow (x n : Nat) : Nat := (List.range 456).foldr (fun i r => let r := r * r % edP; if bitAt n i then r * x % edP else r) 1

/-- Two points are one. -/
def edSame (p q : EdPoint) : Bool := p.x * q.z % edP == q.x * p.z % edP && p.y * q.z % edP == q.y * p.z % edP

/-- The 57 bytes of a point. -/
def edEncode (p : EdPoint) : List Byte :=
  let i := edPow p.z (edP - 2)
  toBytes 57 (p.y * i % edP + p.x * i % edP % 2 * 2 ^ 455)

/-- The point that 57 bytes encode, if they do. -/
def edDecode (bs : List Byte) : Option EdPoint :=
  let n := ofBytes bs
  let y := n % 2 ^ 455
  let sign := n / 2 ^ 455 % 2
  let u := edSub (y * y) 1
  let v := edSub (edD * (y * y % edP)) 1
  let x := u * u % edP * u % edP * v % edP * edPow (u * u % edP * u % edP * (u * u % edP) % edP * (v * v % edP * v % edP) % edP) ((edP - 3) / 4) % edP
  if bs.length ≠ 57 ∨ edP ≤ y ∨ v * (x * x % edP) % edP ≠ u ∨ (x = 0 ∧ sign = 1) then none
  else some ⟨if x % 2 = sign then x else edP - x, y, 1⟩

/-- The prefix of every hash of a signature: pure Ed448, with an empty context string. -/
def edDom : List Byte := [0x53, 0x69, 0x67, 0x45, 0x64, 0x34, 0x34, 0x38, 0x00, 0x00]

/-- The number a signature's hash gives. -/
def edHash (bs : List Byte) : Nat := ofBytes (shake256 (edDom ++ bs) 114)

/-- R436: the Ed448 check of a signature: key, message, signature. -/
def ed448Verify (key msg sig : List Byte) : Bool :=
  let n := ofBytes (sig.drop 57)
  sig.length == 114 && decide (n < edL) &&
  match edDecode key, edDecode (sig.take 57) with
  | some a, some r =>
    let k := edHash (sig.take 57 ++ key ++ msg) % edL
    edSame (edMul 4 (edMul n edBase)) (edAdd (edMul 4 r) (edMul 4 (edMul k a)))
  | _, _ => false

/-- R438: the Ed448 signature of a message under a private key of 57 bytes. -/
def ed448Sign (secret msg : List Byte) : List Byte :=
  let h := shake256 secret 114
  let a := ofBytes (h.take 56)
  let s := setFld (setFld a 1 0 0) 447 447 1
  let key := edEncode (edMul s edBase)
  let r := edHash (h.drop 57 ++ msg) % edL
  let c := edEncode (edMul r edBase)
  let k := edHash (c ++ key ++ msg) % edL
  c ++ toBytes 57 ((r + k * s) % edL)

end Sys2Proof.Machine
end

