-- ==== Sys2Proof/Machine/Mem.lean ====
section
/-!
DEFINITION. Storage (R50, R57, R385, R415): one byte memory keyed by storage address, the windows of the intermediate space,
the partitions, and the control registers (R371, R385, R408, R413, R440).
-/

namespace Sys2Proof.Machine

/-- What a byte that nothing has written reads as. -/
def unwritten : Byte := 0

/-- The memory is in its canonical form. -/
def Memory.wf (m : List Host.Cell) : Bool := swf unwritten m

/-- The byte at a storage address. -/
def mget (s : State) (a : Nat) : Byte := sget unwritten s.mem a

/-- The state with a byte written at a storage address; it ends the reservations of handler cores that cover it (R325). -/
def mput (s : State) (a : Nat) (b : Byte) : State :=
  { s with mem := sput unwritten s.mem a b, resv := s.resv.filter fun r => !(decide (r.2.1 ≤ a) && decide (a < r.2.1 + r.2.2)) }

/-- Little-endian bytes from a storage address on. -/
def mgets (s : State) (a n : Nat) : List Byte := (List.range n).map fun i => mget s (a + i)

/-- The state with bytes written from a storage address on. -/
def mputs : State → Nat → List Byte → State
  | s, _, [] => s
  | s, a, b :: bs => mputs (mput s a b) (a + 1) bs

/-- R58: storage address of a scratchpad byte: its core-window form. -/
def spAddr (core off : Nat) : Nat := 0x100000000 + core * 0x200000 + off

/-- R58: an intermediate address as it leaves the issuing unit of a core: a local address in its core-window form. -/
def coreForm (core ia : Nat) : Nat := if ia < 0x200000 then spAddr core ia else ia

/-- R385: storage address of a physical byte. -/
def paAddr (pa : Nat) : Nat := 2 ^ 56 + pa

/-- Scratchpad bytes of a core. -/
def spGets (s : State) (core off n : Nat) : List Byte := mgets s (spAddr core off) n

/-- A little-endian number in a core's scratchpad. -/
def spNum (s : State) (core off n : Nat) : Nat := ofBytes (spGets s core off n)

/-- A little-endian number in physical memory. -/
def paNum (s : State) (pa n : Nat) : Nat := ofBytes (mgets s (paAddr pa) n)

/-- The state with a little-endian number written in physical memory. -/
def paPut (s : State) (pa n x : Nat) : State := mputs s (paAddr pa) (toBytes n x)

/-! ### Cores and the pool -/

/-- The core's state. -/
def coreAt (s : State) (core : Nat) : CoreSt := sget {} s.cores core

/-- The state with a core changed. -/
def updCore (s : State) (core : Nat) (f : CoreSt → CoreSt) : State :=
  { s with cores := sins s.cores core (f (coreAt s core)) }

/-- R41: vector registers a core configuration gives. -/
def vregCount (vreg : Bool) : Nat := if vreg then 64 else 32

/-- R41: tiles a core configuration gives. -/
def tileCount (tile : Nat) : Nat := if tile = 0 then 4 else if tile = 1 then 8 else 16

/-- R48: scratchpad banks under a core configuration: 64 less the banks that 4 × F bytes take. -/
def spBanks (vreg : Bool) (tile : Nat) : Nat :=
  64 - (4 * (vregCount vreg * 256 + tileCount tile * 4096)) / 32768

/-- R48: SPSIZE of a core, in bytes. -/
def spSize (s : State) (core : Nat) : Nat :=
  let c := coreAt s core
  spBanks c.vreg c.tile * 32768

/-- R44: the partition word a context reads under a core configuration. -/
def ppwOf (vreg : Bool) (tile : Nat) : Word :=
  BitVec.ofNat 64 (vreg.toNat + tile * 2 + spBanks vreg tile * 16)

/-- R44: a partition word is malformed; its SPB bits are ignored. -/
def ppwMalformed (w : Nat) : Bool := fld w 2 1 == 3 || bitAt w 3 || fld w 63 10 != 0

/-! ### Control registers -/

/-- R371 to R440: the control blocks of a quarter. -/
inductive CtlBlock where
  | sched | xlate | fault | part
deriving DecidableEq, Repr

/-- How a control register is written (R3). -/
inductive CtlAccess where
  | rw | hw | w1c | wo
deriving DecidableEq, Repr

/-- A control register: offset, width in bits, access and reset value. -/
structure CtlReg where
  off : Nat
  width : Nat
  acc : CtlAccess
  reset : Nat := 0
deriving DecidableEq, Repr

/-- R371: the scheduler block. -/
def schedRegs : List CtlReg :=
  [⟨0x000, 64, .rw, 0⟩, ⟨0x008, 32, .rw, 0⟩, ⟨0x010, 64, .rw, 0⟩, ⟨0x018, 32, .rw, 0⟩, ⟨0x020, 8, .rw, 0⟩,
   ⟨0x028, 32, .rw, 1024⟩, ⟨0x030, 32, .rw, 200000⟩, ⟨0x034, 32, .rw, 250000⟩, ⟨0x038, 32, .rw, 65536⟩,
   ⟨0x040, 16, .rw, 4096⟩, ⟨0x048, 64, .rw, 0⟩, ⟨0x050, 4, .rw, 0⟩, ⟨0x058, 32, .rw, 1048576⟩, ⟨0x060, 2, .rw, 0⟩,
   ⟨0x068, 32, .hw, 0⟩, ⟨0x06C, 32, .rw, 0⟩, ⟨0x070, 32, .w1c, 0⟩] ++
  (List.range 16).map fun i => ⟨0x100 + 8 * i, 64, .hw, 0⟩

/-- R385: the translation block. -/
def xlateRegs : List CtlReg :=
  [⟨0x000, 64, .rw, 0⟩, ⟨0x008, 32, .rw, 0⟩, ⟨0x010, 64, .rw, 0⟩, ⟨0x018, 40, .rw, 0⟩, ⟨0x020, 64, .rw, 0⟩,
   ⟨0x028, 64, .rw, 0⟩, ⟨0x030, 32, .rw, 0⟩, ⟨0x034, 32, .rw, 0⟩, ⟨0x040, 64, .rw, 0⟩, ⟨0x048, 32, .rw, 0⟩,
   ⟨0x050, 64, .rw, 0⟩, ⟨0x058, 4, .rw, 0⟩, ⟨0x05C, 32, .hw, 0⟩, ⟨0x060, 32, .rw, 0⟩, ⟨0x064, 32, .w1c, 0⟩,
   ⟨0x068, 64, .rw, 0⟩, ⟨0x070, 4, .rw, 0⟩, ⟨0x074, 32, .hw, 0⟩, ⟨0x078, 32, .rw, 0⟩, ⟨0x07C, 32, .w1c, 0⟩,
   ⟨0x080, 64, .wo, 0⟩, ⟨0x088, 64, .wo, 0⟩]

/-- R408: the fault block. -/
def faultRegs : List CtlReg :=
  [⟨0x000, 64, .rw, 0⟩, ⟨0x008, 4, .rw, 0⟩, ⟨0x00C, 32, .hw, 0⟩, ⟨0x010, 32, .rw, 0⟩, ⟨0x014, 32, .w1c, 0⟩,
   ⟨0x018, 64, .rw, 0⟩, ⟨0x020, 4, .rw, 0⟩, ⟨0x024, 32, .hw, 0⟩, ⟨0x028, 32, .rw, 0⟩, ⟨0x02C, 32, .w1c, 0⟩] ++
  (List.range 5).map fun i => ⟨0x100 + 8 * i, 64, .w1c, 0⟩

/-- R413: the partition block; NBR and MIL hold the quarter alone until a configuration says otherwise (R437). -/
def partRegs (q : Nat) : List CtlReg :=
  [⟨0x000, 64, .rw, 2 ^ q⟩, ⟨0x008, 64, .rw, 2 ^ q⟩, ⟨0x010, 64, .rw, 0⟩, ⟨0x040, 24, .hw, 2500000⟩,
   ⟨0x044, 24, .rw, 2500000⟩, ⟨0x048, 24, .rw, 0⟩, ⟨0x050, 32, .wo, 0⟩, ⟨0x054, 32, .w1c, 0⟩, ⟨0x058, 64, .hw, 0⟩,
   ⟨0x060, 64, .rw, 0⟩, ⟨0x068, 64, .hw, 0⟩]

/-- The registers of a block of quarter q. -/
def ctlRegs (b : CtlBlock) (q : Nat) : List CtlReg :=
  match b with
  | .sched => schedRegs
  | .xlate => xlateRegs
  | .fault => faultRegs
  | .part => partRegs q

/-- The key of a register in State.ctl. -/
def ctlKey (b : CtlBlock) (off : Nat) : Nat :=
  match b with
  | .sched => off
  | .xlate => 0x1000 + off
  | .fault => 0x2000 + off
  | .part => 0x3000 + off

/-- The reset value of a control register. -/
def ctlReset (b : CtlBlock) (q off : Nat) : Nat :=
  match (ctlRegs b q).find? (fun r => r.off == off) with
  | some r => r.reset
  | none => 0

/-- The value of a control register. -/
def creg (s : State) (q : Nat) (b : CtlBlock) (off : Nat) : Nat :=
  sget (ctlReset b q off) (sget [] s.ctl q) (ctlKey b off)

/-- The state with a control register changed. -/
def setCreg (s : State) (q : Nat) (b : CtlBlock) (off v : Nat) : State :=
  { s with ctl := sins s.ctl q (sins (sget [] s.ctl q) (ctlKey b off) v) }

/-! ### Partitions -/

/-- R45: the quarter of a package core. -/
def quarterOf (core : Nat) : Nat := core / 288

/-- R413: the quarters of a quarter's partition. -/
def qset (s : State) (q : Nat) : Nat := creg s q .part 0x000 % 16

/-- R371, R414: the lowest quarter of a quarter's partition, whose blocks govern it. -/
def leadOf (s : State) (q : Nat) : Nat :=
  match (List.range 4).find? (fun i => bitAt (qset s q) i) with
  | some i => i
  | none => q

/-- The quarter whose blocks govern a core. -/
def leadCore (s : State) (core : Nat) : Nat := leadOf s (quarterOf core)

/-- R415: two quarters lie in one partition. -/
def sameQuarter (s : State) (q p : Nat) : Bool := bitAt (qset s q) p

/-- R415: a core number that the partition of quarter q reaches. -/
def coreReached (s : State) (q core : Nat) : Bool := decide (core < 1152) && sameQuarter s q (quarterOf core)

/-- R371: a duty of the partition's MODE register is host-assisted. -/
def modeBit (s : State) (q i : Nat) : Bool := bitAt (creg s q .sched 0x020) i

/-- R416: the home slice of an intermediate page in the partition of quarter q. -/
def homeSlice (s : State) (q ia : Nat) : Nat :=
  let p := ia / 2 ^ 16
  let mil := creg s q .part 0x008
  let qs := (List.range 4).filter fun i => bitAt mil i
  let h := (p % 256) ^^^ (fld p 15 8) ^^^ (fld p 23 16) ^^^ (fld p 31 24) ^^^ (fld p 39 32) ^^^ (fld mil 15 8)
  let i := h % (64 * qs.length)
  64 * qs.getD (i / 64) 0 + i % 64

/-! ### Windows -/

/-- R57: the window an intermediate address lies in, with what it names there. -/
inductive Window where
  | scratch (core off : Nat)
  | mcast (cluster off : Nat)
  | slice (n off : Nat)
  | ctl (b : CtlBlock) (q off : Nat)
  | notify (queue off : Nat)
  | memory
  | cxl
  | none
deriving DecidableEq, Repr

/-- R57, R58: the window of an intermediate address issued by a core. -/
def windowOf (core ia : Nat) : Window :=
  if ia < 0x200000 then .scratch core ia
  else if 0x100000000 ≤ ia ∧ ia < 0x300000000 then
    .scratch ((ia - 0x100000000) / 0x200000) ((ia - 0x100000000) % 0x200000)
  else if 0x400000000 ≤ ia ∧ ia < 0x420000000 then
    .mcast ((ia - 0x400000000) / 0x200000) ((ia - 0x400000000) % 0x200000)
  else if 0x800000000 ≤ ia ∧ ia < 0x804000000 then
    .slice ((ia - 0x800000000) / 0x40000) ((ia - 0x800000000) % 0x40000)
  else if 0x900000000 ≤ ia ∧ ia < 0x900004000 then .ctl .sched ((ia - 0x900000000) / 0x1000) (ia % 0x1000)
  else if 0xA00000000 ≤ ia ∧ ia < 0xB00000000 then
    .notify ((ia - 0xA00000000) / 0x10000) (ia % 0x10000)
  else if 0xB00000000 ≤ ia ∧ ia < 0xB00004000 then .ctl .xlate ((ia - 0xB00000000) / 0x1000) (ia % 0x1000)
  else if 0xC00000000 ≤ ia ∧ ia < 0xC00004000 then .ctl .fault ((ia - 0xC00000000) / 0x1000) (ia % 0x1000)
  else if 0xD00000000 ≤ ia ∧ ia < 0xD00004000 then .ctl .part ((ia - 0xD00000000) / 0x1000) (ia % 0x1000)
  else if 0x1000000000000 ≤ ia ∧ ia < 0x80000000000000 then .memory
  else if 0x80000000000000 ≤ ia ∧ ia < 2 ^ 56 then .cxl
  else .none

/-- R59, R415, R428: a byte of a window is one that the context of quarter q at privilege level pl may reach. -/
def windowOk (s : State) (q pl : Nat) (w : Window) : Bool :=
  match w with
  | .scratch core off => coreReached s q core && decide (off < spSize s core)
  | .mcast k _ => decide (k < 144) && sameQuarter s q (k / 36)
  | .slice n _ => decide (1 ≤ pl) && decide (n < 256) && sameQuarter s q (n / 64)
  | .ctl .part _ _ => decide (2 ≤ pl)
  | .ctl _ p _ => decide (2 ≤ pl) || (decide (1 ≤ pl) && sameQuarter s q p)
  | .notify _ _ | .memory | .cxl => true
  | .none => false

/-- R59: the bytes from one intermediate address to another, issued by a core at privilege level pl, lie in one window, where they may be
read. -/
def blockOk (s : State) (core pl a b : Nat) : Bool :=
  decide (a ≤ b) &&
  match windowOf core a, windowOf core b with
  | .scratch c _, .scratch c' o => c == c' && decide (b - a < 0x200000) && windowOk s (quarterOf core) pl (.scratch c o)
  | .slice n _, .slice n' o => n == n' && windowOk s (quarterOf core) pl (.slice n o)
  | .ctl k q _, .ctl k' q' o => k == k' && q == q' && windowOk s (quarterOf core) pl (.ctl k q o)
  | .notify .., .notify .. | .memory, .memory | .memory, .cxl | .cxl, .cxl => true
  | _, _ => false

end Sys2Proof.Machine
end

