-- ==== Sys2Proof/Machine/Xlate.lean ====
section
/-!
DEFINITION. Address translation: range registers (R56, R386, R387), page walks (R388, R389, R391, R392), the services of the
translation home (R394, R395), host-assisted requests (R398), and the records of the device's rings (R408, R441).
-/

namespace Sys2Proof.Machine

/-! ### Range registers -/

/-- R387: the register is valid and encloses the virtual address. -/
def rangeHolds (r : RangeReg) (va : Nat) : Bool :=
  let w0 := r.w0.toNat
  let w1 := r.w1.toNat
  let base := w0 / 2 ^ 16 * 2 ^ 16
  bitAt w0 0 && decide (base ≤ va) && decide (va < base + (fld w1 23 0 + 1) * 2 ^ 16)

/-- R56: the lowest-numbered register that encloses the address. -/
def rangeFind (c : Ctx) (va : Nat) : Option RangeReg :=
  ((List.range 16).map fun i => sget {} c.rregs i).find? fun r => rangeHolds r va

/-- R387: the intermediate address of a virtual address under a register. -/
def rangeMap (r : RangeReg) (va : Nat) : Nat :=
  r.w1.toNat / 2 ^ 24 * 2 ^ 16 + (va - r.w0.toNat / 2 ^ 16 * 2 ^ 16)

/-- R387, R358: the words RNGW and a context image may not hold. -/
def rangeRefused (w0 w1 : Nat) : Bool :=
  bitAt w0 0 && (fld w0 15 4 != 0
    || decide (2 ^ 64 < w0 / 2 ^ 16 * 2 ^ 16 + (fld w1 23 0 + 1) * 2 ^ 16)
    || decide (2 ^ 40 < w1 / 2 ^ 24 + fld w1 23 0 + 1))

/-- R6, R387: a range register that takes two words: the reserved field of word 0 reads zero. -/
def rangeReg (w0 w1 : Word) : RangeReg := ⟨BitVec.ofNat 64 (setFld w0.toNat 15 4 0), w1⟩

/-- What an access needs of a page or a range register. -/
inductive Perm where
  | read | write | both | exec
deriving DecidableEq, Repr

/-- R56: the register grants the access. -/
def rangeGrants (r : RangeReg) (p : Perm) : Bool :=
  let w := r.w0.toNat
  match p with
  | .read => bitAt w 1
  | .write => bitAt w 2
  | .both => bitAt w 1 && bitAt w 2
  | .exec => bitAt w 3

/-- An address as a check leaves it: an intermediate address, or a trap code with the addresses its record names. -/
inductive AddrCheck where
  | ok (ia : Nat)
  | trap (code : Nat) (va ia : Nat)
deriving DecidableEq, Repr

/-- R56, R216: n bytes from a virtual address on lie in one range register that grants the access. -/
def rangeCheck (c : Ctx) (va n : Nat) (p : Perm) : AddrCheck :=
  match rangeFind c va with
  | none => .trap 0x09 va 0
  | some r =>
    if va + (n - 1) < 2 ^ 64 ∧ rangeHolds r (va + (n - 1)) then
      (if rangeGrants r p then .ok (rangeMap r va) else .trap 0x0A va (rangeMap r va))
    else .trap 0x09 va 0

/-! ### Page tables -/

/-- R415: a frame is populated and lies in the partition of quarter q. -/
def frameOk (s : State) (q pfn : Nat) : Bool :=
  let dev := pfn / 2 ^ 34
  if dev = 0 then
    fld pfn 33 24 == 0 && sameQuarter s q (fld pfn 23 22) && decide (fld pfn 21 0 < 2929664)
  else sameQuarter s q dev

/-- R388, R415: the frames of a leaf of a level are populated and lie in the partition: a middle leaf's are 8,192. -/
def leafOk (s : State) (q level pfn : Nat) : Bool := frameOk s q pfn && (level != 1 || frameOk s q (pfn + 8191))

/-- R389: an entry of a level (0 top, 1 middle, 2 bottom) is malformed. -/
def pteMalformed (s : State) (q level e : Nat) : Bool :=
  let v := bitAt e 0
  let l := bitAt e 1
  fld e 15 13 != 0 || fld e 55 52 != 0
    || (v && !l && fld e 15 2 != 0)
    || (l && level == 0) || (v && !l && level == 2)
    || (v && l && level == 1 && fld e 28 16 != 0)
    || fld e 11 10 == 3 || (bitAt e 3 && bitAt e 2)
    || (v && l && !leafOk s q level (fld e 51 16))

/-- What a walk finds: a leaf with the physical address of its entry, a quarantined leaf (R319), an untouched zero-fill entry, or
a failure with the cause of R398. -/
inductive WalkEnd where
  | leaf (entry e : Nat) (huge : Bool)
  | quarantined (entry e : Nat) (huge : Bool)
  | zeroFill (entry e : Nat)
  | fail (cause : Nat)
deriving DecidableEq, Repr

/-- R389: what one entry of a level says: the walk's end, or the next table. -/
def walkEntry (s : State) (q level entry : Nat) : WalkEnd ⊕ Nat :=
  let e := paNum s entry 8
  if pteMalformed s q level e then .inl (.fail 5)
  else if !bitAt e 0 then
    (if level = 2 ∧ bitAt e 9 then .inl (.zeroFill entry e) else .inl (.fail 4))
  else if bitAt e 1 then (if bitAt e 8 then .inl (.quarantined entry e (level == 1)) else .inl (.leaf entry e (level == 1)))
  else .inr (fld e 51 16 * 2 ^ 16)

/-- R388: the walk of a page from the top table. -/
def walkFrom (s : State) (q root ia : Nat) : WalkEnd :=
  match walkEntry s q 0 (root + 8 * fld ia 55 42) with
  | .inl w => w
  | .inr mid =>
    match walkEntry s q 1 (mid + 8 * fld ia 41 29) with
    | .inl w => w
    | .inr bot =>
      match walkEntry s q 2 (bot + 8 * fld ia 28 16) with
      | .inl w => w
      | .inr _ => .fail 5

/-- R386: the bytes that memory lists of an address-space entry, by offset. -/
def asnEntry (s : State) (q asn : Nat) : Sparse Byte :=
  let a := paAddr (creg s q .xlate 0x000 + 512 * asn)
  (s.mem.filter fun c => decide (a ≤ c.1) && decide (c.1 < a + 512)).map fun c => (c.1 - a, c.2)

/-- A little-endian number of an address-space entry. -/
def entryNum (e : Sparse Byte) (o n : Nat) : Nat := ofBytes ((List.range n).map fun i => sget unwritten e (o + i))

/-- R6, R386, R387: an address-space entry with a reserved field that is not zero, or a valid register with one. -/
def asnMalformed (e : Sparse Byte) : Bool :=
  let w := entryNum e 0 8
  fld w 16 1 != 0 || fld w 63 52 != 0 || e.any (fun c => decide (8 ≤ c.1) && decide (c.1 < 0x100) && c.2 != 0) ||
  (List.range 16).any fun i => let w := entryNum e (0x100 + 16 * i) 2; bitAt w 0 && fld w 15 4 != 0

/-- R386: an ASN at or above ASTN, or one whose entry has V = 0. -/
def asnAbsent (s : State) (q asn : Nat) : Bool :=
  decide (creg s q .xlate 0x008 ≤ asn) || !bitAt (paNum s (creg s q .xlate 0x000 + 512 * asn) 1) 0

/-- R386: the top table of an ASN, if its address-space entry is valid and well formed. -/
def asnRoot (s : State) (q asn : Nat) : Option Nat :=
  let e := asnEntry s q asn
  if asnAbsent s q asn || asnMalformed e then none else some (fld (entryNum e 0 8) 51 17 * 2 ^ 17)

/-- R386: the range registers an address space gives a task at its start. -/
def asnRanges (s : State) (q asn : Nat) : Sparse RangeReg :=
  let e := asnEntry s q asn
  (List.range 16).map fun i =>
    (i, rangeReg (BitVec.ofNat 64 (entryNum e (0x100 + 16 * i) 8)) (BitVec.ofNat 64 (entryNum e (0x108 + 16 * i) 8)))

/-- R388: the walk of a page in an address space. -/
def walk (s : State) (q asn ia : Nat) : WalkEnd :=
  match asnRoot s q asn with
  | some root => walkFrom s q root ia
  | none => .fail 4

/-- R388: the physical address a leaf gives. -/
def leafPa (e : Nat) (huge : Bool) (ia : Nat) : Nat :=
  if huge then fld e 51 29 * 2 ^ 29 + ia % 2 ^ 29 else fld e 51 16 * 2 ^ 16 + ia % 2 ^ 16

/-! ### Frames -/

/-- R385: pop the HBM (or expander) free-frame stack. -/
def popFrame (s : State) (q : Nat) (hbm : Bool) : Option (Nat × State) :=
  let (b, o) := if hbm then (0x020, 0x030) else (0x028, 0x034)
  let n := creg s q .xlate o
  if n = 0 then none
  else some (fld (paNum s (creg s q .xlate b + 8 * (n - 1)) 8) 35 0, setCreg s q .xlate o (n - 1))

/-- R385: push a frame on the stack of its device. -/
def pushFrame (s : State) (q pfn : Nat) : State :=
  let (b, o) := if pfn / 2 ^ 34 = 0 then (0x020, 0x030) else (0x028, 0x034)
  let n := creg s q .xlate o
  setCreg (paPut s (creg s q .xlate b + 8 * n) 8 pfn) q .xlate o (n + 1)

/-- R395: the share count of a frame. -/
def frameCount (s : State) (q pfn : Nat) : Nat := paNum s (creg s q .xlate 0x010 + 4 * pfn) 2

/-- R6, R395: the frame table's entry of a frame has a reserved bit. -/
def frameBad (s : State) (q pfn : Nat) : Bool :=
  decide (pfn < creg s q .xlate 0x018) && paNum s (creg s q .xlate 0x010 + 4 * pfn) 4 / 2 ^ 16 != 0

/-- R395: the state with a frame's share count changed. -/
def setFrameCount (s : State) (q pfn n : Nat) : State := paPut s (creg s q .xlate 0x010 + 4 * pfn) 2 n

/-- R395: lower a frame's count by 1, pushing the frame where it reaches 0. -/
def dropFrame (s : State) (q pfn : Nat) : State :=
  let n := frameCount s q pfn
  let s := setFrameCount s q pfn (n - 1)
  if n ≤ 1 then pushFrame s q pfn else s

/-- The bytes of a 64 KiB frame that are not zero, with their offsets. -/
def frameBytes (m : List Host.Cell) (pfn : Nat) : List Host.Cell :=
  (m.filter fun (a, _) => decide (paAddr (pfn * 2 ^ 16) ≤ a) && decide (a < paAddr (pfn * 2 ^ 16) + 2 ^ 16)).map
    fun (a, b) => (a - paAddr (pfn * 2 ^ 16), b)

/-- The state with a 64 KiB frame reading zero. -/
def zeroFrame (s : State) (pfn : Nat) : State :=
  { s with resv := [], mem := s.mem.filter fun (a, _) =>
      !(decide (paAddr (pfn * 2 ^ 16) ≤ a) && decide (a < paAddr (pfn * 2 ^ 16) + 2 ^ 16)) }

/-- The state with one 64 KiB frame's bytes copied over another's. -/
def copyFrame (s : State) (src dst : Nat) : State :=
  (frameBytes s.mem src).foldl (fun s (o, b) => mput s (paAddr (dst * 2 ^ 16) + o) b) (zeroFrame s dst)

/-! ### Translation caches and service -/

/-- R391: what a translation cache holds for a page. -/
def tlbFind (s : State) (q asn ia : Nat) : Option TlbEntry :=
  s.tlb.find? fun t => t.q == q && t.asn == asn && t.page == ia / 2 ^ 16

/-- R391: the state with a page's leaf cached. -/
def tlbFill (s : State) (q asn ia leaf entry : Nat) (huge : Bool) : State :=
  { s with tlb := ⟨q, asn, ia / 2 ^ 16, leaf, entry, huge, homeSlice s q ia⟩ ::
      s.tlb.filter fun t => !(t.q == q && t.asn == asn && t.page == ia / 2 ^ 16) }

/-- R398: the place of the entry of a leaf that system software installed, which stands in no table. -/
def noEntry : Nat := 2 ^ 52

/-- R390, R391: the device changes the leaf of a page: in its table, where it stands in one, and in every cached copy, through whatever address
space. -/
def leafPut (s : State) (q page entry e : Nat) : State :=
  let s := if entry = noEntry then s else paPut s entry 8 e
  { s with tlb := s.tlb.map fun t =>
      if t.q == q && (t.page == page || (entry != noEntry && t.entry == entry)) then { t with leaf := e } else t }

/-- R392, R395: a CAS of the device on a leaf finds it as it was read. -/
def casHolds (s : State) (entry e : Nat) : Bool := entry == noEntry || paNum s entry 8 == e

/-- R394: the cause for which a leaf that stands in a cache needs service before any access, if there is one: system software may have
installed any value. -/
def leafCause (s : State) (q e : Nat) : Option Nat :=
  if pteMalformed s q 2 e then some 5
  else if !bitAt e 0 then some (if bitAt e 9 then 1 else 4)
  else if bitAt e 8 then some 6
  else none

/-- R398: a leaf that the cache of a page's home is known to hold: one that system software installed, or any while no table is walked. -/
def heldLeaf (s : State) (q asn ia : Nat) : Option TlbEntry :=
  (tlbFind s q asn ia).filter fun t => modeBit s q 1 || t.entry == noEntry

/-- R398: the home of a page has no leaf of it and may walk no table. -/
def unheld (s : State) (q asn ia : Nat) : Bool := modeBit s q 1 && (heldLeaf s q asn ia).isNone

/-- R394: what a leaf that stands in a cache says, as a walk that ends at it would. -/
def heldEnd (s : State) (q : Nat) (t : TlbEntry) : WalkEnd :=
  match leafCause s q t.leaf with
  | some 6 => .quarantined t.entry t.leaf t.huge
  | some 1 => .zeroFill t.entry t.leaf
  | some c => .fail c
  | none => .leaf t.entry t.leaf t.huge

/-- R388, R391, R398: what a page's home finds of it: the leaf its cache is known to hold, or what a walk finds where it walks. -/
def pageWalk (s : State) (q asn ia : Nat) : WalkEnd :=
  match heldLeaf s q asn ia with
  | some t => heldEnd s q t
  | none => if modeBit s q 1 then .fail 4 else walk s q asn ia

/-- What a translation answers: a physical address, an address space that has no valid entry (R386), a failed service, or a wait for
system software. -/
inductive PageEnd where
  | ok (pa : Nat) (leaf : Nat)
  | range
  | protection
  | pageFault
  | wait
deriving DecidableEq, Repr

/-- R392: a walker sets a bit of an entry by a CAS that compares the whole entry as read. -/
def pteSet (s : State) (entry e bit : Nat) : State × Nat :=
  if entry ≠ noEntry ∧ paNum s entry 8 = e ∧ !bitAt e bit then (paPut s entry 8 (setBit e bit true), setBit e bit true) else (s, e)

/-- R394, R395: a leaf as an access finds it, served by the translation home where MODE.FAULT is 0; a write that a migration of the page
holds back (R396) is served once PI is clear.  DESIGN CHOICE (log 42): a malformed entry of the frame table (R6) fails the service. -/
def serveLeaf (s : State) (q page entry e : Nat) (huge write : Bool) : State × Option Nat × PageEnd :=
  if write && !bitAt e 2 then
    if !bitAt e 3 then (s, none, .protection)
    else if huge then (s, none, .pageFault)
    else if bitAt e 12 then (s, none, .wait)
    else
      let f := fld e 51 16
      if creg s q .xlate 0x018 ≤ f ∨ frameBad s q f then (s, none, .pageFault)
      else if frameCount s q f = 1 then
        let e' := setBit (setBit e 2 true) 3 false
        (leafPut s q page entry e', some e', .ok 0 e')
      else
        match popFrame s q true with
        | none => (s, none, .pageFault)
        | some (g, s) =>
          let s := setFrameCount (copyFrame s f g) q g 1
          let e' := setFld (setBit (setBit (setFld e 51 16 g) 2 true) 3 false) 11 10 0
          (dropFrame (leafPut s q page entry e') q f, some e', .ok 0 e')
  else (s, some e, .ok 0 e)

/-- R394: first touch of a zero-fill entry: V, L, W and A set, the frame's number, TIER 0, ZF clear; the other bits of
the entry stay (DEDUCED, log 21). -/
def serveZero (s : State) (q page entry e : Nat) : State × Option Nat × PageEnd :=
  match popFrame s q true with
  | none => (s, none, .pageFault)
  | some (g, s) =>
    let e' := setFld (setFld (setFld (setFld (setFld e 2 0 7) 5 5 1) 9 9 0) 11 10 0) 51 16 g
    (leafPut (setFrameCount (zeroFrame s g) q g 1) q page entry e', some e', .ok 0 e')

/-- R392: the A and D bits that a walker leaves in a leaf it has found. -/
def leafBits (s : State) (q entry e : Nat) (dirty : Bool) : State × Nat :=
  let (s, e) := if modeBit s q 1 then (s, e) else pteSet s entry e 5
  if dirty && !modeBit s q 1 then pteSet s entry e 4 else (s, e)

/-- R391, R396: a leaf after its service: it is cached, unless a migration of the page holds the access back. -/
def leafFound (q asn ia : Nat) (write dirty : Bool) (entry : Nat) (huge : Bool) : State × Option Nat × PageEnd → State × PageEnd
  | (s, some e, _) =>
    if write && bitAt e 12 then (s, .wait)
    else
      let (s, e) := leafBits s q entry e dirty
      if s.fenced.contains (fld (leafPa e huge ia) 51 16) then (s, .pageFault)
      else (tlbFill s q asn ia e entry huge, .ok (leafPa e huge ia) e)
  | (s, none, p) => (s, p)

/-- R394 to R396: a page whose walk has ended here: its service, and the A and D bits that walkers leave (R392); dirty says that the access
writes, and not only that it needs the right to (R225). -/
def resolveFrom (s : State) (q asn ia : Nat) (write dirty : Bool) (w : WalkEnd) : State × PageEnd :=
  match w with
  | .fail _ | .quarantined .. => (s, .pageFault)
  | .zeroFill entry e => leafFound q asn ia write dirty entry false (serveZero s q (ia / 2 ^ 16) entry e)
  | .leaf entry e huge => leafFound q asn ia write dirty entry huge (serveLeaf s q (ia / 2 ^ 16) entry e huge write)

/-! ### Rings -/

/-- R441: a little-endian number at an intermediate address of the system address space, whose page has been found before; 0 where
it cannot be. -/
def sysNum (s : State) (q ia n : Nat) : Nat :=
  match pageWalk s q 0 ia with
  | .leaf _ e huge => paNum s (leafPa e huge ia) n
  | _ => 0

/-- The registers of one of a quarter's rings: block, base, size code, write index, read index, overflow count. -/
structure RingRegs where
  blk : CtlBlock
  base : Nat
  n : Nat
  wi : Nat
  ri : Nat
  ovf : Nat
deriving DecidableEq, Repr

/-- R408: the trap ring. -/
def trapRing : RingRegs := ⟨.fault, 0x000, 0x008, 0x00C, 0x010, 0x014⟩

/-- R408: the engine fault ring. -/
def efRing : RingRegs := ⟨.fault, 0x018, 0x020, 0x024, 0x028, 0x02C⟩

/-- R371: the host event ring. -/
def hostRing : RingRegs := ⟨.sched, 0x048, 0x050, 0x068, 0x06C, 0x070⟩

/-- R385: the tier-event ring. -/
def tierRing : RingRegs := ⟨.xlate, 0x050, 0x058, 0x05C, 0x060, 0x064⟩

/-- R385: the translation request ring. -/
def xlateRing : RingRegs := ⟨.xlate, 0x068, 0x070, 0x074, 0x078, 0x07C⟩

/-- R408: the ring has room for a record. -/
def ringHasRoom (s : State) (q : Nat) (r : RingRegs) : Bool :=
  decide ((creg s q r.blk r.wi + 2 ^ 32 - creg s q r.blk r.ri) % 2 ^ 32 < 2 ^ creg s q r.blk r.n)

/-- R408: the intermediate address of the next record of n bytes of a ring. -/
def ringNext (s : State) (q : Nat) (r : RingRegs) (n : Nat) : Nat :=
  creg s q r.blk r.base + creg s q r.blk r.wi % 2 ^ creg s q r.blk r.n * n

/-- R441: bytes written to a page that has been found; false where it has not. -/
def putFound (bs : List Byte) : State × PageEnd → State × Bool
  | (s, .ok pa _) => (mputs s (paAddr pa) bs, true)
  | (s, _) => (s, false)

/-- R408, R441: a ring of quarter q after a record: the write index rises, or the record is dropped and counted. -/
def ringEnd (q : Nat) (r : RingRegs) : State × Bool → State
  | (s, true) => setCreg s q r.blk r.wi ((creg s q r.blk r.wi + 1) % 2 ^ 32)
  | (s, false) => setCreg s q r.blk r.ovf ((creg s q r.blk r.ovf + 1) % 2 ^ 32)

/-- R398: the record of a translation request. -/
def xreqRecord (x : XReq) : List Byte :=
  toBytes 32 (x.ev + x.cause * 2 ^ 8 + x.acc * 2 ^ 16 + x.asn * 2 ^ 32 + x.id % 2 ^ 16 * 2 ^ 48 + x.page * 2 ^ 16 * 2 ^ 64)

/-- R395: a first touch, or a write through a leaf that is copied on write, needs a frame and none is free: CAUSE 7 (DEDUCED, log 41); else CAUSE c. -/
def frameCause (s : State) (q c : Nat) : Nat := if creg s q .xlate 0x030 = 0 then 7 else c

/-- R394, R398: the cause a walk's end or a leaf gives a service, if the access needs one. -/
def serviceCause (s : State) (q : Nat) (w : WalkEnd) (write : Bool) : Option Nat :=
  match w with
  | .fail c => some c
  | .quarantined .. => some 6
  | .zeroFill _ _ => some (frameCause s q 1)
  | .leaf _ e huge =>
    if write && !bitAt e 2 then
      (if !bitAt e 3 then some 3
      else if huge || frameCount s q (fld e 51 16) = 1 then some 2
      else some (frameCause s q 2))
    else none

/-- R396: a migration of the page of a leaf holds writes back. -/
def leafMoving (w : WalkEnd) : Bool :=
  match w with
  | .leaf _ e _ => bitAt e 12 && (bitAt e 2 || bitAt e 3)
  | _ => false

/-- R391, R394, R441: the page that a record of the translation request ring goes to.  DESIGN CHOICE (log 41): the device finds and serves it
itself in every mode, since a request for it would have to be written to that same page. -/
def ringPage (s : State) (q ia : Nat) : State × PageEnd :=
  let w := if unheld s q 0 ia then walk s q 0 ia else pageWalk s q 0 ia
  if leafMoving w then (s, .wait) else resolveFrom s q 0 ia true true w

/-- R391: a walk or a service of the page is with system software. -/
def asked (s : State) (q ia : Nat) : Bool := s.xreqs.any fun x => x.quarter == q && x.page == ia / 2 ^ 16

/-- R398: a request for a page: it is outstanding, and held back until its record is written. -/
def newAsk (s : State) (q ev cause acc asn ia : Nat) : State :=
  { s with nextId := s.nextId + 1
           xreqs := s.xreqs ++ [{ id := s.nextId, quarter := q, ev, cause, acc, asn, page := ia / 2 ^ 16 }] }

/-- R398: write the oldest request held back, where the ring has room, and no migration of its page holds the write back. -/
def postHeld (s : State) (q : Nat) : State :=
  match s.xreqs.find? (fun x => x.quarter == q && !x.posted) with
  | some x =>
    if ringHasRoom s q xlateRing then
      match ringPage s (leadOf s q) (ringNext s q xlateRing 32) with
      | (_, .wait) => s
      | r =>
        let s := ringEnd q xlateRing (putFound (xreqRecord x) r)
        { s with xreqs := s.xreqs.map fun y => if y.id == x.id then { y with posted := true } else y }
    else s
  | none => s

/-- R391, R398: ask system software for a walk or a service; a request for the page that is outstanding is joined, through whatever address
space; an answer of fail meets every access that joined. -/
def askSoftware (s : State) (q ev cause acc asn ia : Nat) : State × PageEnd :=
  match s.xreqs.find? (fun x => x.quarter == q && x.page == ia / 2 ^ 16) with
  | some x =>
    if x.failed.isSome then (s, if cause = 3 then .protection else .pageFault)
    else
      let join (y : XReq) : XReq := if y.id == x.id && y.asn != asn && !y.joined.contains asn then { y with joined := y.joined ++ [asn] } else y
      (postHeld { s with xreqs := s.xreqs.map join } q, .wait)
  | none =>
    let s := newAsk s q ev cause acc asn ia
    if ringHasRoom s q xlateRing then (postHeld s q, .wait)
    else (setCreg s q .xlate 0x07C ((creg s q .xlate 0x07C + 1) % 2 ^ 32), .wait)

/-- R371, R394, R398: a page whose walk has ended here is served by the translation home, or, in host-assisted mode and while its page is with
system software already, by system software. -/
def serveOr (s : State) (q asn ia acc : Nat) (write dirty : Bool) (w : WalkEnd) : State × PageEnd :=
  match serviceCause s q w write with
  | some c =>
    if write && leafMoving w then (s, .wait)
    else if modeBit s q 2 || asked s q ia then askSoftware s q 2 c acc asn ia
    else resolveFrom s q asn ia write dirty w
  | none => resolveFrom s q asn ia write dirty w

/-- R371, R391, R398: the page is walked, or system software is asked for its walk. -/
def walkPage (s : State) (q asn ia acc : Nat) (write dirty : Bool) : State × PageEnd :=
  if modeBit s q 1 || asked s q ia then askSoftware s q 1 0 acc asn ia else serveOr s q asn ia acc write dirty (walk s q asn ia)

/-- R391, R398: the leaf that the translation cache of the page's home gives an access. How long the cache keeps a leaf it read from a
table is open; a leaf that system software installed stays, and so does every leaf where no table is walked. -/
def cachedLeaf (s : State) (q asn ia : Nat) : Option TlbEntry :=
  (tlbFind s q asn ia).filter fun t => Config.tlbHolds s.fresh ia || modeBit s q 1 || t.entry == noEntry

/-- R392, R394, R398: an access through a cached leaf: its service, whose CAS compares the leaf, or the page's walk where that fails; the
setting of D before its first write. -/
def throughLeaf (s : State) (q asn ia acc : Nat) (write dirty : Bool) (t : TlbEntry) : State × PageEnd :=
  if (serviceCause s q (heldEnd s q t) write).isSome then
    (if !casHolds s t.entry t.leaf then walkPage s q asn ia acc write dirty
    else serveOr s q asn ia acc write dirty (heldEnd s q t))
  else if write && bitAt t.leaf 12 then (s, .wait)
  else if dirty && !bitAt t.leaf 4 then
    if modeBit s q 1 || asked s q ia then askSoftware s q 3 0 acc asn ia
    else serveOr s q asn ia acc write dirty (walk s q asn ia)
  else if s.fenced.contains (fld (leafPa t.leaf t.huge ia) 51 16) then (s, .pageFault)
  else (s, .ok (leafPa t.leaf t.huge ia) t.leaf)

/-- R386, R391, R394, R398: the physical address of an access to a paged window: none in an absent address space; from the translation cache, by the walker and
the service of the translation home, or by asking system software, whose record names the access: 0 read, 1 write, 2 execute. -/
def resolveAcc (s : State) (q asn ia acc : Nat) (write dirty : Bool) : State × PageEnd :=
  let cached := cachedLeaf s q asn ia
  let s := { s with fresh := s.fresh + 1 }
  if asnAbsent s q asn then (s, .range)
  else match cached with
  | some t => throughLeaf s q asn ia acc write dirty t
  | none => walkPage s q asn ia acc write dirty

/-- R391: the physical address of a read or write of a paged window; dirty says that it writes. -/
def resolveAs (s : State) (q asn ia : Nat) (write dirty : Bool) : State × PageEnd := resolveAcc s q asn ia write.toNat write dirty

/-- R391: the physical address of a plain read or write of a paged window. -/
def resolvePage (s : State) (q asn ia : Nat) (write : Bool) : State × PageEnd := resolveAs s q asn ia write write

/-! ### The system address space -/

/-- R391, R398: a page that the step in hand needs; where it must be waited for, the step is to be done again. -/
def needPage (s : State) (q asn ia : Nat) (write : Bool) : State × PageEnd :=
  match resolvePage s q asn ia write with
  | (_, .wait) => ({ s with asks := s.asks ++ [⟨q, asn, ia, write⟩] }, .wait)
  | r => r

/-- R441: an access to the system address space. -/
def sysResolve (s : State) (q ia : Nat) (write : Bool) : State × PageEnd := needPage s q 0 ia write

/-- R441: a page of the system address space that a step looks at: found, with the service it needs; false where it cannot be. -/
def sysFind (s : State) (q ia : Nat) : State × Bool :=
  match sysResolve s q ia false with
  | (s, .ok ..) => (s, true)
  | (s, _) => (s, false)

/-- R441: a page of the system address space can be looked at as it stands. -/
def sysSeen (s : State) (q ia : Nat) : Bool := match pageWalk s q 0 ia with | .leaf .. => true | _ => false

/-- R441: bytes written through the system address space; false where a page cannot be found. -/
def sysWrite (s : State) (q ia : Nat) (bs : List Byte) : State × Bool := putFound bs (sysResolve s q ia true)

/-- R441: a look at the page of an address of the system address space. -/
def sysAsk (q ia : Nat) : List PageAsk := [⟨q, 0, ia, false⟩]

/-- R398, R441: the pages that a step looks at are found, with the service they need; those that must be waited for are answered. -/
def findPages : List PageAsk → State → State × List PageAsk
  | [], s => (s, [])
  | a :: as, s =>
    match resolvePage s a.q a.asn a.ia a.write with
    | (s, .wait) => (findPages as s).map id (a :: ·)
    | (s, _) => findPages as s

/-- R408, R429, R441: append a record to a ring of quarter q, whose page the system address space of its partition finds; a full ring, or
one whose page cannot be found, drops the record and counts it. -/
def ringAppend (s : State) (q : Nat) (r : RingRegs) (rec : List Byte) : State :=
  ringEnd q r (if ringHasRoom s q r then sysWrite s (leadOf s q) (ringNext s q r rec.length) rec else (s, false))

/-- R319: a page's leaf, quarantined or not, with the physical address the intermediate address has. -/
def anyLeaf (s : State) (q asn ia : Nat) : Option (Nat × Nat) :=
  match pageWalk s q asn ia with
  | .leaf _ e huge | .quarantined _ e huge => some (e, leafPa e huge ia)
  | _ => none

/-- R228, R322: the page's leaf as a look-up finds it, without any service. -/
def lookLeaf (s : State) (q asn ia : Nat) : Option Nat :=
  match pageWalk s q asn ia with
  | .leaf _ e _ => some e
  | _ => none

end Sys2Proof.Machine
end

