-- ==== Sys2Proof/Machine/L1.lean ====
section
/-!
DEFINITION. The L1 data caches (R60, R61): which lines of the memory and CXL tier windows a core's L1 holds.  The bytes stand in memory:
hardware keeps every L1 coherent.
-/

namespace Sys2Proof.Machine

/-- R60: the set of an intermediate address: bits 13:8. -/
def l1Set (ia : Nat) : Nat := fld ia 13 8

/-- R60: the line of an intermediate address within its superblock, as a bit of a mask. -/
def l1Line (ia : Nat) : Nat := 2 ^ fld ia 7 6

/-- R60: the ways of a set, as places among the 512 tags. -/
def l1Ways (ia : Nat) : List Nat := (List.range 8).map fun i => 8 * l1Set ia + i

/-- R60: the tag that holds the superblock of an intermediate address. -/
def l1Find (tags : Sparse L1Tag) (ia : Nat) : Option Nat := (l1Ways ia).find? fun i => tags.any fun p => p.1 == i && p.2.block == ia / 256

/-- R60: a place for a new tag: the lowest empty way, or the one the replacement takes. -/
def l1Place (s : State) (tags : Sparse L1Tag) (ia : Nat) : State × Nat :=
  match (l1Ways ia).find? fun i => !(tags.any fun p => p.1 == i) with
  | some i => (s, i)
  | none => ({ s with fresh := s.fresh + 1 }, 8 * l1Set ia + Config.pick s.fresh % 8)

/-- R61: the line of another core's L1 after an access: a write takes the line away, a read leaves it clean. -/
def l1Other (ia : Nat) (wr : Bool) (tags : Sparse L1Tag) : Sparse L1Tag :=
  (tags.map fun (i, t) => if t.block = ia / 256 then
      (i, { t with valid := if wr then t.valid &&& (15 - l1Line ia) else t.valid, dirty := t.dirty &&& (15 - l1Line ia) })
    else (i, t)).filter fun p => p.2.valid != 0

/-- R60, R61: a core's L1 takes a line of a page with this leaf: the line is filled, a tag allocated where there is none; where it is
taken for its own, no other core of the partition holds it. -/
def l1Take (s : State) (core leaf ia : Nat) (own dirty : Bool) : State :=
  if bitAt leaf 6 then s
  else
    let s := { s with l1 := s.l1.map fun (c, tags) =>
      if c ≠ core ∧ sameQuarter s (quarterOf core) (quarterOf c) then (c, l1Other ia own tags) else (c, tags) }
    let tags := sget [] s.l1 core
    let line := l1Line ia
    match l1Find tags ia with
    | some i =>
      { s with l1 := sins s.l1 core (tags.map fun (j, t) => if j = i then (j, { t with valid := t.valid ||| line, dirty := if dirty then t.dirty ||| line else t.dirty }) else (j, t)) }
    | none =>
      let (s, i) := l1Place s tags ia
      { s with l1 := sins s.l1 core (sins tags i ⟨ia / 256, line, if dirty then line else 0⟩) }

/-- R60, R61: an access of a core to a line of a page with this leaf. -/
def l1Access (s : State) (core leaf ia : Nat) (wr : Bool) : State := l1Take s core leaf ia wr wr

/-- R60, R217, R398: a byte that a load of a core binds at an intermediate address. -/
def l1Load (s : State) (core asn ia : Nat) : State :=
  match windowOf core ia with
  | .memory | .cxl =>
    match lookLeaf s (leadCore s core) asn ia with
    | some leaf => l1Access s core leaf ia false
    | none => s
  | _ => s

/-- R419, R432: the L1 lines of a quarter's cores are written back and dropped. -/
def l1Flush (s : State) (q : Nat) : State := { s with l1 := s.l1.filter fun p => quarterOf p.1 != q }

end Sys2Proof.Machine
end

