-- ==== Sys2Proof/WellFormed.lean ====
section
/-!
DEFINITION. When a slot instruction is one the encoding admits: R107 (register classes), R108 (limits) and the limits
each instruction's description gives.  The limits that the partition word sets (R41) are in Machine/Operands.lean.
-/

namespace Sys2Proof

/-- R171: bits of an element. -/
def ElemWidth.bits : ElemWidth → Nat
  | .i32 => 32
  | .i16 => 16
  | .i8 => 8

/-- R224: the float operations of the atomics. -/
def AtomOp.isFloat : AtomOp → Bool
  | .fadd | .fmin | .fmax => true
  | _ => false

/-- R191: the lane formats of the conversions. -/
def Fmt.isLane : Fmt → Bool
  | .b32 | .b16 | .bf16 | .i8 | .i16 | .i32 | .t8 | .t6 => true
  | _ => false

/-- R199: the codes FMT of an MMA may hold; code 0 is "bank". -/
def Fmt.isOperandCode : Fmt → Bool
  | .raw | .b64 | .b32 | .b16 | .bf16 | .t8 | .t6 => true
  | _ => false

/-- R169: the pairs FCVT converts: codes 0x1 to 0xA, and bx8 only to bx8. -/
def fcvtPair (src dst : Fmt) : Bool :=
  (src == .bx8 && dst == .bx8) || (src != .raw && src != .bx8 && dst != .raw && dst != .bx8)

/-- R192: the parts a packed format has in one vector register. -/
def packPart (f : Fmt) (part : Nat) : Bool :=
  match f with
  | .b16 | .bf16 | .i16 => decide (part < 2)
  | .i8 | .t8 | .t6 => decide (part < 4)
  | _ => false

/-- R107, R109 and the instruction descriptions: every field of a slot instruction lies within its class and limits.
The steps of agents carry no encoded field. -/
def wf : Instr → Bool
  | .brr a _ => decide (a < 64)
  | .call a _ => decide (a < 64)
  | .callr a b _ => decide (a < 64) && decide (b < 64)
  | .ret a => decide (a < 64)
  | .btab a b _ => decide (a < 64) && decide (b < 64)
  | .beq a b _ => decide (a < 64) && decide (b < 64)
  | .bne a b _ => decide (a < 64) && decide (b < 64)
  | .blt a b _ => decide (a < 64) && decide (b < 64)
  | .bge a b _ => decide (a < 64) && decide (b < 64)
  | .bltu a b _ => decide (a < 64) && decide (b < 64)
  | .bgeu a b _ => decide (a < 64) && decide (b < 64)
  | .loopn n bl => decide (n < 4) && decide (bl < 16)
  | .loopx n => decide (n < 4)
  | .waitG a b _ => decide (a < 64) && decide (b < 64)
  | .waitT a _ => decide (a < 64)
  | .xabort d a _ => decide (d < 64) && decide (a < 64)
  | .trap a _ => decide (a < 64)
  | .rngr d a _ => decide (d < 64) && decide (a < 64)
  | .rngw a b c => decide (a < 64) && decide (b < 64) && decide (c < 64)
  | .ppwset a => decide (a < 64)
  | .ctxsave a b _ => decide (a < 64) && decide (b < 64)
  | .ctxload a b _ _ => decide (a < 64) && decide (b < 64)
  | .shoot a b c all => decide (a < 64) && decide (b < 64) && decide (c < 64) && (!all || c == 0)
  | .wdset a _ _ => decide (a < 64)
  | .add d a b => decide (d < 64) && decide (a < 64) && decide (b < 64)
  | .sub d a b => decide (d < 64) && decide (a < 64) && decide (b < 64)
  | .and d a b => decide (d < 64) && decide (a < 64) && decide (b < 64)
  | .or d a b => decide (d < 64) && decide (a < 64) && decide (b < 64)
  | .xor d a b => decide (d < 64) && decide (a < 64) && decide (b < 64)
  | .andn d a b => decide (d < 64) && decide (a < 64) && decide (b < 64)
  | .shl d a b => decide (d < 64) && decide (a < 64) && decide (b < 64)
  | .shr d a b => decide (d < 64) && decide (a < 64) && decide (b < 64)
  | .sra d a b => decide (d < 64) && decide (a < 64) && decide (b < 64)
  | .rol d a b => decide (d < 64) && decide (a < 64) && decide (b < 64)
  | .ror d a b => decide (d < 64) && decide (a < 64) && decide (b < 64)
  | .min d a b => decide (d < 64) && decide (a < 64) && decide (b < 64)
  | .max d a b => decide (d < 64) && decide (a < 64) && decide (b < 64)
  | .minu d a b => decide (d < 64) && decide (a < 64) && decide (b < 64)
  | .maxu d a b => decide (d < 64) && decide (a < 64) && decide (b < 64)
  | .clz d a => decide (d < 64) && decide (a < 64)
  | .ctz d a => decide (d < 64) && decide (a < 64)
  | .popc d a => decide (d < 64) && decide (a < 64)
  | .bswap d a => decide (d < 64) && decide (a < 64)
  | .sext d a p => decide (d < 64) && decide (a < 64) && decide (p < 63)
  | .zext d a p => decide (d < 64) && decide (a < 64) && decide (p < 63)
  | .bfx d a b _ => decide (d < 64) && decide (a < 64) && decide (b < 64)
  | .bfi d a b c => decide (d < 64) && decide (a < 64) && decide (b < 64) && decide (c < 64)
  | .cmp d a b _ => decide (d < 16) && decide (a < 64) && decide (b < 64)
  | .sel d a b c => decide (d < 64) && decide (a < 64) && decide (b < 64) && decide (c < 16)
  | .lea d a b sh => decide (d < 64) && decide (a < 64) && decide (b < 64) && decide (sh < 64)
  | .fland d a b _ => decide (d < 16) && decide (a < 16) && decide (b < 16)
  | .flor d a b _ => decide (d < 16) && decide (a < 16) && decide (b < 16)
  | .flxor d a b _ => decide (d < 16) && decide (a < 16) && decide (b < 16)
  | .addi d a _ => decide (d < 64) && decide (a < 64)
  | .andi d a _ => decide (d < 64) && decide (a < 64)
  | .ori d a _ => decide (d < 64) && decide (a < 64)
  | .xori d a _ => decide (d < 64) && decide (a < 64)
  | .shli d a imm => decide (d < 64) && decide (a < 64) && decide (imm.toNat < 64)
  | .shri d a imm => decide (d < 64) && decide (a < 64) && decide (imm.toNat < 64)
  | .srai d a imm => decide (d < 64) && decide (a < 64) && decide (imm.toNat < 64)
  | .cmpi d a _ _ => decide (d < 16) && decide (a < 64)
  | .movi d _ => decide (d < 64)
  | .movhi d _ => decide (d < 64)
  | .mul d a b => decide (d < 64) && decide (a < 64) && decide (b < 64)
  | .mulh d a b => decide (d < 64) && decide (a < 64) && decide (b < 64)
  | .mulhu d a b => decide (d < 64) && decide (a < 64) && decide (b < 64)
  | .rdsp d _ => decide (d < 64)
  | .lcrd d a => decide (d < 64) && decide (a < 6)
  | .lcwr d a => decide (d < 6) && decide (a < 64)
  | .nrd d a w => decide (d < 64) && decide (a < 4) && decide (w < 16)
  | .nwr d a w => decide (d < 4) && decide (a < 64) && decide (w < 16)
  | .fadd d a b _ => decide (d < 64) && decide (a < 64) && decide (b < 64)
  | .fsub d a b _ => decide (d < 64) && decide (a < 64) && decide (b < 64)
  | .fmul d a b _ => decide (d < 64) && decide (a < 64) && decide (b < 64)
  | .fmin d a b _ => decide (d < 64) && decide (a < 64) && decide (b < 64)
  | .fmax d a b _ => decide (d < 64) && decide (a < 64) && decide (b < 64)
  | .fcpys d a b _ => decide (d < 64) && decide (a < 64) && decide (b < 64)
  | .fma d a b c _ => decide (d < 64) && decide (a < 64) && decide (b < 64) && decide (c < 64)
  | .fms d a b c _ => decide (d < 64) && decide (a < 64) && decide (b < 64) && decide (c < 64)
  | .fnma d a b c _ => decide (d < 64) && decide (a < 64) && decide (b < 64) && decide (c < 64)
  | .fabs d a _ => decide (d < 64) && decide (a < 64)
  | .fneg d a _ => decide (d < 64) && decide (a < 64)
  | .fclass d a _ => decide (d < 64) && decide (a < 64)
  | .fsqrt d a _ => decide (d < 64) && decide (a < 64)
  | .frcp d a _ => decide (d < 64) && decide (a < 64)
  | .frsq d a _ => decide (d < 64) && decide (a < 64)
  | .fcmp d a b _ _ => decide (d < 16) && decide (a < 64) && decide (b < 64)
  | .fcvt d a dst src => decide (d < 64) && decide (a < 64) && fcvtPair src dst
  | .ftoi d a _ _ _ => decide (d < 64) && decide (a < 64)
  | .itof d a _ _ => decide (d < 64) && decide (a < 64)
  | .frnd d a _ _ => decide (d < 64) && decide (a < 64)
  | .sysr d _ => decide (d < 64)
  | .sysw a _ => decide (a < 64)
  | .vadd d a b k _ => decide (d < 64) && decide (a < 64) && decide (b < 64) && decide (k < 8)
  | .vsub d a b k _ => decide (d < 64) && decide (a < 64) && decide (b < 64) && decide (k < 8)
  | .vmul d a b k _ => decide (d < 64) && decide (a < 64) && decide (b < 64) && decide (k < 8)
  | .vmulh d a b k _ _ => decide (d < 64) && decide (a < 64) && decide (b < 64) && decide (k < 8)
  | .vand d a b k _ => decide (d < 64) && decide (a < 64) && decide (b < 64) && decide (k < 8)
  | .vor d a b k _ => decide (d < 64) && decide (a < 64) && decide (b < 64) && decide (k < 8)
  | .vxor d a b k _ => decide (d < 64) && decide (a < 64) && decide (b < 64) && decide (k < 8)
  | .vshl d a b k _ => decide (d < 64) && decide (a < 64) && decide (b < 64) && decide (k < 8)
  | .vshr d a b k _ => decide (d < 64) && decide (a < 64) && decide (b < 64) && decide (k < 8)
  | .vsra d a b k _ => decide (d < 64) && decide (a < 64) && decide (b < 64) && decide (k < 8)
  | .vmin d a b k _ => decide (d < 64) && decide (a < 64) && decide (b < 64) && decide (k < 8)
  | .vmax d a b k _ => decide (d < 64) && decide (a < 64) && decide (b < 64) && decide (k < 8)
  | .vminu d a b k _ => decide (d < 64) && decide (a < 64) && decide (b < 64) && decide (k < 8)
  | .vmaxu d a b k _ => decide (d < 64) && decide (a < 64) && decide (b < 64) && decide (k < 8)
  | .vabs d a k _ => decide (d < 64) && decide (a < 64) && decide (k < 8)
  | .vadds d a b k _ _ => decide (d < 64) && decide (a < 64) && decide (b < 64) && decide (k < 8)
  | .vsubs d a b k _ _ => decide (d < 64) && decide (a < 64) && decide (b < 64) && decide (k < 8)
  | .vaddi d a k _ _ => decide (d < 64) && decide (a < 64) && decide (k < 8)
  | .vshli d a k w imm => decide (d < 64) && decide (a < 64) && decide (k < 8) && decide (imm.toNat < w.bits)
  | .vshri d a k w imm => decide (d < 64) && decide (a < 64) && decide (k < 8) && decide (imm.toNat < w.bits)
  | .vsrai d a k w imm => decide (d < 64) && decide (a < 64) && decide (k < 8) && decide (imm.toNat < w.bits)
  | .vmovi d k _ _ => decide (d < 64) && decide (k < 8)
  | .vbcast d a k _ => decide (d < 64) && decide (a < 64) && decide (k < 8)
  | .vfadd d a b k => decide (d < 64) && decide (a < 64) && decide (b < 64) && decide (k < 8)
  | .vfsub d a b k => decide (d < 64) && decide (a < 64) && decide (b < 64) && decide (k < 8)
  | .vfmul d a b k => decide (d < 64) && decide (a < 64) && decide (b < 64) && decide (k < 8)
  | .vfmin d a b k => decide (d < 64) && decide (a < 64) && decide (b < 64) && decide (k < 8)
  | .vfmax d a b k => decide (d < 64) && decide (a < 64) && decide (b < 64) && decide (k < 8)
  | .vfma d a b c k => decide (d < 64) && decide (a < 64) && decide (b < 64) && decide (c < 64) && decide (k < 8)
  | .vfms d a b c k => decide (d < 64) && decide (a < 64) && decide (b < 64) && decide (c < 64) && decide (k < 8)
  | .vfabs d a k => decide (d < 64) && decide (a < 64) && decide (k < 8)
  | .vfneg d a k => decide (d < 64) && decide (a < 64) && decide (k < 8)
  | .vfrcp d a k => decide (d < 64) && decide (a < 64) && decide (k < 8)
  | .vfrsq d a k => decide (d < 64) && decide (a < 64) && decide (k < 8)
  | .vfexp d a k => decide (d < 64) && decide (a < 64) && decide (k < 8)
  | .vcvt d a k dst src => decide (d < 64) && decide (a < 64) && decide (k < 8) && src.isLane && dst.isLane
  | .vpack d a k _ part dst => decide (d < 64) && decide (a < 64) && decide (k < 8) && decide (part < 4) && packPart dst part
  | .vunpk d a k part src => decide (d < 64) && decide (a < 64) && decide (k < 8) && decide (part < 4) && (packPart src part || src == .bx8)
  | .vcmp d a b k _ => decide (d < 8) && decide (a < 64) && decide (b < 64) && decide (k < 8)
  | .vfcmp d a b k _ => decide (d < 8) && decide (a < 64) && decide (b < 64) && decide (k < 8)
  | .vnf d a k _ => decide (d < 8) && decide (a < 64) && decide (k < 8)
  | .vnfq d a b k _ _ => decide (d < 8) && decide (a < 64) && decide (b < 64) && decide (k < 8)
  | .mand d a b _ => decide (d < 8) && decide (a < 8) && decide (b < 8)
  | .mor d a b _ => decide (d < 8) && decide (a < 8) && decide (b < 8)
  | .mxor d a b _ => decide (d < 8) && decide (a < 8) && decide (b < 8)
  | .mnot d a => decide (d < 8) && decide (a < 8)
  | .mpop d a k => decide (d < 64) && decide (a < 8) && decide (k < 8)
  | .many d a k _ => decide (d < 16) && decide (a < 8) && decide (k < 8)
  | .vperm d a b k => decide (d < 64) && decide (a < 64) && decide (b < 64) && decide (k < 8)
  | .vshuf d a b k pat => decide (d < 64) && decide (a < 64) && decide (b < 64) && decide (k < 8) && (pat != .rev || b == 0)
  | .vrot d a b k _ => decide (d < 64) && decide (a < 64) && decide (b < 64) && decide (k < 8)
  | .vsel d a b c k => decide (d < 64) && decide (a < 64) && decide (b < 64) && decide (c < 8) && decide (k < 8)
  | .vext d a b _ => decide (d < 64) && decide (a < 64) && decide (b < 64)
  | .vins d a b => decide (d < 64) && decide (a < 64) && decide (b < 64)
  | .vradd d a k _ _ => decide (d < 64) && decide (a < 64) && decide (k < 8)
  | .vrmin d a k _ _ => decide (d < 64) && decide (a < 64) && decide (k < 8)
  | .vrmax d a k _ _ => decide (d < 64) && decide (a < 64) && decide (k < 8)
  | .vrfadd d a k _ => decide (d < 64) && decide (a < 64) && decide (k < 8)
  | .vrfmin d a k => decide (d < 64) && decide (a < 64) && decide (k < 8)
  | .vrfmax d a k => decide (d < 64) && decide (a < 64) && decide (k < 8)
  | .mma q aa as ba bs fmt kb _ _ _ => decide (q < 16) && decide (aa < 64) && decide (as < 64) && decide (ba < 64) && decide (bs < 64) && decide (kb < 64) && fmt.isOperandCode && (fmt != .b64 || q % 2 == 0)
  | .scx d a => decide (d < 16) && decide (a < 64)
  | .mdrn a b c p _ fmt => decide (a < 16) && decide (b < 64) && decide (c < 64) && (fmt != .bx8) && (!p || a % 2 == 0)
  | .mdrnb d a b c p _ fmt => decide (d < 64) && decide (a < 16) && decide (b < 64) && decide (c < 64) && (fmt != .bx8) && (!p || a % 2 == 0)
  | .mzero d p => decide (d < 16) && (!p || d % 2 == 0)
  | .mmov d a p => decide (d < 16) && decide (a < 16) && (!p || (d % 2 == 0 && a % 2 == 0))
  | .mtrn d a p => decide (d < 16) && decide (a < 16) && (!p || (d % 2 == 0 && a % 2 == 0))
  | .mwrv d a k h => decide (d < 16) && decide (a < 64) && decide (k < 8) && decide (h < 16)
  | .mrdv d a k h => decide (d < 64) && decide (a < 16) && decide (k < 8) && decide (h < 16)
  | .mpset a => decide (a < 64)
  | .mcset a => decide (a < 64)
  | .mrpwr a => decide (a < 64)
  | .msrd d _ => decide (d < 64)
  | .mqwait a all => decide (a < 16) && (!all || a == 0)
  | .ld t a _ _ _ => decide (t < 64) && decide (a < 64)
  | .ldx d a b _ _ => decide (d < 64) && decide (a < 64) && decide (b < 64)
  | .st t a sz _ _ => decide (t < 64) && decide (a < 64) && decide (sz < 4)
  | .stx d a b _ sz => decide (d < 64) && decide (a < 64) && decide (b < 64) && decide (sz < 4)
  | .sti d a _ sz _ => decide (d < 64) && decide (a < 64) && decide (sz < 4)
  | .vld t a k _ _ => decide (t < 64) && decide (a < 64) && decide (k < 8)
  | .vst t a k _ _ => decide (t < 64) && decide (a < 64) && decide (k < 8)
  | .vlds d a b k _ => decide (d < 64) && decide (a < 64) && decide (b < 64) && decide (k < 8)
  | .vsts d a b k _ => decide (d < 64) && decide (a < 64) && decide (b < 64) && decide (k < 8)
  | .vgth d a b k _ sh => decide (d < 64) && decide (a < 64) && decide (b < 64) && decide (k < 8) && decide (sh < 4)
  | .vsct d a b k _ sh => decide (d < 64) && decide (a < 64) && decide (b < 64) && decide (k < 8) && decide (sh < 4)
  | .vldb t a k sz _ _ => decide (t < 64) && decide (a < 64) && decide (k < 8) && (sz != .d && sz != .s32)
  | .qld t a p _ _ => decide (t < 16) && decide (a < 64) && (!p || t % 2 == 0)
  | .qst t a p _ _ => decide (t < 16) && decide (a < 64) && (!p || t % 2 == 0)
  | .amo d a b _ _ sz op => decide (d < 64) && decide (a < 64) && decide (b < 64) && decide (sz < 4) && (!op.isFloat || 2 ≤ sz)
  | .cas d a b c _ sz _ => decide (d < 64) && decide (a < 64) && decide (b < 64) && decide (c < 64) && decide (sz < 4)
  | .vamo d a b _ k _ x _ => decide (d < 64) && decide (a < 64) && decide (b < 64) && decide (k < 8) && (x || b == 0)
  | .ald t a _ _ ord _ => decide (t < 64) && decide (a < 64) && (ord == .rlx || ord == .acq)
  | .xlat t a _ _ => decide (t < 64) && decide (a < 64)
  | .mcast t a k _ => decide (t < 64) && decide (a < 64) && decide (k < 8)
  | .bfmt a _ _ => decide (a < 64)
  | .ldt t a _ f _ => decide (t < 64) && decide (a < 64) && decide (f < 16)
  | .vldt t a k f _ => decide (t < 64) && decide (a < 64) && decide (k < 8) && decide (f < 16)
  | .note a _ _ => decide (a < 64)
  | .pull a b _ _ => decide (a < 64) && decide (b < 64)
  | .pullRank b _ => decide (b < 64)
  | .pulladd a b _ _ => decide (a < 64) && decide (b < 64)
  | .decl b => decide (b < 64)
  | .wdraw b => decide (b < 64)
  | .nbrd d a w => decide (d < 64) && decide (a < 64) && decide (w < 5)
  | .nbcnt d _ => decide (d < 64)
  | .nbfind d a b any => decide (d < 64) && decide (a < 64) && decide (b < 64) && (!any || b == 0)
  | .pwinSet a b => decide (a < 64) && decide (b < 64)
  | .rkset a => decide (a < 64)
  | .ngrpNew d a b => decide (d < 64) && decide (a < 64) && decide (b < 64)
  | .ngrpFree d a => decide (d < 64) && decide (a < 64)
  | .rcont a b _ => decide (a < 64) && decide (b < 64)
  | .rroot a b _ => decide (a < 64) && decide (b < 64)
  | .agload a b _ => decide (a < 64) && decide (b < 64)
  | .agrel a => decide (a < 64)
  | .agrun a b _ => decide (a < 64) && decide (b < 64)
  | .agwait b => decide (b < 64)
  | .rget d a b _ => decide (d < 64) && decide (a < 64) && decide (b < 64)
  | .rput d a b _ _ => decide (d < 64) && decide (a < 64) && decide (b < 64)
  | .rflush b _ => decide (b < 64)
  | .xstat d _ => decide (d < 64)
  | .ckey a b _ => decide (a < 64) && decide (b < 64)
  | .copy a b _ _ _ n => decide (a < 64) && decide (b < 64) && decide (n < 4)
  | .copyc a b _ _ n => decide (a < 64) && decide (b < 64) && decide (n < 4)
  | .spawn d a b ar => decide (d < 64) && decide (a < 64) && decide (b < 64) && (ar || b == 0)
  | .fref d a => decide (d < 64) && decide (a < 64)
  | .fdrop d a => decide (d < 64) && decide (a < 64)
  | .fset d a => decide (d < 64) && decide (a < 64)
  | .fstat d a => decide (d < 64) && decide (a < 64)
  | .fawait d a c => decide (d < 64) && decide (a < 64) && decide (c < 16)
  | .ssnap d a b => decide (d < 64) && decide (a < 64) && decide (b < 64)
  | .sroll d a b => decide (d < 64) && decide (a < 64) && decide (b < 64)
  | .sfork d a b => decide (d < 64) && decide (a < 64) && decide (b < 64)
  | .sld d a b _ => decide (d < 64) && decide (a < 64) && decide (b < 64)
  | .sst d a b _ => decide (d < 64) && decide (a < 64) && decide (b < 64)
  | .sdrop d a b sq => decide (d < 64) && decide (a < 64) && decide (b < 64) && (!sq || b == 0)
  | .kvst d a _ => decide (d < 64) && decide (a < 64)
  | .kvnx d b => decide (d < 64) && decide (b < 64)
  | .kvnxEnd d b => decide (d < 64) && decide (b < 64)
  | .hmsg d a b _ _ => decide (d < 64) && decide (a < 64) && decide (b < 64)
  | .swset d a b _ g => decide (d < 64) && decide (a < 64) && decide (b < 64) && (g || d == 0)
  | .swadd a b _ => decide (a < 64) && decide (b < 64)
  | .swrd d a _ _ => decide (d < 64) && decide (a < 64)
  | .rtwr d a => decide (d < 16) && decide (a < 64)
  | .rtrd d a => decide (d < 64) && decide (a < 16)
  | .rtarm a => decide (a < 64)
  | .qmap a b => decide (a < 64) && decide (b < 64)
  | .qunmap b => decide (b < 64)
  | .qkick b => decide (b < 64)
  | _ => true

end Sys2Proof
end

