-- ==== Sys2Proof/Decode.lean ====
section
/-!
DEFINITION. Decoding and encoding of one slot (R104 to R110, R121 to R127).  The operand field of a form is a list of
fields, most significant first; `split` and `join` are the one place where fields are cut and laid.
-/

namespace Sys2Proof

/-- The fields of a value, most significant first, by their widths. -/
def split : List Nat → Nat → List Nat
  | [], _ => []
  | w :: ws, x => x / 2 ^ ws.sum % 2 ^ w :: split ws (x % 2 ^ ws.sum)

/-- The value of a list of fields (width and value), most significant first. -/
def join : List (Nat × Nat) → Nat
  | [] => 0
  | (_, v) :: fs => v * 2 ^ (fs.map Prod.fst).sum + join fs

/-- The code of a ElemWidth in its field. -/
def ElemWidth.code : ElemWidth → Nat
  | .i32 => 0
  | .i16 => 1
  | .i8 => 2

/-- The ElemWidth a field holds, if it holds one. -/
def ElemWidth.ofCode : Nat → Option ElemWidth
  | 0 => some .i32
  | 1 => some .i16
  | 2 => some .i8
  | _ => none

@[simp] theorem ElemWidth.ofCode_code (x : ElemWidth) : ElemWidth.ofCode x.code = some x := by cases x <;> rfl

/-- The code of a Cond in its field. -/
def Cond.code : Cond → Nat
  | .eq => 0
  | .ne => 1
  | .lt => 2
  | .ge => 3
  | .ltu => 4
  | .geu => 5
  | .tst => 6
  | .ntst => 7

/-- The Cond a field holds, if it holds one. -/
def Cond.ofCode : Nat → Option Cond
  | 0 => some .eq
  | 1 => some .ne
  | 2 => some .lt
  | 3 => some .ge
  | 4 => some .ltu
  | 5 => some .geu
  | 6 => some .tst
  | 7 => some .ntst
  | _ => none

@[simp] theorem Cond.ofCode_code (x : Cond) : Cond.ofCode x.code = some x := by cases x <;> rfl

/-- The code of a FCond in its field. -/
def FCond.code : FCond → Nat
  | .eq => 0
  | .lt => 1
  | .le => 2
  | .un => 3
  | .ne => 4

/-- The FCond a field holds, if it holds one. -/
def FCond.ofCode : Nat → Option FCond
  | 0 => some .eq
  | 1 => some .lt
  | 2 => some .le
  | 3 => some .un
  | 4 => some .ne
  | _ => none

@[simp] theorem FCond.ofCode_code (x : FCond) : FCond.ofCode x.code = some x := by cases x <;> rfl

/-- The code of a FFmt in its field. -/
def FFmt.code : FFmt → Nat
  | .b64 => 0
  | .b32 => 1

/-- The FFmt a field holds, if it holds one. -/
def FFmt.ofCode : Nat → Option FFmt
  | 0 => some .b64
  | 1 => some .b32
  | _ => none

@[simp] theorem FFmt.ofCode_code (x : FFmt) : FFmt.ofCode x.code = some x := by cases x <;> rfl

/-- The code of a RMode in its field. -/
def RMode.code : RMode → Nat
  | .rne => 0
  | .rz => 1
  | .dn => 2
  | .up => 3

/-- The RMode a field holds, if it holds one. -/
def RMode.ofCode : Nat → Option RMode
  | 0 => some .rne
  | 1 => some .rz
  | 2 => some .dn
  | 3 => some .up
  | _ => none

@[simp] theorem RMode.ofCode_code (x : RMode) : RMode.ofCode x.code = some x := by cases x <;> rfl

/-- The code of a Fmt in its field. -/
def Fmt.code : Fmt → Nat
  | .raw => 0
  | .b64 => 1
  | .b32 => 2
  | .b16 => 3
  | .bf16 => 4
  | .i8 => 5
  | .i16 => 6
  | .i32 => 7
  | .i64 => 8
  | .t8 => 9
  | .t6 => 10
  | .bx8 => 11

/-- The Fmt a field holds, if it holds one. -/
def Fmt.ofCode : Nat → Option Fmt
  | 0 => some .raw
  | 1 => some .b64
  | 2 => some .b32
  | 3 => some .b16
  | 4 => some .bf16
  | 5 => some .i8
  | 6 => some .i16
  | 7 => some .i32
  | 8 => some .i64
  | 9 => some .t8
  | 10 => some .t6
  | 11 => some .bx8
  | _ => none

@[simp] theorem Fmt.ofCode_code (x : Fmt) : Fmt.ofCode x.code = some x := by cases x <;> rfl

/-- The code of a NfTest in its field. -/
def NfTest.code : NfTest → Nat
  | .nf => 0
  | .nan => 1
  | .inf => 2

/-- The NfTest a field holds, if it holds one. -/
def NfTest.ofCode : Nat → Option NfTest
  | 0 => some .nf
  | 1 => some .nan
  | 2 => some .inf
  | _ => none

@[simp] theorem NfTest.ofCode_code (x : NfTest) : NfTest.ofCode x.code = some x := by cases x <;> rfl

/-- The code of a Shuf in its field. -/
def Shuf.code : Shuf → Nat
  | .ziplo => 0
  | .ziphi => 1
  | .even => 2
  | .odd => 3
  | .rev => 4

/-- The Shuf a field holds, if it holds one. -/
def Shuf.ofCode : Nat → Option Shuf
  | 0 => some .ziplo
  | 1 => some .ziphi
  | 2 => some .even
  | 3 => some .odd
  | 4 => some .rev
  | _ => none

@[simp] theorem Shuf.ofCode_code (x : Shuf) : Shuf.ofCode x.code = some x := by cases x <;> rfl

/-- The code of a MSize in its field. -/
def MSize.code : MSize → Nat
  | .u8 => 0
  | .u16 => 1
  | .u32 => 2
  | .d => 3
  | .s8 => 4
  | .s16 => 5
  | .s32 => 6

/-- The MSize a field holds, if it holds one. -/
def MSize.ofCode : Nat → Option MSize
  | 0 => some .u8
  | 1 => some .u16
  | 2 => some .u32
  | 3 => some .d
  | 4 => some .s8
  | 5 => some .s16
  | 6 => some .s32
  | _ => none

@[simp] theorem MSize.ofCode_code (x : MSize) : MSize.ofCode x.code = some x := by cases x <;> rfl

/-- The code of a AtomOp in its field. -/
def AtomOp.code : AtomOp → Nat
  | .swap => 0
  | .add => 1
  | .and => 2
  | .or => 3
  | .xor => 4
  | .min => 5
  | .max => 6
  | .minu => 7
  | .maxu => 8
  | .fadd => 9
  | .fmin => 10
  | .fmax => 11

/-- The AtomOp a field holds, if it holds one. -/
def AtomOp.ofCode : Nat → Option AtomOp
  | 0 => some .swap
  | 1 => some .add
  | 2 => some .and
  | 3 => some .or
  | 4 => some .xor
  | 5 => some .min
  | 6 => some .max
  | 7 => some .minu
  | 8 => some .maxu
  | 9 => some .fadd
  | 10 => some .fmin
  | 11 => some .fmax
  | _ => none

@[simp] theorem AtomOp.ofCode_code (x : AtomOp) : AtomOp.ofCode x.code = some x := by cases x <;> rfl

/-- The code of a MOrder in its field. -/
def MOrder.code : MOrder → Nat
  | .rlx => 0
  | .acq => 1
  | .rel => 2
  | .ar => 3

/-- The MOrder a field holds, if it holds one. -/
def MOrder.ofCode : Nat → Option MOrder
  | 0 => some .rlx
  | 1 => some .acq
  | 2 => some .rel
  | 3 => some .ar
  | _ => none

@[simp] theorem MOrder.ofCode_code (x : MOrder) : MOrder.ofCode x.code = some x := by cases x <;> rfl

/-- The code of a Scope in its field. -/
def Scope.code : Scope → Nat
  | .ctx => 0
  | .core => 1
  | .clu => 2
  | .die => 3
  | .pkg => 4
  | .pod => 5
  | .res6 => 6
  | .res7 => 7

/-- The Scope a field holds, if it holds one. -/
def Scope.ofCode : Nat → Option Scope
  | 0 => some .ctx
  | 1 => some .core
  | 2 => some .clu
  | 3 => some .die
  | 4 => some .pkg
  | 5 => some .pod
  | 6 => some .res6
  | 7 => some .res7
  | _ => none

@[simp] theorem Scope.ofCode_code (x : Scope) : Scope.ofCode x.code = some x := by cases x <;> rfl

/-- The code of a Spr in its field. -/
def Spr.code : Spr → Nat
  | .ppw => 0
  | .cid => 1
  | .cyc => 2
  | .nrg => 3

/-- The Spr a field holds, if it holds one. -/
def Spr.ofCode : Nat → Option Spr
  | 0 => some .ppw
  | 1 => some .cid
  | 2 => some .cyc
  | 3 => some .nrg
  | _ => none

@[simp] theorem Spr.ofCode_code (x : Spr) : Spr.ofCode x.code = some x := by cases x <;> rfl

/-- The code of a MSpr in its field. -/
def MSpr.code : MSpr → Nat
  | .mcfg => 0
  | .mpat => 1
  | .mrp => 2

/-- The MSpr a field holds, if it holds one. -/
def MSpr.ofCode : Nat → Option MSpr
  | 0 => some .mcfg
  | 1 => some .mpat
  | 2 => some .mrp
  | _ => none

@[simp] theorem MSpr.ofCode_code (x : MSpr) : MSpr.ofCode x.code = some x := by cases x <;> rfl

/-- The code of a SysReg in its field. -/
def SysReg.code : SysReg → Nat
  | .plv => 0
  | .tvec => 1
  | .xepc => 2
  | .xepl => 3
  | .trec => 4
  | .asn => 5
  | .lnum => 6
  | .bud => 8
  | .tword => 9
  | .pkg => 16

/-- The SysReg a field holds, if it holds one. -/
def SysReg.ofCode : Nat → Option SysReg
  | 0 => some .plv
  | 1 => some .tvec
  | 2 => some .xepc
  | 3 => some .xepl
  | 4 => some .trec
  | 5 => some .asn
  | 6 => some .lnum
  | 8 => some .bud
  | 9 => some .tword
  | 16 => some .pkg
  | _ => none

@[simp] theorem SysReg.ofCode_code (x : SysReg) : SysReg.ofCode x.code = some x := by cases x <;> rfl

/-- The code of a WdSel in its field. -/
def WdSel.code : WdSel → Nat
  | .cyc => 0
  | .yd => 1
  | .pin => 2

/-- The WdSel a field holds, if it holds one. -/
def WdSel.ofCode : Nat → Option WdSel
  | 0 => some .cyc
  | 1 => some .yd
  | 2 => some .pin
  | _ => none

@[simp] theorem WdSel.ofCode_code (x : WdSel) : WdSel.ofCode x.code = some x := by cases x <;> rfl

/-- The code of a BoardSel in its field. -/
def BoardSel.code : BoardSel → Nat
  | .used => 0
  | .off => 1
  | .elig => 2

/-- The BoardSel a field holds, if it holds one. -/
def BoardSel.ofCode : Nat → Option BoardSel
  | 0 => some .used
  | 1 => some .off
  | 2 => some .elig
  | _ => none

@[simp] theorem BoardSel.ofCode_code (x : BoardSel) : BoardSel.ofCode x.code = some x := by cases x <;> rfl

/-- The code of a XStatSel in its field. -/
def XStatSel.code : XStatSel → Nat
  | .st => 0
  | .clr => 1
  | .cred => 2
  | .win => 3
  | .miss => 4

/-- The XStatSel a field holds, if it holds one. -/
def XStatSel.ofCode : Nat → Option XStatSel
  | 0 => some .st
  | 1 => some .clr
  | 2 => some .cred
  | 3 => some .win
  | 4 => some .miss
  | _ => none

@[simp] theorem XStatSel.ofCode_code (x : XStatSel) : XStatSel.ofCode x.code = some x := by cases x <;> rfl


/-- R121: the opcode map of this slot, on the operand field. -/
def readC (op x : Nat) : Option Instr :=
  match op with
  | 0x01 =>
    match split [12, 25, 14] x with | [0, off, 0] => some (.br (BitVec.ofNat 25 off)) | _ => none
  | 0x02 =>
    match split [6, 6, 25, 14] x with | [a, 0, off, 0] => some (.brr a (BitVec.ofNat 25 off)) | _ => none
  | 0x03 =>
    match split [6, 6, 25, 14] x with | [a, 0, off, 0] => some (.call a (BitVec.ofNat 25 off)) | _ => none
  | 0x04 =>
    match split [6, 6, 25, 14] x with | [a, b, off, 0] => some (.callr a b (BitVec.ofNat 25 off)) | _ => none
  | 0x05 =>
    match split [6, 45] x with | [a, 0] => some (.ret a) | _ => none
  | 0x06 =>
    match split [6, 6, 25, 14] x with | [a, b, off, 0] => some (.btab a b (BitVec.ofNat 25 off)) | _ => none
  | 0x08 =>
    match split [6, 6, 25, 14] x with | [a, b, off, 0] => some (.beq a b (BitVec.ofNat 25 off)) | _ => none
  | 0x09 =>
    match split [6, 6, 25, 14] x with | [a, b, off, 0] => some (.bne a b (BitVec.ofNat 25 off)) | _ => none
  | 0x0a =>
    match split [6, 6, 25, 14] x with | [a, b, off, 0] => some (.blt a b (BitVec.ofNat 25 off)) | _ => none
  | 0x0b =>
    match split [6, 6, 25, 14] x with | [a, b, off, 0] => some (.bge a b (BitVec.ofNat 25 off)) | _ => none
  | 0x0c =>
    match split [6, 6, 25, 14] x with | [a, b, off, 0] => some (.bltu a b (BitVec.ofNat 25 off)) | _ => none
  | 0x0d =>
    match split [6, 6, 25, 14] x with | [a, b, off, 0] => some (.bgeu a b (BitVec.ofNat 25 off)) | _ => none
  | 0x10 =>
    match split [2, 4, 45] x with | [n, bl, 0] => some (.loopn n bl) | _ => none
  | 0x11 =>
    match split [2, 49] x with | [n, 0] => some (.loopx n) | _ => none
  | 0x18 =>
    (match split [6, 6, 6, 17, 16] x with | [0, a, b, sw, 0] => some (.waitG a b (BitVec.ofNat 17 sw)) | _ => none)
    <|> (match split [6, 6, 6, 17, 8, 8] x with | [0, a, 0, sw, 1, 0] => some (.waitT a (BitVec.ofNat 17 sw)) | _ => none)
  | 0x19 =>
    match split [19, 16, 16] x with | [0, entries, 0] => some (.waitr (BitVec.ofNat 16 entries)) | _ => none
  | 0x1a =>
    match split [51] x with | [0] => some .waits | _ => none
  | 0x20 =>
    match split [51] x with | [0] => some .yield | _ => none
  | 0x21 =>
    match split [51] x with | [0] => some .ychk | _ => none
  | 0x22 =>
    match split [51] x with | [0] => some .mark | _ => none
  | 0x23 =>
    match split [6, 6, 7, 32] x with | [d, a, 0, imm] => some (.xabort d a (BitVec.ofNat 32 imm)) | _ => none
  | 0x24 =>
    match split [6, 6, 7, 32] x with | [0, a, 0, imm] => some (.trap a (BitVec.ofNat 32 imm)) | _ => none
  | 0x25 =>
    match split [51] x with | [0] => some .done | _ => none
  | 0x26 =>
    match split [51] x with | [0] => some .isync | _ => none
  | 0xe0 =>
    match split [51] x with | [0] => some .pret | _ => none
  | 0xe1 =>
    match split [6, 6, 22, 1, 16] x with | [d, a, 0, w, 0] => some (.rngr d a (w == 1)) | _ => none
  | 0xe2 =>
    match split [6, 6, 6, 6, 27] x with | [0, a, b, c, 0] => some (.rngw a b c) | _ => none
  | 0xe3 =>
    match split [6, 6, 39] x with | [0, a, 0] => some (.ppwset a) | _ => none
  | 0xe4 =>
    match split [6, 6, 6, 17, 16] x with | [0, a, b, sw, 0] => some (.ctxsave a b (BitVec.ofNat 17 sw)) | _ => none
  | 0xe5 =>
    match split [6, 6, 6, 17, 7, 1, 8] x with | [0, a, b, sw, 0, h, 0] => some (.ctxload a b (BitVec.ofNat 17 sw) (h == 1)) | _ => none
  | 0xe6 =>
    match split [6, 6, 6, 6, 10, 1, 16] x with | [0, a, b, c, 0, all, 0] => some (.shoot a b c (all == 1)) | _ => none
  | 0xe7 =>
    match split [51] x with | [0] => some .halt | _ => none
  | 0xe8 =>
    match split [6, 6, 5, 2, 32] x with | [0, a, 0, sel, imm] => (WdSel.ofCode sel).map fun sel => .wdset a sel (BitVec.ofNat 32 imm) | _ => none
  | _ => none

/-- R122: the opcode map of this slot, on the operand field. -/
def readS (op x : Nat) : Option Instr :=
  match op with
  | 0x01 =>
    match split [6, 6, 6, 33] x with | [d, a, b, 0] => some (.add d a b) | _ => none
  | 0x02 =>
    match split [6, 6, 6, 33] x with | [d, a, b, 0] => some (.sub d a b) | _ => none
  | 0x03 =>
    match split [6, 6, 6, 33] x with | [d, a, b, 0] => some (.and d a b) | _ => none
  | 0x04 =>
    match split [6, 6, 6, 33] x with | [d, a, b, 0] => some (.or d a b) | _ => none
  | 0x05 =>
    match split [6, 6, 6, 33] x with | [d, a, b, 0] => some (.xor d a b) | _ => none
  | 0x06 =>
    match split [6, 6, 6, 33] x with | [d, a, b, 0] => some (.andn d a b) | _ => none
  | 0x07 =>
    match split [6, 6, 6, 33] x with | [d, a, b, 0] => some (.shl d a b) | _ => none
  | 0x08 =>
    match split [6, 6, 6, 33] x with | [d, a, b, 0] => some (.shr d a b) | _ => none
  | 0x09 =>
    match split [6, 6, 6, 33] x with | [d, a, b, 0] => some (.sra d a b) | _ => none
  | 0x0a =>
    match split [6, 6, 6, 33] x with | [d, a, b, 0] => some (.rol d a b) | _ => none
  | 0x0b =>
    match split [6, 6, 6, 33] x with | [d, a, b, 0] => some (.ror d a b) | _ => none
  | 0x0c =>
    match split [6, 6, 6, 33] x with | [d, a, b, 0] => some (.min d a b) | _ => none
  | 0x0d =>
    match split [6, 6, 6, 33] x with | [d, a, b, 0] => some (.max d a b) | _ => none
  | 0x0e =>
    match split [6, 6, 6, 33] x with | [d, a, b, 0] => some (.minu d a b) | _ => none
  | 0x0f =>
    match split [6, 6, 6, 33] x with | [d, a, b, 0] => some (.maxu d a b) | _ => none
  | 0x10 =>
    match split [6, 6, 39] x with | [d, a, 0] => some (.clz d a) | _ => none
  | 0x11 =>
    match split [6, 6, 39] x with | [d, a, 0] => some (.ctz d a) | _ => none
  | 0x12 =>
    match split [6, 6, 39] x with | [d, a, 0] => some (.popc d a) | _ => none
  | 0x13 =>
    match split [6, 6, 39] x with | [d, a, 0] => some (.bswap d a) | _ => none
  | 0x14 =>
    match split [6, 6, 15, 8, 16] x with | [d, a, 0, p, 0] => some (.sext d a p) | _ => none
  | 0x15 =>
    match split [6, 6, 15, 8, 16] x with | [d, a, 0, p, 0] => some (.zext d a p) | _ => none
  | 0x16 =>
    match split [6, 6, 6, 16, 1, 16] x with | [d, a, b, 0, sg, 0] => some (.bfx d a b (sg == 1)) | _ => none
  | 0x17 =>
    match split [6, 6, 6, 6, 27] x with | [d, a, b, c, 0] => some (.bfi d a b c) | _ => none
  | 0x18 =>
    match split [6, 6, 6, 14, 3, 16] x with | [d, a, b, 0, cc, 0] => (Cond.ofCode cc).map fun cc => .cmp d a b cc | _ => none
  | 0x19 =>
    match split [6, 6, 6, 6, 27] x with | [d, a, b, c, 0] => some (.sel d a b c) | _ => none
  | 0x1a =>
    match split [6, 6, 6, 9, 8, 16] x with | [d, a, b, 0, sh, 0] => some (.lea d a b sh) | _ => none
  | 0x1b =>
    match split [6, 6, 6, 16, 1, 16] x with | [d, a, b, 0, inv, 0] => some (.fland d a b (inv == 1)) | _ => none
  | 0x1c =>
    match split [6, 6, 6, 16, 1, 16] x with | [d, a, b, 0, inv, 0] => some (.flor d a b (inv == 1)) | _ => none
  | 0x1d =>
    match split [6, 6, 6, 16, 1, 16] x with | [d, a, b, 0, inv, 0] => some (.flxor d a b (inv == 1)) | _ => none
  | 0x20 =>
    match split [6, 6, 7, 32] x with | [d, a, 0, imm] => some (.addi d a (BitVec.ofNat 32 imm)) | _ => none
  | 0x21 =>
    match split [6, 6, 7, 32] x with | [d, a, 0, imm] => some (.andi d a (BitVec.ofNat 32 imm)) | _ => none
  | 0x22 =>
    match split [6, 6, 7, 32] x with | [d, a, 0, imm] => some (.ori d a (BitVec.ofNat 32 imm)) | _ => none
  | 0x23 =>
    match split [6, 6, 7, 32] x with | [d, a, 0, imm] => some (.xori d a (BitVec.ofNat 32 imm)) | _ => none
  | 0x24 =>
    match split [6, 6, 7, 32] x with | [d, a, 0, imm] => some (.shli d a (BitVec.ofNat 32 imm)) | _ => none
  | 0x25 =>
    match split [6, 6, 7, 32] x with | [d, a, 0, imm] => some (.shri d a (BitVec.ofNat 32 imm)) | _ => none
  | 0x26 =>
    match split [6, 6, 7, 32] x with | [d, a, 0, imm] => some (.srai d a (BitVec.ofNat 32 imm)) | _ => none
  | 0x27 =>
    match split [6, 6, 4, 3, 32] x with | [d, a, 0, cc, imm] => (Cond.ofCode cc).map fun cc => .cmpi d a cc (BitVec.ofNat 32 imm) | _ => none
  | 0x28 =>
    match split [6, 45] x with | [d, imm] => some (.movi d (BitVec.ofNat 45 imm)) | _ => none
  | 0x29 =>
    match split [6, 45] x with | [d, imm] => some (.movhi d (BitVec.ofNat 45 imm)) | _ => none
  | 0x30 =>
    match split [6, 6, 6, 33] x with | [d, a, b, 0] => some (.mul d a b) | _ => none
  | 0x31 =>
    match split [6, 6, 6, 33] x with | [d, a, b, 0] => some (.mulh d a b) | _ => none
  | 0x32 =>
    match split [6, 6, 6, 33] x with | [d, a, b, 0] => some (.mulhu d a b) | _ => none
  | 0x38 =>
    match split [6, 6, 39] x with | [d, sp, 0] => (Spr.ofCode sp).map fun sp => .rdsp d sp | _ => none
  | 0x39 =>
    match split [6, 6, 39] x with | [d, a, 0] => some (.lcrd d a) | _ => none
  | 0x3a =>
    match split [6, 6, 39] x with | [d, a, 0] => some (.lcwr d a) | _ => none
  | 0x3b =>
    match split [6, 6, 15, 8, 16] x with | [d, a, 0, w, 0] => some (.nrd d a w) | _ => none
  | 0x3c =>
    match split [6, 6, 15, 8, 16] x with | [d, a, 0, w, 0] => some (.nwr d a w) | _ => none
  | 0x40 =>
    match split [6, 6, 6, 15, 2, 16] x with | [d, a, b, 0, ff, 0] => (FFmt.ofCode ff).map fun ff => .fadd d a b ff | _ => none
  | 0x41 =>
    match split [6, 6, 6, 15, 2, 16] x with | [d, a, b, 0, ff, 0] => (FFmt.ofCode ff).map fun ff => .fsub d a b ff | _ => none
  | 0x42 =>
    match split [6, 6, 6, 15, 2, 16] x with | [d, a, b, 0, ff, 0] => (FFmt.ofCode ff).map fun ff => .fmul d a b ff | _ => none
  | 0x46 =>
    match split [6, 6, 6, 15, 2, 16] x with | [d, a, b, 0, ff, 0] => (FFmt.ofCode ff).map fun ff => .fmin d a b ff | _ => none
  | 0x47 =>
    match split [6, 6, 6, 15, 2, 16] x with | [d, a, b, 0, ff, 0] => (FFmt.ofCode ff).map fun ff => .fmax d a b ff | _ => none
  | 0x4a =>
    match split [6, 6, 6, 15, 2, 16] x with | [d, a, b, 0, ff, 0] => (FFmt.ofCode ff).map fun ff => .fcpys d a b ff | _ => none
  | 0x43 =>
    match split [6, 6, 6, 6, 9, 2, 16] x with | [d, a, b, c, 0, ff, 0] => (FFmt.ofCode ff).map fun ff => .fma d a b c ff | _ => none
  | 0x44 =>
    match split [6, 6, 6, 6, 9, 2, 16] x with | [d, a, b, c, 0, ff, 0] => (FFmt.ofCode ff).map fun ff => .fms d a b c ff | _ => none
  | 0x45 =>
    match split [6, 6, 6, 6, 9, 2, 16] x with | [d, a, b, c, 0, ff, 0] => (FFmt.ofCode ff).map fun ff => .fnma d a b c ff | _ => none
  | 0x48 =>
    match split [6, 6, 21, 2, 16] x with | [d, a, 0, ff, 0] => (FFmt.ofCode ff).map fun ff => .fabs d a ff | _ => none
  | 0x49 =>
    match split [6, 6, 21, 2, 16] x with | [d, a, 0, ff, 0] => (FFmt.ofCode ff).map fun ff => .fneg d a ff | _ => none
  | 0x4c =>
    match split [6, 6, 21, 2, 16] x with | [d, a, 0, ff, 0] => (FFmt.ofCode ff).map fun ff => .fclass d a ff | _ => none
  | 0x50 =>
    match split [6, 6, 21, 2, 16] x with | [d, a, 0, ff, 0] => (FFmt.ofCode ff).map fun ff => .fsqrt d a ff | _ => none
  | 0x51 =>
    match split [6, 6, 21, 2, 16] x with | [d, a, 0, ff, 0] => (FFmt.ofCode ff).map fun ff => .frcp d a ff | _ => none
  | 0x52 =>
    match split [6, 6, 21, 2, 16] x with | [d, a, 0, ff, 0] => (FFmt.ofCode ff).map fun ff => .frsq d a ff | _ => none
  | 0x4b =>
    match split [6, 6, 6, 10, 3, 2, 2, 16] x with | [d, a, b, 0, cc, 0, ff, 0] => (FCond.ofCode cc).bind fun cc => (FFmt.ofCode ff).map fun ff => .fcmp d a b cc ff | _ => none
  | 0x4d =>
    match split [6, 6, 15, 4, 4, 16] x with | [d, a, 0, dst, src, 0] => (Fmt.ofCode dst).bind fun dst => (Fmt.ofCode src).map fun src => .fcvt d a dst src | _ => none
  | 0x4e =>
    match split [6, 6, 18, 1, 2, 2, 16] x with | [d, a, 0, u, rm, ff, 0] => (RMode.ofCode rm).bind fun rm => (FFmt.ofCode ff).map fun ff => .ftoi d a (u == 1) rm ff | _ => none
  | 0x4f =>
    match split [6, 6, 18, 1, 2, 2, 16] x with | [d, a, 0, u, 0, ff, 0] => (FFmt.ofCode ff).map fun ff => .itof d a (u == 1) ff | _ => none
  | 0x53 =>
    match split [6, 6, 19, 2, 2, 16] x with | [d, a, 0, rm, ff, 0] => (RMode.ofCode rm).bind fun rm => (FFmt.ofCode ff).map fun ff => .frnd d a rm ff | _ => none
  | 0xe0 =>
    match split [6, 21, 8, 16] x with | [d, 0, reg, 0] => (SysReg.ofCode reg).map fun reg => .sysr d reg | _ => none
  | 0xe1 =>
    match split [6, 6, 15, 8, 16] x with | [0, a, 0, reg, 0] => (SysReg.ofCode reg).map fun reg => .sysw a reg | _ => none
  | _ => none

/-- R123: the opcode map of this slot, on the operand field. -/
def readV (op x : Nat) : Option Instr :=
  match op with
  | 0x01 =>
    match split [6, 6, 6, 6, 3, 6, 2, 16] x with | [d, a, b, 0, k, 0, w, 0] => (ElemWidth.ofCode w).map fun w => .vadd d a b k w | _ => none
  | 0x02 =>
    match split [6, 6, 6, 6, 3, 6, 2, 16] x with | [d, a, b, 0, k, 0, w, 0] => (ElemWidth.ofCode w).map fun w => .vsub d a b k w | _ => none
  | 0x03 =>
    match split [6, 6, 6, 6, 3, 6, 2, 16] x with | [d, a, b, 0, k, 0, w, 0] => (ElemWidth.ofCode w).map fun w => .vmul d a b k w | _ => none
  | 0x04 =>
    match split [6, 6, 6, 6, 3, 5, 1, 2, 16] x with | [d, a, b, 0, k, 0, u, w, 0] => (ElemWidth.ofCode w).map fun w => .vmulh d a b k (u == 1) w | _ => none
  | 0x05 =>
    match split [6, 6, 6, 6, 3, 6, 2, 16] x with | [d, a, b, 0, k, 0, w, 0] => (ElemWidth.ofCode w).map fun w => .vand d a b k w | _ => none
  | 0x06 =>
    match split [6, 6, 6, 6, 3, 6, 2, 16] x with | [d, a, b, 0, k, 0, w, 0] => (ElemWidth.ofCode w).map fun w => .vor d a b k w | _ => none
  | 0x07 =>
    match split [6, 6, 6, 6, 3, 6, 2, 16] x with | [d, a, b, 0, k, 0, w, 0] => (ElemWidth.ofCode w).map fun w => .vxor d a b k w | _ => none
  | 0x08 =>
    match split [6, 6, 6, 6, 3, 6, 2, 16] x with | [d, a, b, 0, k, 0, w, 0] => (ElemWidth.ofCode w).map fun w => .vshl d a b k w | _ => none
  | 0x09 =>
    match split [6, 6, 6, 6, 3, 6, 2, 16] x with | [d, a, b, 0, k, 0, w, 0] => (ElemWidth.ofCode w).map fun w => .vshr d a b k w | _ => none
  | 0x0a =>
    match split [6, 6, 6, 6, 3, 6, 2, 16] x with | [d, a, b, 0, k, 0, w, 0] => (ElemWidth.ofCode w).map fun w => .vsra d a b k w | _ => none
  | 0x0b =>
    match split [6, 6, 6, 6, 3, 6, 2, 16] x with | [d, a, b, 0, k, 0, w, 0] => (ElemWidth.ofCode w).map fun w => .vmin d a b k w | _ => none
  | 0x0c =>
    match split [6, 6, 6, 6, 3, 6, 2, 16] x with | [d, a, b, 0, k, 0, w, 0] => (ElemWidth.ofCode w).map fun w => .vmax d a b k w | _ => none
  | 0x0d =>
    match split [6, 6, 6, 6, 3, 6, 2, 16] x with | [d, a, b, 0, k, 0, w, 0] => (ElemWidth.ofCode w).map fun w => .vminu d a b k w | _ => none
  | 0x0e =>
    match split [6, 6, 6, 6, 3, 6, 2, 16] x with | [d, a, b, 0, k, 0, w, 0] => (ElemWidth.ofCode w).map fun w => .vmaxu d a b k w | _ => none
  | 0x0f =>
    match split [6, 6, 12, 3, 6, 2, 16] x with | [d, a, 0, k, 0, w, 0] => (ElemWidth.ofCode w).map fun w => .vabs d a k w | _ => none
  | 0x10 =>
    match split [6, 6, 6, 6, 3, 5, 1, 2, 16] x with | [d, a, b, 0, k, 0, u, w, 0] => (ElemWidth.ofCode w).map fun w => .vadds d a b k (u == 1) w | _ => none
  | 0x11 =>
    match split [6, 6, 6, 6, 3, 5, 1, 2, 16] x with | [d, a, b, 0, k, 0, u, w, 0] => (ElemWidth.ofCode w).map fun w => .vsubs d a b k (u == 1) w | _ => none
  | 0x18 =>
    match split [6, 6, 3, 2, 2, 32] x with | [d, a, k, 0, w, imm] => (ElemWidth.ofCode w).map fun w => .vaddi d a k w (BitVec.ofNat 32 imm) | _ => none
  | 0x19 =>
    match split [6, 6, 3, 2, 2, 32] x with | [d, a, k, 0, w, imm] => (ElemWidth.ofCode w).map fun w => .vshli d a k w (BitVec.ofNat 32 imm) | _ => none
  | 0x1a =>
    match split [6, 6, 3, 2, 2, 32] x with | [d, a, k, 0, w, imm] => (ElemWidth.ofCode w).map fun w => .vshri d a k w (BitVec.ofNat 32 imm) | _ => none
  | 0x1b =>
    match split [6, 6, 3, 2, 2, 32] x with | [d, a, k, 0, w, imm] => (ElemWidth.ofCode w).map fun w => .vsrai d a k w (BitVec.ofNat 32 imm) | _ => none
  | 0x1c =>
    match split [6, 6, 3, 2, 2, 32] x with | [d, 0, k, 0, w, imm] => (ElemWidth.ofCode w).map fun w => .vmovi d k w (BitVec.ofNat 32 imm) | _ => none
  | 0x1d =>
    match split [6, 6, 12, 3, 6, 2, 16] x with | [d, a, 0, k, 0, w, 0] => (ElemWidth.ofCode w).map fun w => .vbcast d a k w | _ => none
  | 0x20 =>
    match split [6, 6, 6, 6, 3, 24] x with | [d, a, b, 0, k, 0] => some (.vfadd d a b k) | _ => none
  | 0x21 =>
    match split [6, 6, 6, 6, 3, 24] x with | [d, a, b, 0, k, 0] => some (.vfsub d a b k) | _ => none
  | 0x22 =>
    match split [6, 6, 6, 6, 3, 24] x with | [d, a, b, 0, k, 0] => some (.vfmul d a b k) | _ => none
  | 0x25 =>
    match split [6, 6, 6, 6, 3, 24] x with | [d, a, b, 0, k, 0] => some (.vfmin d a b k) | _ => none
  | 0x26 =>
    match split [6, 6, 6, 6, 3, 24] x with | [d, a, b, 0, k, 0] => some (.vfmax d a b k) | _ => none
  | 0x23 =>
    match split [6, 6, 6, 6, 3, 24] x with | [d, a, b, c, k, 0] => some (.vfma d a b c k) | _ => none
  | 0x24 =>
    match split [6, 6, 6, 6, 3, 24] x with | [d, a, b, c, k, 0] => some (.vfms d a b c k) | _ => none
  | 0x27 =>
    match split [6, 6, 12, 3, 24] x with | [d, a, 0, k, 0] => some (.vfabs d a k) | _ => none
  | 0x28 =>
    match split [6, 6, 12, 3, 24] x with | [d, a, 0, k, 0] => some (.vfneg d a k) | _ => none
  | 0x29 =>
    match split [6, 6, 12, 3, 24] x with | [d, a, 0, k, 0] => some (.vfrcp d a k) | _ => none
  | 0x2a =>
    match split [6, 6, 12, 3, 24] x with | [d, a, 0, k, 0] => some (.vfrsq d a k) | _ => none
  | 0x2b =>
    match split [6, 6, 12, 3, 24] x with | [d, a, 0, k, 0] => some (.vfexp d a k) | _ => none
  | 0x30 =>
    match split [6, 6, 12, 3, 4, 4, 16] x with | [d, a, 0, k, dst, src, 0] => (Fmt.ofCode dst).bind fun dst => (Fmt.ofCode src).map fun src => .vcvt d a k dst src | _ => none
  | 0x31 =>
    match split [6, 6, 12, 3, 1, 1, 2, 4, 16] x with | [d, a, 0, k, s32, 0, part, dst, 0] => (Fmt.ofCode dst).map fun dst => .vpack d a k (s32 == 1) part dst | _ => none
  | 0x32 =>
    match split [6, 6, 12, 3, 2, 2, 4, 16] x with | [d, a, 0, k, 0, part, src, 0] => (Fmt.ofCode src).map fun src => .vunpk d a k part src | _ => none
  | 0x38 =>
    match split [6, 6, 6, 6, 3, 5, 3, 16] x with | [d, a, b, 0, k, 0, cc, 0] => (Cond.ofCode cc).map fun cc => .vcmp d a b k cc | _ => none
  | 0x39 =>
    match split [6, 6, 6, 6, 3, 5, 3, 16] x with | [d, a, b, 0, k, 0, cc, 0] => (FCond.ofCode cc).map fun cc => .vfcmp d a b k cc | _ => none
  | 0x3a =>
    match split [6, 6, 12, 3, 6, 2, 16] x with | [d, a, 0, k, 0, t, 0] => (NfTest.ofCode t).map fun t => .vnf d a k t | _ => none
  | 0x3b =>
    match split [6, 6, 6, 6, 3, 5, 1, 2, 16] x with | [d, a, b, 0, k, 0, q, t, 0] => (NfTest.ofCode t).map fun t => .vnfq d a b k (q == 1) t | _ => none
  | 0x40 =>
    match split [6, 6, 6, 16, 1, 16] x with | [d, a, b, 0, inv, 0] => some (.mand d a b (inv == 1)) | _ => none
  | 0x41 =>
    match split [6, 6, 6, 16, 1, 16] x with | [d, a, b, 0, inv, 0] => some (.mor d a b (inv == 1)) | _ => none
  | 0x42 =>
    match split [6, 6, 6, 16, 1, 16] x with | [d, a, b, 0, inv, 0] => some (.mxor d a b (inv == 1)) | _ => none
  | 0x43 =>
    match split [6, 6, 39] x with | [d, a, 0] => some (.mnot d a) | _ => none
  | 0x44 =>
    match split [6, 6, 12, 3, 24] x with | [d, a, 0, k, 0] => some (.mpop d a k) | _ => none
  | 0x45 =>
    match split [6, 6, 12, 3, 7, 1, 16] x with | [d, a, 0, k, 0, all, 0] => some (.many d a k (all == 1)) | _ => none
  | 0x48 =>
    match split [6, 6, 6, 6, 3, 24] x with | [d, a, b, 0, k, 0] => some (.vperm d a b k) | _ => none
  | 0x49 =>
    match split [6, 6, 6, 6, 3, 5, 3, 16] x with | [d, a, b, 0, k, 0, pat, 0] => (Shuf.ofCode pat).map fun pat => .vshuf d a b k pat | _ => none
  | 0x4a =>
    match split [6, 6, 6, 6, 3, 7, 1, 16] x with | [d, a, b, 0, k, 0, z, 0] => some (.vrot d a b k (z == 1)) | _ => none
  | 0x4b =>
    match split [6, 6, 6, 6, 3, 24] x with | [d, a, b, c, k, 0] => some (.vsel d a b c k) | _ => none
  | 0x4c =>
    match split [6, 6, 6, 16, 1, 16] x with | [d, a, b, 0, sg, 0] => some (.vext d a b (sg == 1)) | _ => none
  | 0x4d =>
    match split [6, 6, 6, 33] x with | [d, a, b, 0] => some (.vins d a b) | _ => none
  | 0x50 =>
    match split [6, 6, 12, 3, 5, 1, 2, 16] x with | [d, a, 0, k, 0, u, w, 0] => (ElemWidth.ofCode w).map fun w => .vradd d a k (u == 1) w | _ => none
  | 0x51 =>
    match split [6, 6, 12, 3, 5, 1, 2, 16] x with | [d, a, 0, k, 0, u, w, 0] => (ElemWidth.ofCode w).map fun w => .vrmin d a k (u == 1) w | _ => none
  | 0x52 =>
    match split [6, 6, 12, 3, 5, 1, 2, 16] x with | [d, a, 0, k, 0, u, w, 0] => (ElemWidth.ofCode w).map fun w => .vrmax d a k (u == 1) w | _ => none
  | 0x53 =>
    match split [6, 6, 12, 3, 7, 1, 16] x with | [d, a, 0, k, 0, seq, 0] => some (.vrfadd d a k (seq == 1)) | _ => none
  | 0x54 =>
    match split [6, 6, 12, 3, 24] x with | [d, a, 0, k, 0] => some (.vrfmin d a k) | _ => none
  | 0x55 =>
    match split [6, 6, 12, 3, 24] x with | [d, a, 0, k, 0] => some (.vrfmax d a k) | _ => none
  | _ => none

/-- R124: the opcode map of this slot, on the operand field. -/
def readM (op x : Nat) : Option Instr :=
  match op with
  | 0x01 =>
    match split [4, 6, 6, 6, 6, 4, 6, 2, 1, 1, 1, 8] x with | [q, aa, as, ba, bs, fmt, kb, 0, z, wb, wa, 0] => (Fmt.ofCode fmt).map fun fmt => .mma q aa as ba bs fmt kb (z == 1) (wb == 1) (wa == 1) | _ => none
  | 0x02 =>
    match split [6, 6, 39] x with | [d, a, 0] => some (.scx d a) | _ => none
  | 0x03 =>
    match split [6, 6, 6, 6, 5, 1, 1, 4, 16] x with | [0, a, b, c, 0, p, w, fmt, 0] => (Fmt.ofCode fmt).map fun fmt => .mdrn a b c (p == 1) (w == 1) fmt | _ => none
  | 0x04 =>
    match split [6, 6, 6, 6, 5, 1, 1, 4, 16] x with | [d, a, b, c, 0, p, w, fmt, 0] => (Fmt.ofCode fmt).map fun fmt => .mdrnb d a b c (p == 1) (w == 1) fmt | _ => none
  | 0x05 =>
    match split [6, 28, 1, 16] x with | [d, 0, p, 0] => some (.mzero d (p == 1)) | _ => none
  | 0x06 =>
    match split [6, 6, 22, 1, 16] x with | [d, a, 0, p, 0] => some (.mmov d a (p == 1)) | _ => none
  | 0x07 =>
    match split [6, 6, 22, 1, 16] x with | [d, a, 0, p, 0] => some (.mtrn d a (p == 1)) | _ => none
  | 0x08 =>
    match split [6, 6, 12, 3, 4, 4, 16] x with | [d, a, 0, k, 0, h, 0] => some (.mwrv d a k h) | _ => none
  | 0x09 =>
    match split [6, 6, 12, 3, 4, 4, 16] x with | [d, a, 0, k, 0, h, 0] => some (.mrdv d a k h) | _ => none
  | 0x0a =>
    match split [6, 6, 39] x with | [0, a, 0] => some (.mpset a) | _ => none
  | 0x0b =>
    match split [6, 6, 39] x with | [0, a, 0] => some (.mcset a) | _ => none
  | 0x0c =>
    match split [6, 6, 39] x with | [0, a, 0] => some (.mrpwr a) | _ => none
  | 0x0d =>
    match split [6, 6, 39] x with | [d, sp, 0] => (MSpr.ofCode sp).map fun sp => .msrd d sp | _ => none
  | 0x0e =>
    match split [6, 6, 22, 1, 16] x with | [0, a, 0, all, 0] => some (.mqwait a (all == 1)) | _ => none
  | _ => none

/-- R125: the opcode map of this slot, on the operand field. -/
def readL (op x : Nat) : Option Instr :=
  match op with
  | 0x01 =>
    match split [6, 6, 3, 3, 5, 1, 27] x with | [t, a, 0, sz, 0, w, off] => (MSize.ofCode sz).map fun sz => .ld t a sz (w == 1) (BitVec.ofNat 27 off) | _ => none
  | 0x02 =>
    match split [6, 6, 6, 13, 1, 3, 16] x with | [d, a, b, 0, w, sz, 0] => (MSize.ofCode sz).map fun sz => .ldx d a b (w == 1) sz | _ => none
  | 0x03 =>
    match split [6, 6, 3, 3, 5, 1, 27] x with | [t, a, 0, sz, 0, w, off] => some (.st t a sz (w == 1) (BitVec.ofNat 27 off)) | _ => none
  | 0x04 =>
    match split [6, 6, 6, 13, 1, 3, 16] x with | [d, a, b, 0, w, sz, 0] => some (.stx d a b (w == 1) sz) | _ => none
  | 0x05 =>
    match split [6, 6, 4, 1, 2, 32] x with | [d, a, 0, w, sz, imm] => some (.sti d a (w == 1) sz (BitVec.ofNat 32 imm)) | _ => none
  | 0x08 =>
    match split [6, 6, 3, 8, 1, 27] x with | [t, a, k, 0, w, off] => some (.vld t a k (w == 1) (BitVec.ofNat 27 off)) | _ => none
  | 0x09 =>
    match split [6, 6, 3, 8, 1, 27] x with | [t, a, k, 0, w, off] => some (.vst t a k (w == 1) (BitVec.ofNat 27 off)) | _ => none
  | 0x0a =>
    match split [6, 6, 6, 6, 3, 7, 1, 16] x with | [d, a, b, 0, k, 0, w, 0] => some (.vlds d a b k (w == 1)) | _ => none
  | 0x0b =>
    match split [6, 6, 6, 6, 3, 7, 1, 16] x with | [d, a, b, 0, k, 0, w, 0] => some (.vsts d a b k (w == 1)) | _ => none
  | 0x0c =>
    match split [6, 6, 6, 6, 3, 5, 1, 2, 16] x with | [d, a, b, 0, k, 0, w, sh, 0] => some (.vgth d a b k (w == 1) sh) | _ => none
  | 0x0d =>
    match split [6, 6, 6, 6, 3, 5, 1, 2, 16] x with | [d, a, b, 0, k, 0, w, sh, 0] => some (.vsct d a b k (w == 1) sh) | _ => none
  | 0x0e =>
    match split [6, 6, 3, 3, 5, 1, 27] x with | [t, a, k, sz, 0, w, off] => (MSize.ofCode sz).map fun sz => .vldb t a k sz (w == 1) (BitVec.ofNat 27 off) | _ => none
  | 0x10 =>
    match split [6, 6, 5, 1, 5, 1, 27] x with | [t, a, 0, p, 0, w, off] => some (.qld t a (p == 1) (w == 1) (BitVec.ofNat 27 off)) | _ => none
  | 0x11 =>
    match split [6, 6, 5, 1, 5, 1, 27] x with | [t, a, 0, p, 0, w, off] => some (.qst t a (p == 1) (w == 1) (BitVec.ofNat 27 off)) | _ => none
  | 0x18 =>
    match split [6, 6, 6, 3, 3, 3, 2, 2, 4, 16] x with | [d, a, b, 0, sc, 0, ord, sz, op, 0] => (Scope.ofCode sc).bind fun sc => (MOrder.ofCode ord).bind fun ord => (AtomOp.ofCode op).map fun op => .amo d a b sc ord sz op | _ => none
  | 0x19 =>
    match split [6, 6, 6, 6, 3, 2, 2, 1, 3, 16] x with | [d, a, b, c, 0, ord, sz, 0, sc, 0] => (MOrder.ofCode ord).bind fun ord => (Scope.ofCode sc).map fun sc => .cas d a b c ord sz sc | _ => none
  | 0x1a =>
    match split [6, 6, 6, 3, 3, 3, 2, 1, 1, 4, 16] x with | [d, a, b, 0, sc, k, ord, 0, x, op, 0] => (Scope.ofCode sc).bind fun sc => (MOrder.ofCode ord).bind fun ord => (AtomOp.ofCode op).map fun op => .vamo d a b sc k ord (x == 1) op | _ => none
  | 0x1b =>
    match split [6, 6, 3, 3, 3, 2, 1, 27] x with | [t, a, 0, sz, sc, ord, 0, off] => (MSize.ofCode sz).bind fun sz => (Scope.ofCode sc).bind fun sc => (MOrder.ofCode ord).map fun ord => .ald t a sz sc ord (BitVec.ofNat 27 off) | _ => none
  | 0x20 =>
    match split [6, 6, 5, 1, 6, 27] x with | [t, a, 0, pi, 0, off] => some (.xlat t a (pi == 1) (BitVec.ofNat 27 off)) | _ => none
  | 0x21 =>
    match split [18, 3, 30] x with | [0, sc, 0] => (Scope.ofCode sc).map fun sc => .drain sc | _ => none
  | 0x22 =>
    match split [6, 6, 3, 9, 27] x with | [t, a, k, 0, off] => some (.mcast t a k (BitVec.ofNat 27 off)) | _ => none
  | 0x25 =>
    match split [6, 6, 3, 4, 32] x with | [0, a, 0, code, imm] => some (.bfmt a (BitVec.ofNat 4 code) (BitVec.ofNat 32 imm)) | _ => none
  | 0x26 =>
    match split [6, 6, 3, 3, 1, 4, 1, 27] x with | [t, a, 0, sz, 0, f, 0, off] => (MSize.ofCode sz).map fun sz => .ldt t a sz f (BitVec.ofNat 27 off) | _ => none
  | 0x27 =>
    match split [6, 6, 3, 4, 4, 1, 27] x with | [t, a, k, 0, f, 0, off] => some (.vldt t a k f (BitVec.ofNat 27 off)) | _ => none
  | _ => none

/-- R126, R235: the opcode map of this slot, on the operand field. -/
def readX (op x : Nat) : Option Instr :=
  match op with
  | 0x01 =>
    match split [6, 6, 6, 17, 7, 1, 8] x with | [0, a, 0, sw, 0, v, 0] => some (.note a (BitVec.ofNat 17 sw) (v == 1)) | _ => none
  | 0x02 =>
    (match split [6, 6, 6, 17, 7, 1, 8] x with | [0, a, b, sw, 0, last, 0] => some (.pull a b (BitVec.ofNat 17 sw) (last == 1)) | _ => none)
    <|> (match split [12, 6, 17, 8, 8] x with | [0, b, sw, 2, 0] => some (.pullRank b (BitVec.ofNat 17 sw)) | _ => none)
  | 0x03 =>
    match split [6, 6, 6, 17, 7, 1, 8] x with | [0, a, b, sw, 0, last, 0] => some (.pulladd a b (BitVec.ofNat 17 sw) (last == 1)) | _ => none
  | 0x04 =>
    match split [12, 6, 33] x with | [0, b, 0] => some (.decl b) | _ => none
  | 0x05 =>
    match split [12, 6, 33] x with | [0, b, 0] => some (.wdraw b) | _ => none
  | 0x08 =>
    match split [6, 6, 15, 8, 16] x with | [d, a, 0, w, 0] => some (.nbrd d a w) | _ => none
  | 0x09 =>
    match split [6, 27, 2, 16] x with | [d, 0, sel, 0] => (BoardSel.ofCode sel).map fun sel => .nbcnt d sel | _ => none
  | 0x0a =>
    match split [6, 6, 6, 16, 1, 16] x with | [d, a, b, 0, any, 0] => some (.nbfind d a b (any == 1)) | _ => none
  | 0x0b =>
    (match split [6, 6, 6, 33] x with | [0, a, b, 0] => some (.pwinSet a b) | _ => none)
    <|> (match split [34, 1, 16] x with | [0, 1, 0] => some .pwinReset | _ => none)
  | 0x0c =>
    match split [6, 6, 39] x with | [0, a, 0] => some (.rkset a) | _ => none
  | 0x0d =>
    (match split [6, 6, 6, 33] x with | [d, a, b, 0] => some (.ngrpNew d a b) | _ => none)
    <|> (match split [6, 6, 22, 1, 16] x with | [d, a, 0, 1, 0] => some (.ngrpFree d a) | _ => none)
  | 0x10 =>
    match split [6, 6, 6, 17, 16] x with | [0, a, b, sw, 0] => some (.rcont a b (BitVec.ofNat 17 sw)) | _ => none
  | 0x11 =>
    match split [6, 6, 6, 17, 16] x with | [0, a, b, sw, 0] => some (.rroot a b (BitVec.ofNat 17 sw)) | _ => none
  | 0x18 =>
    match split [6, 6, 6, 17, 16] x with | [0, a, b, sw, 0] => some (.agload a b (BitVec.ofNat 17 sw)) | _ => none
  | 0x19 =>
    match split [6, 6, 39] x with | [0, a, 0] => some (.agrel a) | _ => none
  | 0x1a =>
    match split [6, 6, 6, 17, 16] x with | [0, a, b, sw, 0] => some (.agrun a b (BitVec.ofNat 17 sw)) | _ => none
  | 0x1b =>
    match split [12, 6, 33] x with | [0, b, 0] => some (.agwait b) | _ => none
  | 0x20 =>
    match split [6, 6, 6, 17, 16] x with | [d, a, b, sw, 0] => some (.rget d a b (BitVec.ofNat 17 sw)) | _ => none
  | 0x21 =>
    match split [6, 6, 6, 17, 7, 1, 8] x with | [d, a, b, sw, 0, v, 0] => some (.rput d a b (BitVec.ofNat 17 sw) (v == 1)) | _ => none
  | 0x22 =>
    match split [12, 6, 17, 16] x with | [0, b, sw, 0] => some (.rflush b (BitVec.ofNat 17 sw)) | _ => none
  | 0x28 =>
    match split [6, 26, 3, 16] x with | [d, 0, sel, 0] => (XStatSel.ofCode sel).map fun sel => .xstat d sel | _ => none
  | 0xe0 =>
    match split [6, 6, 6, 17, 16] x with | [0, a, b, sw, 0] => some (.ckey a b (BitVec.ofNat 17 sw)) | _ => none
  | _ => none

/-- R127, R261: the opcode map of this slot, on the operand field. -/
def readA (op x : Nat) : Option Instr :=
  match op with
  | 0x01 =>
    match split [6, 6, 6, 17, 4, 1, 1, 2, 8] x with | [0, a, b, sw, 0, ws, wd, n, 0] => some (.copy a b (BitVec.ofNat 17 sw) (ws == 1) (wd == 1) n) | _ => none
  | 0x02 =>
    match split [6, 6, 6, 17, 5, 1, 2, 8] x with | [0, a, b, sw, 0, wd, n, 0] => some (.copyc a b (BitVec.ofNat 17 sw) (wd == 1) n) | _ => none
  | 0x08 =>
    match split [6, 6, 6, 24, 1, 8] x with | [d, a, b, 0, ar, 0] => some (.spawn d a b (ar == 1)) | _ => none
  | 0x09 =>
    match split [6, 6, 39] x with | [d, a, 0] => some (.fref d a) | _ => none
  | 0x0a =>
    match split [6, 6, 39] x with | [d, a, 0] => some (.fdrop d a) | _ => none
  | 0x0c =>
    match split [6, 6, 39] x with | [d, a, 0] => some (.fset d a) | _ => none
  | 0x0f =>
    match split [6, 6, 39] x with | [d, a, 0] => some (.fstat d a) | _ => none
  | 0x0b =>
    match split [6, 6, 6, 6, 27] x with | [d, a, 0, c, 0] => some (.fawait d a c) | _ => none
  | 0x0d =>
    match split [51] x with | [0] => some .fpin | _ => none
  | 0x0e =>
    match split [51] x with | [0] => some .funpin | _ => none
  | 0x10 =>
    match split [6, 6, 6, 33] x with | [d, a, b, 0] => some (.ssnap d a b) | _ => none
  | 0x11 =>
    match split [6, 6, 6, 33] x with | [d, a, b, 0] => some (.sroll d a b) | _ => none
  | 0x12 =>
    match split [6, 6, 6, 33] x with | [d, a, b, 0] => some (.sfork d a b) | _ => none
  | 0x13 =>
    match split [6, 6, 6, 17, 16] x with | [d, a, b, sw, 0] => some (.sld d a b (BitVec.ofNat 17 sw)) | _ => none
  | 0x14 =>
    match split [6, 6, 6, 17, 16] x with | [d, a, b, sw, 0] => some (.sst d a b (BitVec.ofNat 17 sw)) | _ => none
  | 0x15 =>
    match split [6, 6, 6, 24, 1, 8] x with | [d, a, b, 0, sq, 0] => some (.sdrop d a b (sq == 1)) | _ => none
  | 0x18 =>
    match split [6, 6, 6, 17, 16] x with | [d, a, 0, sw, 0] => some (.kvst d a (BitVec.ofNat 17 sw)) | _ => none
  | 0x19 =>
    (match split [6, 6, 6, 33] x with | [d, 0, b, 0] => some (.kvnx d b) | _ => none)
    <|> (match split [6, 6, 6, 17, 8, 8] x with | [d, 0, b, 0, 1, 0] => some (.kvnxEnd d b) | _ => none)
  | 0x1a =>
    match split [6, 6, 6, 17, 4, 4, 8] x with | [d, a, b, sw, 0, code, 0] => some (.hmsg d a b (BitVec.ofNat 17 sw) (BitVec.ofNat 4 code)) | _ => none
  | 0x20 =>
    match split [6, 6, 6, 17, 7, 1, 8] x with | [d, a, b, sw, 0, g, 0] => some (.swset d a b (BitVec.ofNat 17 sw) (g == 1)) | _ => none
  | 0x21 =>
    match split [6, 6, 6, 17, 16] x with | [0, a, b, sw, 0] => some (.swadd a b (BitVec.ofNat 17 sw)) | _ => none
  | 0x22 =>
    match split [6, 6, 6, 17, 7, 1, 8] x with | [d, a, 0, sw, 0, hi, 0] => some (.swrd d a (BitVec.ofNat 17 sw) (hi == 1)) | _ => none
  | 0x23 =>
    match split [6, 6, 39] x with | [d, a, 0] => some (.rtwr d a) | _ => none
  | 0x24 =>
    match split [6, 6, 39] x with | [d, a, 0] => some (.rtrd d a) | _ => none
  | 0x25 =>
    match split [6, 6, 39] x with | [0, a, 0] => some (.rtarm a) | _ => none
  | 0xe0 =>
    match split [6, 6, 6, 33] x with | [0, a, b, 0] => some (.qmap a b) | _ => none
  | 0xe1 =>
    match split [12, 6, 33] x with | [0, b, 0] => some (.qunmap b) | _ => none
  | 0xe2 =>
    match split [12, 6, 33] x with | [0, b, 0] => some (.qkick b) | _ => none
  | _ => none

/-- R122 to R127: the opcode map of a slot. -/
def readOperands (k : SlotKind) (op x : Nat) : Option Instr :=
  match k with
  | .c => readC op x
  | .s => readS op x
  | .v => readV op x
  | .m => readM op x
  | .l => readL op x
  | .x => readX op x
  | .a => readA op x


/-- R233: the operand field of PREF and PREFW: T, K and OR zero, SZ a span of 0 to 3, SC a level of 0 or 1, W zero; answers sA, the
span, the level and the offset. -/
def prefOperands (x : Nat) : Option (Nat × Nat × Nat × BitVec 27) :=
  match split [6, 6, 3, 3, 3, 2, 1, 27] x with
  | [0, a, 0, span, lvl, 0, 0, off] => if span < 4 ∧ lvl < 2 then some (a, span, lvl, BitVec.ofNat 27 off) else none
  | _ => none

/-- R105 to R110: a slot value as an instruction, or none where the slot holds an illegal encoding. -/
def decodeSlot (k : SlotKind) (w : BitVec 64) : Option SlotOp :=
  match split [8, 4, 1, 51] w.toNat with
  | [op, p, n, x] =>
    if op = 0 then (if x = 0 then some ⟨p, n == 1, .nop, 0⟩ else none)
    else if 0xF0 ≤ op then some ⟨p, n == 1, .hint, (op - 0xF0) * 2 ^ 51 + x⟩
    else if k = .l ∧ (op = 0x23 ∨ op = 0x24) then
      (if (prefOperands x).isSome then some ⟨p, n == 1, if op = 0x23 then .pref else .prefw, x⟩ else none)
    else ((readOperands k op x).filter wf).map fun i => ⟨p, n == 1, i, 0⟩
  | _ => none

/-- R109, R353: the slot holds an assigned opcode of the privileged space. -/
def privOpcode (k : SlotKind) (w : BitVec 64) : Bool :=
  let op := w.toNat / 2 ^ 56
  match k with
  | .c => decide (0xE0 ≤ op && op ≤ 0xE8)
  | .s => decide (0xE0 ≤ op && op ≤ 0xE1)
  | .x => op == 0xE0
  | .a => decide (0xE0 ≤ op && op ≤ 0xE2)
  | _ => false

/-- R104: the opcode map of the slot with this index. -/
def slotKind : Nat → SlotKind
  | 0 => .c
  | 1 => .s
  | 2 => .s
  | 3 => .v
  | 4 => .m
  | 5 => .l
  | 6 => .x
  | _ => .a

/-- R104: slot i of a bundle given as one number, slot 0 in the least significant bits. -/
def slotWord (b i : Nat) : BitVec 64 := BitVec.ofNat 64 (b / 2 ^ (64 * i))

/-- The instruction of the first slot from i on that is not NOP; NOP where all are. -/
def firstSlot (b : Nat) : Nat → Nat → Option Instr
  | 0, _ => some .nop
  | k + 1, i =>
    match decodeSlot (slotKind i) (slotWord b i) with
    | some ⟨_, _, .nop, _⟩ => firstSlot b k (i + 1)
    | some o => some o.ins
    | none => none

/-- What the decoder reads from a bundle whose bits are w (bits above nbits are zero): the instruction of its first
slot that is not NOP.  A value of 64 bits or fewer is slot C. -/
def decodeTableWord (nbits w : Nat) : Option Instr := firstSlot (w % 2 ^ nbits) 8 0

/-- R106, R121 to R127: the slot, the opcode and the operand field of an instruction, most significant field first;
none for the steps of agents, which no word encodes. -/
def layout : Instr → Option (SlotKind × Nat × List (Nat × Nat))
  | .nop => some (.c, 0, [(51, 0)])
  | .hint => some (.c, 0xF0, [(51, 0)])
  | .pref => some (.l, 0x23, [(51, 0)])
  | .prefw => some (.l, 0x24, [(51, 0)])
  | .br off =>
    some (.c, 0x01, [(12, 0), (25, off.toNat), (14, 0)])
  | .brr a off =>
    some (.c, 0x02, [(6, a), (6, 0), (25, off.toNat), (14, 0)])
  | .call a off =>
    some (.c, 0x03, [(6, a), (6, 0), (25, off.toNat), (14, 0)])
  | .callr a b off =>
    some (.c, 0x04, [(6, a), (6, b), (25, off.toNat), (14, 0)])
  | .ret a =>
    some (.c, 0x05, [(6, a), (45, 0)])
  | .btab a b off =>
    some (.c, 0x06, [(6, a), (6, b), (25, off.toNat), (14, 0)])
  | .beq a b off =>
    some (.c, 0x08, [(6, a), (6, b), (25, off.toNat), (14, 0)])
  | .bne a b off =>
    some (.c, 0x09, [(6, a), (6, b), (25, off.toNat), (14, 0)])
  | .blt a b off =>
    some (.c, 0x0a, [(6, a), (6, b), (25, off.toNat), (14, 0)])
  | .bge a b off =>
    some (.c, 0x0b, [(6, a), (6, b), (25, off.toNat), (14, 0)])
  | .bltu a b off =>
    some (.c, 0x0c, [(6, a), (6, b), (25, off.toNat), (14, 0)])
  | .bgeu a b off =>
    some (.c, 0x0d, [(6, a), (6, b), (25, off.toNat), (14, 0)])
  | .loopn n bl =>
    some (.c, 0x10, [(2, n), (4, bl), (45, 0)])
  | .loopx n =>
    some (.c, 0x11, [(2, n), (49, 0)])
  | .waitG a b sw =>
    some (.c, 0x18, [(6, 0), (6, a), (6, b), (17, sw.toNat), (16, 0)])
  | .waitT a sw =>
    some (.c, 0x18, [(6, 0), (6, a), (6, 0), (17, sw.toNat), (8, 1), (8, 0)])
  | .waitr entries =>
    some (.c, 0x19, [(19, 0), (16, entries.toNat), (16, 0)])
  | .waits =>
    some (.c, 0x1a, [(51, 0)])
  | .yield =>
    some (.c, 0x20, [(51, 0)])
  | .ychk =>
    some (.c, 0x21, [(51, 0)])
  | .mark =>
    some (.c, 0x22, [(51, 0)])
  | .xabort d a imm =>
    some (.c, 0x23, [(6, d), (6, a), (7, 0), (32, imm.toNat)])
  | .trap a imm =>
    some (.c, 0x24, [(6, 0), (6, a), (7, 0), (32, imm.toNat)])
  | .done =>
    some (.c, 0x25, [(51, 0)])
  | .isync =>
    some (.c, 0x26, [(51, 0)])
  | .pret =>
    some (.c, 0xe0, [(51, 0)])
  | .rngr d a w =>
    some (.c, 0xe1, [(6, d), (6, a), (22, 0), (1, w.toNat), (16, 0)])
  | .rngw a b c =>
    some (.c, 0xe2, [(6, 0), (6, a), (6, b), (6, c), (27, 0)])
  | .ppwset a =>
    some (.c, 0xe3, [(6, 0), (6, a), (39, 0)])
  | .ctxsave a b sw =>
    some (.c, 0xe4, [(6, 0), (6, a), (6, b), (17, sw.toNat), (16, 0)])
  | .ctxload a b sw h =>
    some (.c, 0xe5, [(6, 0), (6, a), (6, b), (17, sw.toNat), (7, 0), (1, h.toNat), (8, 0)])
  | .shoot a b c all =>
    some (.c, 0xe6, [(6, 0), (6, a), (6, b), (6, c), (10, 0), (1, all.toNat), (16, 0)])
  | .halt =>
    some (.c, 0xe7, [(51, 0)])
  | .wdset a sel imm =>
    some (.c, 0xe8, [(6, 0), (6, a), (5, 0), (2, sel.code), (32, imm.toNat)])
  | .add d a b =>
    some (.s, 0x01, [(6, d), (6, a), (6, b), (33, 0)])
  | .sub d a b =>
    some (.s, 0x02, [(6, d), (6, a), (6, b), (33, 0)])
  | .and d a b =>
    some (.s, 0x03, [(6, d), (6, a), (6, b), (33, 0)])
  | .or d a b =>
    some (.s, 0x04, [(6, d), (6, a), (6, b), (33, 0)])
  | .xor d a b =>
    some (.s, 0x05, [(6, d), (6, a), (6, b), (33, 0)])
  | .andn d a b =>
    some (.s, 0x06, [(6, d), (6, a), (6, b), (33, 0)])
  | .shl d a b =>
    some (.s, 0x07, [(6, d), (6, a), (6, b), (33, 0)])
  | .shr d a b =>
    some (.s, 0x08, [(6, d), (6, a), (6, b), (33, 0)])
  | .sra d a b =>
    some (.s, 0x09, [(6, d), (6, a), (6, b), (33, 0)])
  | .rol d a b =>
    some (.s, 0x0a, [(6, d), (6, a), (6, b), (33, 0)])
  | .ror d a b =>
    some (.s, 0x0b, [(6, d), (6, a), (6, b), (33, 0)])
  | .min d a b =>
    some (.s, 0x0c, [(6, d), (6, a), (6, b), (33, 0)])
  | .max d a b =>
    some (.s, 0x0d, [(6, d), (6, a), (6, b), (33, 0)])
  | .minu d a b =>
    some (.s, 0x0e, [(6, d), (6, a), (6, b), (33, 0)])
  | .maxu d a b =>
    some (.s, 0x0f, [(6, d), (6, a), (6, b), (33, 0)])
  | .clz d a =>
    some (.s, 0x10, [(6, d), (6, a), (39, 0)])
  | .ctz d a =>
    some (.s, 0x11, [(6, d), (6, a), (39, 0)])
  | .popc d a =>
    some (.s, 0x12, [(6, d), (6, a), (39, 0)])
  | .bswap d a =>
    some (.s, 0x13, [(6, d), (6, a), (39, 0)])
  | .sext d a p =>
    some (.s, 0x14, [(6, d), (6, a), (15, 0), (8, p), (16, 0)])
  | .zext d a p =>
    some (.s, 0x15, [(6, d), (6, a), (15, 0), (8, p), (16, 0)])
  | .bfx d a b sg =>
    some (.s, 0x16, [(6, d), (6, a), (6, b), (16, 0), (1, sg.toNat), (16, 0)])
  | .bfi d a b c =>
    some (.s, 0x17, [(6, d), (6, a), (6, b), (6, c), (27, 0)])
  | .cmp d a b cc =>
    some (.s, 0x18, [(6, d), (6, a), (6, b), (14, 0), (3, cc.code), (16, 0)])
  | .sel d a b c =>
    some (.s, 0x19, [(6, d), (6, a), (6, b), (6, c), (27, 0)])
  | .lea d a b sh =>
    some (.s, 0x1a, [(6, d), (6, a), (6, b), (9, 0), (8, sh), (16, 0)])
  | .fland d a b inv =>
    some (.s, 0x1b, [(6, d), (6, a), (6, b), (16, 0), (1, inv.toNat), (16, 0)])
  | .flor d a b inv =>
    some (.s, 0x1c, [(6, d), (6, a), (6, b), (16, 0), (1, inv.toNat), (16, 0)])
  | .flxor d a b inv =>
    some (.s, 0x1d, [(6, d), (6, a), (6, b), (16, 0), (1, inv.toNat), (16, 0)])
  | .addi d a imm =>
    some (.s, 0x20, [(6, d), (6, a), (7, 0), (32, imm.toNat)])
  | .andi d a imm =>
    some (.s, 0x21, [(6, d), (6, a), (7, 0), (32, imm.toNat)])
  | .ori d a imm =>
    some (.s, 0x22, [(6, d), (6, a), (7, 0), (32, imm.toNat)])
  | .xori d a imm =>
    some (.s, 0x23, [(6, d), (6, a), (7, 0), (32, imm.toNat)])
  | .shli d a imm =>
    some (.s, 0x24, [(6, d), (6, a), (7, 0), (32, imm.toNat)])
  | .shri d a imm =>
    some (.s, 0x25, [(6, d), (6, a), (7, 0), (32, imm.toNat)])
  | .srai d a imm =>
    some (.s, 0x26, [(6, d), (6, a), (7, 0), (32, imm.toNat)])
  | .cmpi d a cc imm =>
    some (.s, 0x27, [(6, d), (6, a), (4, 0), (3, cc.code), (32, imm.toNat)])
  | .movi d imm =>
    some (.s, 0x28, [(6, d), (45, imm.toNat)])
  | .movhi d imm =>
    some (.s, 0x29, [(6, d), (45, imm.toNat)])
  | .mul d a b =>
    some (.s, 0x30, [(6, d), (6, a), (6, b), (33, 0)])
  | .mulh d a b =>
    some (.s, 0x31, [(6, d), (6, a), (6, b), (33, 0)])
  | .mulhu d a b =>
    some (.s, 0x32, [(6, d), (6, a), (6, b), (33, 0)])
  | .rdsp d sp =>
    some (.s, 0x38, [(6, d), (6, sp.code), (39, 0)])
  | .lcrd d a =>
    some (.s, 0x39, [(6, d), (6, a), (39, 0)])
  | .lcwr d a =>
    some (.s, 0x3a, [(6, d), (6, a), (39, 0)])
  | .nrd d a w =>
    some (.s, 0x3b, [(6, d), (6, a), (15, 0), (8, w), (16, 0)])
  | .nwr d a w =>
    some (.s, 0x3c, [(6, d), (6, a), (15, 0), (8, w), (16, 0)])
  | .fadd d a b ff =>
    some (.s, 0x40, [(6, d), (6, a), (6, b), (15, 0), (2, ff.code), (16, 0)])
  | .fsub d a b ff =>
    some (.s, 0x41, [(6, d), (6, a), (6, b), (15, 0), (2, ff.code), (16, 0)])
  | .fmul d a b ff =>
    some (.s, 0x42, [(6, d), (6, a), (6, b), (15, 0), (2, ff.code), (16, 0)])
  | .fmin d a b ff =>
    some (.s, 0x46, [(6, d), (6, a), (6, b), (15, 0), (2, ff.code), (16, 0)])
  | .fmax d a b ff =>
    some (.s, 0x47, [(6, d), (6, a), (6, b), (15, 0), (2, ff.code), (16, 0)])
  | .fcpys d a b ff =>
    some (.s, 0x4a, [(6, d), (6, a), (6, b), (15, 0), (2, ff.code), (16, 0)])
  | .fma d a b c ff =>
    some (.s, 0x43, [(6, d), (6, a), (6, b), (6, c), (9, 0), (2, ff.code), (16, 0)])
  | .fms d a b c ff =>
    some (.s, 0x44, [(6, d), (6, a), (6, b), (6, c), (9, 0), (2, ff.code), (16, 0)])
  | .fnma d a b c ff =>
    some (.s, 0x45, [(6, d), (6, a), (6, b), (6, c), (9, 0), (2, ff.code), (16, 0)])
  | .fabs d a ff =>
    some (.s, 0x48, [(6, d), (6, a), (21, 0), (2, ff.code), (16, 0)])
  | .fneg d a ff =>
    some (.s, 0x49, [(6, d), (6, a), (21, 0), (2, ff.code), (16, 0)])
  | .fclass d a ff =>
    some (.s, 0x4c, [(6, d), (6, a), (21, 0), (2, ff.code), (16, 0)])
  | .fsqrt d a ff =>
    some (.s, 0x50, [(6, d), (6, a), (21, 0), (2, ff.code), (16, 0)])
  | .frcp d a ff =>
    some (.s, 0x51, [(6, d), (6, a), (21, 0), (2, ff.code), (16, 0)])
  | .frsq d a ff =>
    some (.s, 0x52, [(6, d), (6, a), (21, 0), (2, ff.code), (16, 0)])
  | .fcmp d a b cc ff =>
    some (.s, 0x4b, [(6, d), (6, a), (6, b), (10, 0), (3, cc.code), (2, 0), (2, ff.code), (16, 0)])
  | .fcvt d a dst src =>
    some (.s, 0x4d, [(6, d), (6, a), (15, 0), (4, dst.code), (4, src.code), (16, 0)])
  | .ftoi d a u rm ff =>
    some (.s, 0x4e, [(6, d), (6, a), (18, 0), (1, u.toNat), (2, rm.code), (2, ff.code), (16, 0)])
  | .itof d a u ff =>
    some (.s, 0x4f, [(6, d), (6, a), (18, 0), (1, u.toNat), (2, 0), (2, ff.code), (16, 0)])
  | .frnd d a rm ff =>
    some (.s, 0x53, [(6, d), (6, a), (19, 0), (2, rm.code), (2, ff.code), (16, 0)])
  | .sysr d reg =>
    some (.s, 0xe0, [(6, d), (21, 0), (8, reg.code), (16, 0)])
  | .sysw a reg =>
    some (.s, 0xe1, [(6, 0), (6, a), (15, 0), (8, reg.code), (16, 0)])
  | .vadd d a b k w =>
    some (.v, 0x01, [(6, d), (6, a), (6, b), (6, 0), (3, k), (6, 0), (2, w.code), (16, 0)])
  | .vsub d a b k w =>
    some (.v, 0x02, [(6, d), (6, a), (6, b), (6, 0), (3, k), (6, 0), (2, w.code), (16, 0)])
  | .vmul d a b k w =>
    some (.v, 0x03, [(6, d), (6, a), (6, b), (6, 0), (3, k), (6, 0), (2, w.code), (16, 0)])
  | .vmulh d a b k u w =>
    some (.v, 0x04, [(6, d), (6, a), (6, b), (6, 0), (3, k), (5, 0), (1, u.toNat), (2, w.code), (16, 0)])
  | .vand d a b k w =>
    some (.v, 0x05, [(6, d), (6, a), (6, b), (6, 0), (3, k), (6, 0), (2, w.code), (16, 0)])
  | .vor d a b k w =>
    some (.v, 0x06, [(6, d), (6, a), (6, b), (6, 0), (3, k), (6, 0), (2, w.code), (16, 0)])
  | .vxor d a b k w =>
    some (.v, 0x07, [(6, d), (6, a), (6, b), (6, 0), (3, k), (6, 0), (2, w.code), (16, 0)])
  | .vshl d a b k w =>
    some (.v, 0x08, [(6, d), (6, a), (6, b), (6, 0), (3, k), (6, 0), (2, w.code), (16, 0)])
  | .vshr d a b k w =>
    some (.v, 0x09, [(6, d), (6, a), (6, b), (6, 0), (3, k), (6, 0), (2, w.code), (16, 0)])
  | .vsra d a b k w =>
    some (.v, 0x0a, [(6, d), (6, a), (6, b), (6, 0), (3, k), (6, 0), (2, w.code), (16, 0)])
  | .vmin d a b k w =>
    some (.v, 0x0b, [(6, d), (6, a), (6, b), (6, 0), (3, k), (6, 0), (2, w.code), (16, 0)])
  | .vmax d a b k w =>
    some (.v, 0x0c, [(6, d), (6, a), (6, b), (6, 0), (3, k), (6, 0), (2, w.code), (16, 0)])
  | .vminu d a b k w =>
    some (.v, 0x0d, [(6, d), (6, a), (6, b), (6, 0), (3, k), (6, 0), (2, w.code), (16, 0)])
  | .vmaxu d a b k w =>
    some (.v, 0x0e, [(6, d), (6, a), (6, b), (6, 0), (3, k), (6, 0), (2, w.code), (16, 0)])
  | .vabs d a k w =>
    some (.v, 0x0f, [(6, d), (6, a), (12, 0), (3, k), (6, 0), (2, w.code), (16, 0)])
  | .vadds d a b k u w =>
    some (.v, 0x10, [(6, d), (6, a), (6, b), (6, 0), (3, k), (5, 0), (1, u.toNat), (2, w.code), (16, 0)])
  | .vsubs d a b k u w =>
    some (.v, 0x11, [(6, d), (6, a), (6, b), (6, 0), (3, k), (5, 0), (1, u.toNat), (2, w.code), (16, 0)])
  | .vaddi d a k w imm =>
    some (.v, 0x18, [(6, d), (6, a), (3, k), (2, 0), (2, w.code), (32, imm.toNat)])
  | .vshli d a k w imm =>
    some (.v, 0x19, [(6, d), (6, a), (3, k), (2, 0), (2, w.code), (32, imm.toNat)])
  | .vshri d a k w imm =>
    some (.v, 0x1a, [(6, d), (6, a), (3, k), (2, 0), (2, w.code), (32, imm.toNat)])
  | .vsrai d a k w imm =>
    some (.v, 0x1b, [(6, d), (6, a), (3, k), (2, 0), (2, w.code), (32, imm.toNat)])
  | .vmovi d k w imm =>
    some (.v, 0x1c, [(6, d), (6, 0), (3, k), (2, 0), (2, w.code), (32, imm.toNat)])
  | .vbcast d a k w =>
    some (.v, 0x1d, [(6, d), (6, a), (12, 0), (3, k), (6, 0), (2, w.code), (16, 0)])
  | .vfadd d a b k =>
    some (.v, 0x20, [(6, d), (6, a), (6, b), (6, 0), (3, k), (24, 0)])
  | .vfsub d a b k =>
    some (.v, 0x21, [(6, d), (6, a), (6, b), (6, 0), (3, k), (24, 0)])
  | .vfmul d a b k =>
    some (.v, 0x22, [(6, d), (6, a), (6, b), (6, 0), (3, k), (24, 0)])
  | .vfmin d a b k =>
    some (.v, 0x25, [(6, d), (6, a), (6, b), (6, 0), (3, k), (24, 0)])
  | .vfmax d a b k =>
    some (.v, 0x26, [(6, d), (6, a), (6, b), (6, 0), (3, k), (24, 0)])
  | .vfma d a b c k =>
    some (.v, 0x23, [(6, d), (6, a), (6, b), (6, c), (3, k), (24, 0)])
  | .vfms d a b c k =>
    some (.v, 0x24, [(6, d), (6, a), (6, b), (6, c), (3, k), (24, 0)])
  | .vfabs d a k =>
    some (.v, 0x27, [(6, d), (6, a), (12, 0), (3, k), (24, 0)])
  | .vfneg d a k =>
    some (.v, 0x28, [(6, d), (6, a), (12, 0), (3, k), (24, 0)])
  | .vfrcp d a k =>
    some (.v, 0x29, [(6, d), (6, a), (12, 0), (3, k), (24, 0)])
  | .vfrsq d a k =>
    some (.v, 0x2a, [(6, d), (6, a), (12, 0), (3, k), (24, 0)])
  | .vfexp d a k =>
    some (.v, 0x2b, [(6, d), (6, a), (12, 0), (3, k), (24, 0)])
  | .vcvt d a k dst src =>
    some (.v, 0x30, [(6, d), (6, a), (12, 0), (3, k), (4, dst.code), (4, src.code), (16, 0)])
  | .vpack d a k s32 part dst =>
    some (.v, 0x31, [(6, d), (6, a), (12, 0), (3, k), (1, s32.toNat), (1, 0), (2, part), (4, dst.code), (16, 0)])
  | .vunpk d a k part src =>
    some (.v, 0x32, [(6, d), (6, a), (12, 0), (3, k), (2, 0), (2, part), (4, src.code), (16, 0)])
  | .vcmp d a b k cc =>
    some (.v, 0x38, [(6, d), (6, a), (6, b), (6, 0), (3, k), (5, 0), (3, cc.code), (16, 0)])
  | .vfcmp d a b k cc =>
    some (.v, 0x39, [(6, d), (6, a), (6, b), (6, 0), (3, k), (5, 0), (3, cc.code), (16, 0)])
  | .vnf d a k t =>
    some (.v, 0x3a, [(6, d), (6, a), (12, 0), (3, k), (6, 0), (2, t.code), (16, 0)])
  | .vnfq d a b k q t =>
    some (.v, 0x3b, [(6, d), (6, a), (6, b), (6, 0), (3, k), (5, 0), (1, q.toNat), (2, t.code), (16, 0)])
  | .mand d a b inv =>
    some (.v, 0x40, [(6, d), (6, a), (6, b), (16, 0), (1, inv.toNat), (16, 0)])
  | .mor d a b inv =>
    some (.v, 0x41, [(6, d), (6, a), (6, b), (16, 0), (1, inv.toNat), (16, 0)])
  | .mxor d a b inv =>
    some (.v, 0x42, [(6, d), (6, a), (6, b), (16, 0), (1, inv.toNat), (16, 0)])
  | .mnot d a =>
    some (.v, 0x43, [(6, d), (6, a), (39, 0)])
  | .mpop d a k =>
    some (.v, 0x44, [(6, d), (6, a), (12, 0), (3, k), (24, 0)])
  | .many d a k all =>
    some (.v, 0x45, [(6, d), (6, a), (12, 0), (3, k), (7, 0), (1, all.toNat), (16, 0)])
  | .vperm d a b k =>
    some (.v, 0x48, [(6, d), (6, a), (6, b), (6, 0), (3, k), (24, 0)])
  | .vshuf d a b k pat =>
    some (.v, 0x49, [(6, d), (6, a), (6, b), (6, 0), (3, k), (5, 0), (3, pat.code), (16, 0)])
  | .vrot d a b k z =>
    some (.v, 0x4a, [(6, d), (6, a), (6, b), (6, 0), (3, k), (7, 0), (1, z.toNat), (16, 0)])
  | .vsel d a b c k =>
    some (.v, 0x4b, [(6, d), (6, a), (6, b), (6, c), (3, k), (24, 0)])
  | .vext d a b sg =>
    some (.v, 0x4c, [(6, d), (6, a), (6, b), (16, 0), (1, sg.toNat), (16, 0)])
  | .vins d a b =>
    some (.v, 0x4d, [(6, d), (6, a), (6, b), (33, 0)])
  | .vradd d a k u w =>
    some (.v, 0x50, [(6, d), (6, a), (12, 0), (3, k), (5, 0), (1, u.toNat), (2, w.code), (16, 0)])
  | .vrmin d a k u w =>
    some (.v, 0x51, [(6, d), (6, a), (12, 0), (3, k), (5, 0), (1, u.toNat), (2, w.code), (16, 0)])
  | .vrmax d a k u w =>
    some (.v, 0x52, [(6, d), (6, a), (12, 0), (3, k), (5, 0), (1, u.toNat), (2, w.code), (16, 0)])
  | .vrfadd d a k seq =>
    some (.v, 0x53, [(6, d), (6, a), (12, 0), (3, k), (7, 0), (1, seq.toNat), (16, 0)])
  | .vrfmin d a k =>
    some (.v, 0x54, [(6, d), (6, a), (12, 0), (3, k), (24, 0)])
  | .vrfmax d a k =>
    some (.v, 0x55, [(6, d), (6, a), (12, 0), (3, k), (24, 0)])
  | .mma q aa as ba bs fmt kb z wb wa =>
    some (.m, 0x01, [(4, q), (6, aa), (6, as), (6, ba), (6, bs), (4, fmt.code), (6, kb), (2, 0), (1, z.toNat), (1, wb.toNat), (1, wa.toNat), (8, 0)])
  | .scx d a =>
    some (.m, 0x02, [(6, d), (6, a), (39, 0)])
  | .mdrn a b c p w fmt =>
    some (.m, 0x03, [(6, 0), (6, a), (6, b), (6, c), (5, 0), (1, p.toNat), (1, w.toNat), (4, fmt.code), (16, 0)])
  | .mdrnb d a b c p w fmt =>
    some (.m, 0x04, [(6, d), (6, a), (6, b), (6, c), (5, 0), (1, p.toNat), (1, w.toNat), (4, fmt.code), (16, 0)])
  | .mzero d p =>
    some (.m, 0x05, [(6, d), (28, 0), (1, p.toNat), (16, 0)])
  | .mmov d a p =>
    some (.m, 0x06, [(6, d), (6, a), (22, 0), (1, p.toNat), (16, 0)])
  | .mtrn d a p =>
    some (.m, 0x07, [(6, d), (6, a), (22, 0), (1, p.toNat), (16, 0)])
  | .mwrv d a k h =>
    some (.m, 0x08, [(6, d), (6, a), (12, 0), (3, k), (4, 0), (4, h), (16, 0)])
  | .mrdv d a k h =>
    some (.m, 0x09, [(6, d), (6, a), (12, 0), (3, k), (4, 0), (4, h), (16, 0)])
  | .mpset a =>
    some (.m, 0x0a, [(6, 0), (6, a), (39, 0)])
  | .mcset a =>
    some (.m, 0x0b, [(6, 0), (6, a), (39, 0)])
  | .mrpwr a =>
    some (.m, 0x0c, [(6, 0), (6, a), (39, 0)])
  | .msrd d sp =>
    some (.m, 0x0d, [(6, d), (6, sp.code), (39, 0)])
  | .mqwait a all =>
    some (.m, 0x0e, [(6, 0), (6, a), (22, 0), (1, all.toNat), (16, 0)])
  | .ld t a sz w off =>
    some (.l, 0x01, [(6, t), (6, a), (3, 0), (3, sz.code), (5, 0), (1, w.toNat), (27, off.toNat)])
  | .ldx d a b w sz =>
    some (.l, 0x02, [(6, d), (6, a), (6, b), (13, 0), (1, w.toNat), (3, sz.code), (16, 0)])
  | .st t a sz w off =>
    some (.l, 0x03, [(6, t), (6, a), (3, 0), (3, sz), (5, 0), (1, w.toNat), (27, off.toNat)])
  | .stx d a b w sz =>
    some (.l, 0x04, [(6, d), (6, a), (6, b), (13, 0), (1, w.toNat), (3, sz), (16, 0)])
  | .sti d a w sz imm =>
    some (.l, 0x05, [(6, d), (6, a), (4, 0), (1, w.toNat), (2, sz), (32, imm.toNat)])
  | .vld t a k w off =>
    some (.l, 0x08, [(6, t), (6, a), (3, k), (8, 0), (1, w.toNat), (27, off.toNat)])
  | .vst t a k w off =>
    some (.l, 0x09, [(6, t), (6, a), (3, k), (8, 0), (1, w.toNat), (27, off.toNat)])
  | .vlds d a b k w =>
    some (.l, 0x0a, [(6, d), (6, a), (6, b), (6, 0), (3, k), (7, 0), (1, w.toNat), (16, 0)])
  | .vsts d a b k w =>
    some (.l, 0x0b, [(6, d), (6, a), (6, b), (6, 0), (3, k), (7, 0), (1, w.toNat), (16, 0)])
  | .vgth d a b k w sh =>
    some (.l, 0x0c, [(6, d), (6, a), (6, b), (6, 0), (3, k), (5, 0), (1, w.toNat), (2, sh), (16, 0)])
  | .vsct d a b k w sh =>
    some (.l, 0x0d, [(6, d), (6, a), (6, b), (6, 0), (3, k), (5, 0), (1, w.toNat), (2, sh), (16, 0)])
  | .vldb t a k sz w off =>
    some (.l, 0x0e, [(6, t), (6, a), (3, k), (3, sz.code), (5, 0), (1, w.toNat), (27, off.toNat)])
  | .qld t a p w off =>
    some (.l, 0x10, [(6, t), (6, a), (5, 0), (1, p.toNat), (5, 0), (1, w.toNat), (27, off.toNat)])
  | .qst t a p w off =>
    some (.l, 0x11, [(6, t), (6, a), (5, 0), (1, p.toNat), (5, 0), (1, w.toNat), (27, off.toNat)])
  | .amo d a b sc ord sz op =>
    some (.l, 0x18, [(6, d), (6, a), (6, b), (3, 0), (3, sc.code), (3, 0), (2, ord.code), (2, sz), (4, op.code), (16, 0)])
  | .cas d a b c ord sz sc =>
    some (.l, 0x19, [(6, d), (6, a), (6, b), (6, c), (3, 0), (2, ord.code), (2, sz), (1, 0), (3, sc.code), (16, 0)])
  | .vamo d a b sc k ord x op =>
    some (.l, 0x1a, [(6, d), (6, a), (6, b), (3, 0), (3, sc.code), (3, k), (2, ord.code), (1, 0), (1, x.toNat), (4, op.code), (16, 0)])
  | .ald t a sz sc ord off =>
    some (.l, 0x1b, [(6, t), (6, a), (3, 0), (3, sz.code), (3, sc.code), (2, ord.code), (1, 0), (27, off.toNat)])
  | .xlat t a pi off =>
    some (.l, 0x20, [(6, t), (6, a), (5, 0), (1, pi.toNat), (6, 0), (27, off.toNat)])
  | .drain sc =>
    some (.l, 0x21, [(18, 0), (3, sc.code), (30, 0)])
  | .mcast t a k off =>
    some (.l, 0x22, [(6, t), (6, a), (3, k), (9, 0), (27, off.toNat)])
  | .bfmt a code imm =>
    some (.l, 0x25, [(6, 0), (6, a), (3, 0), (4, code.toNat), (32, imm.toNat)])
  | .ldt t a sz f off =>
    some (.l, 0x26, [(6, t), (6, a), (3, 0), (3, sz.code), (1, 0), (4, f), (1, 0), (27, off.toNat)])
  | .vldt t a k f off =>
    some (.l, 0x27, [(6, t), (6, a), (3, k), (4, 0), (4, f), (1, 0), (27, off.toNat)])
  | .note a sw v =>
    some (.x, 0x01, [(6, 0), (6, a), (6, 0), (17, sw.toNat), (7, 0), (1, v.toNat), (8, 0)])
  | .pull a b sw last =>
    some (.x, 0x02, [(6, 0), (6, a), (6, b), (17, sw.toNat), (7, 0), (1, last.toNat), (8, 0)])
  | .pullRank b sw =>
    some (.x, 0x02, [(12, 0), (6, b), (17, sw.toNat), (8, 2), (8, 0)])
  | .pulladd a b sw last =>
    some (.x, 0x03, [(6, 0), (6, a), (6, b), (17, sw.toNat), (7, 0), (1, last.toNat), (8, 0)])
  | .decl b =>
    some (.x, 0x04, [(12, 0), (6, b), (33, 0)])
  | .wdraw b =>
    some (.x, 0x05, [(12, 0), (6, b), (33, 0)])
  | .nbrd d a w =>
    some (.x, 0x08, [(6, d), (6, a), (15, 0), (8, w), (16, 0)])
  | .nbcnt d sel =>
    some (.x, 0x09, [(6, d), (27, 0), (2, sel.code), (16, 0)])
  | .nbfind d a b any =>
    some (.x, 0x0a, [(6, d), (6, a), (6, b), (16, 0), (1, any.toNat), (16, 0)])
  | .pwinSet a b =>
    some (.x, 0x0b, [(6, 0), (6, a), (6, b), (33, 0)])
  | .pwinReset =>
    some (.x, 0x0b, [(34, 0), (1, 1), (16, 0)])
  | .rkset a =>
    some (.x, 0x0c, [(6, 0), (6, a), (39, 0)])
  | .ngrpNew d a b =>
    some (.x, 0x0d, [(6, d), (6, a), (6, b), (33, 0)])
  | .ngrpFree d a =>
    some (.x, 0x0d, [(6, d), (6, a), (22, 0), (1, 1), (16, 0)])
  | .rcont a b sw =>
    some (.x, 0x10, [(6, 0), (6, a), (6, b), (17, sw.toNat), (16, 0)])
  | .rroot a b sw =>
    some (.x, 0x11, [(6, 0), (6, a), (6, b), (17, sw.toNat), (16, 0)])
  | .agload a b sw =>
    some (.x, 0x18, [(6, 0), (6, a), (6, b), (17, sw.toNat), (16, 0)])
  | .agrel a =>
    some (.x, 0x19, [(6, 0), (6, a), (39, 0)])
  | .agrun a b sw =>
    some (.x, 0x1a, [(6, 0), (6, a), (6, b), (17, sw.toNat), (16, 0)])
  | .agwait b =>
    some (.x, 0x1b, [(12, 0), (6, b), (33, 0)])
  | .rget d a b sw =>
    some (.x, 0x20, [(6, d), (6, a), (6, b), (17, sw.toNat), (16, 0)])
  | .rput d a b sw v =>
    some (.x, 0x21, [(6, d), (6, a), (6, b), (17, sw.toNat), (7, 0), (1, v.toNat), (8, 0)])
  | .rflush b sw =>
    some (.x, 0x22, [(12, 0), (6, b), (17, sw.toNat), (16, 0)])
  | .xstat d sel =>
    some (.x, 0x28, [(6, d), (26, 0), (3, sel.code), (16, 0)])
  | .ckey a b sw =>
    some (.x, 0xe0, [(6, 0), (6, a), (6, b), (17, sw.toNat), (16, 0)])
  | .copy a b sw ws wd n =>
    some (.a, 0x01, [(6, 0), (6, a), (6, b), (17, sw.toNat), (4, 0), (1, ws.toNat), (1, wd.toNat), (2, n), (8, 0)])
  | .copyc a b sw wd n =>
    some (.a, 0x02, [(6, 0), (6, a), (6, b), (17, sw.toNat), (5, 0), (1, wd.toNat), (2, n), (8, 0)])
  | .spawn d a b ar =>
    some (.a, 0x08, [(6, d), (6, a), (6, b), (24, 0), (1, ar.toNat), (8, 0)])
  | .fref d a =>
    some (.a, 0x09, [(6, d), (6, a), (39, 0)])
  | .fdrop d a =>
    some (.a, 0x0a, [(6, d), (6, a), (39, 0)])
  | .fset d a =>
    some (.a, 0x0c, [(6, d), (6, a), (39, 0)])
  | .fstat d a =>
    some (.a, 0x0f, [(6, d), (6, a), (39, 0)])
  | .fawait d a c =>
    some (.a, 0x0b, [(6, d), (6, a), (6, 0), (6, c), (27, 0)])
  | .fpin =>
    some (.a, 0x0d, [(51, 0)])
  | .funpin =>
    some (.a, 0x0e, [(51, 0)])
  | .ssnap d a b =>
    some (.a, 0x10, [(6, d), (6, a), (6, b), (33, 0)])
  | .sroll d a b =>
    some (.a, 0x11, [(6, d), (6, a), (6, b), (33, 0)])
  | .sfork d a b =>
    some (.a, 0x12, [(6, d), (6, a), (6, b), (33, 0)])
  | .sld d a b sw =>
    some (.a, 0x13, [(6, d), (6, a), (6, b), (17, sw.toNat), (16, 0)])
  | .sst d a b sw =>
    some (.a, 0x14, [(6, d), (6, a), (6, b), (17, sw.toNat), (16, 0)])
  | .sdrop d a b sq =>
    some (.a, 0x15, [(6, d), (6, a), (6, b), (24, 0), (1, sq.toNat), (8, 0)])
  | .kvst d a sw =>
    some (.a, 0x18, [(6, d), (6, a), (6, 0), (17, sw.toNat), (16, 0)])
  | .kvnx d b =>
    some (.a, 0x19, [(6, d), (6, 0), (6, b), (33, 0)])
  | .kvnxEnd d b =>
    some (.a, 0x19, [(6, d), (6, 0), (6, b), (17, 0), (8, 1), (8, 0)])
  | .hmsg d a b sw code =>
    some (.a, 0x1a, [(6, d), (6, a), (6, b), (17, sw.toNat), (4, 0), (4, code.toNat), (8, 0)])
  | .swset d a b sw g =>
    some (.a, 0x20, [(6, d), (6, a), (6, b), (17, sw.toNat), (7, 0), (1, g.toNat), (8, 0)])
  | .swadd a b sw =>
    some (.a, 0x21, [(6, 0), (6, a), (6, b), (17, sw.toNat), (16, 0)])
  | .swrd d a sw hi =>
    some (.a, 0x22, [(6, d), (6, a), (6, 0), (17, sw.toNat), (7, 0), (1, hi.toNat), (8, 0)])
  | .rtwr d a =>
    some (.a, 0x23, [(6, d), (6, a), (39, 0)])
  | .rtrd d a =>
    some (.a, 0x24, [(6, d), (6, a), (39, 0)])
  | .rtarm a =>
    some (.a, 0x25, [(6, 0), (6, a), (39, 0)])
  | .qmap a b =>
    some (.a, 0xe0, [(6, 0), (6, a), (6, b), (33, 0)])
  | .qunmap b =>
    some (.a, 0xe1, [(12, 0), (6, b), (33, 0)])
  | .qkick b =>
    some (.a, 0xe2, [(12, 0), (6, b), (33, 0)])
  | _ => none

/-- R105: the slot and the slot value that stand for an instruction with its predicate. -/
def encodeSlot (o : SlotOp) : Option (SlotKind × BitVec 64) :=
  (layout o.ins).map fun (k, op, fs) =>
    let (op', x) := match o.ins with
      | .hint => (op + o.bits / 2 ^ 51, o.bits % 2 ^ 51)
      | .pref | .prefw => (op, o.bits)
      | _ => (op, join fs)
    (k, BitVec.ofNat 64 (join [(8, op'), (4, o.pred), (1, o.neg.toNat), (51, x)]))

/-- R107 to R109: a slot operation whose header and kept bits a slot value can hold. -/
def slotWf (o : SlotOp) : Bool :=
  decide (o.pred < 16) && Sys2Proof.wf o.ins &&
  match o.ins with
  | .hint => decide (o.bits < 16 * 2 ^ 51)
  | .pref | .prefw => decide (o.bits < 2 ^ 51) && (prefOperands o.bits).isSome
  | _ => o.bits == 0

/-- The slot value of an instruction that is always executed (PRED = 0, N = 0). -/
def encode (i : Instr) : Option (BitVec 64) := (encodeSlot ⟨0, false, i, 0⟩).map Prod.snd

end Sys2Proof
end

