-- ==== Sys2Proof/Machine/Operands.lean ====
section
/-!
DEFINITION. The operands of every instruction: what it reads and what it names as a destination (R111, R113, R117),
its scalar sources (R115, R363), and which instructions are barriers and take implicit marks (R90, R118, R259).
-/

namespace Sys2Proof.Machine

/-- A tile, or the pair that starts at it (R42, R111). -/
def tilePair (p : Bool) (n : Nat) : List Reg := if p then [.q n, .q (n + 1)] else [.q n]

/-- The registers an instruction reads: its source fields, its mask, and the destination it merges into (R172). -/
def readsOf : Instr → List Reg
  | .brr a _ => [.s a]
  | .callr _ b _ => [.s b]
  | .ret a => [.s a]
  | .btab a b _ => [.s a, .s b]
  | .beq a b _ => [.s a, .s b]
  | .bne a b _ => [.s a, .s b]
  | .blt a b _ => [.s a, .s b]
  | .bge a b _ => [.s a, .s b]
  | .bltu a b _ => [.s a, .s b]
  | .bgeu a b _ => [.s a, .s b]
  | .loopn n _ => [.n n]
  | .loopx n => [.n n]
  | .waitG a b _ => [.s a, .s b]
  | .waitT a _ => [.s a]
  | .xabort _ a _ => [.s a]
  | .trap a _ => [.s a]
  | .rngr _ a _ => [.s a]
  | .rngw a b c => [.s a, .s b, .s c]
  | .ppwset a => [.s a]
  | .ctxsave a b _ => [.s a, .s b]
  | .ctxload a b _ _ => [.s a, .s b]
  | .shoot a b c _ => [.s a, .s b, .s c]
  | .wdset a _ _ => [.s a]
  | .add _ a b => [.s a, .s b]
  | .sub _ a b => [.s a, .s b]
  | .and _ a b => [.s a, .s b]
  | .or _ a b => [.s a, .s b]
  | .xor _ a b => [.s a, .s b]
  | .andn _ a b => [.s a, .s b]
  | .shl _ a b => [.s a, .s b]
  | .shr _ a b => [.s a, .s b]
  | .sra _ a b => [.s a, .s b]
  | .rol _ a b => [.s a, .s b]
  | .ror _ a b => [.s a, .s b]
  | .min _ a b => [.s a, .s b]
  | .max _ a b => [.s a, .s b]
  | .minu _ a b => [.s a, .s b]
  | .maxu _ a b => [.s a, .s b]
  | .clz _ a => [.s a]
  | .ctz _ a => [.s a]
  | .popc _ a => [.s a]
  | .bswap _ a => [.s a]
  | .sext _ a _ => [.s a]
  | .zext _ a _ => [.s a]
  | .bfx _ a b _ => [.s a, .s b]
  | .bfi _ a b c => [.s a, .s b, .s c]
  | .cmp _ a b _ => [.s a, .s b]
  | .sel _ a b c => [.s a, .s b, .f c]
  | .lea _ a b _ => [.s a, .s b]
  | .fland _ a b _ => [.f a, .f b]
  | .flor _ a b _ => [.f a, .f b]
  | .flxor _ a b _ => [.f a, .f b]
  | .addi _ a _ => [.s a]
  | .andi _ a _ => [.s a]
  | .ori _ a _ => [.s a]
  | .xori _ a _ => [.s a]
  | .shli _ a _ => [.s a]
  | .shri _ a _ => [.s a]
  | .srai _ a _ => [.s a]
  | .cmpi _ a _ _ => [.s a]
  | .movhi d _ => [.s d]
  | .mul _ a b => [.s a, .s b]
  | .mulh _ a b => [.s a, .s b]
  | .mulhu _ a b => [.s a, .s b]
  | .lcrd _ a => [.lc a]
  | .lcwr _ a => [.s a]
  | .nrd _ a _ => [.n a]
  | .nwr _ a _ => [.s a]
  | .fadd _ a b _ => [.s a, .s b]
  | .fsub _ a b _ => [.s a, .s b]
  | .fmul _ a b _ => [.s a, .s b]
  | .fmin _ a b _ => [.s a, .s b]
  | .fmax _ a b _ => [.s a, .s b]
  | .fcpys _ a b _ => [.s a, .s b]
  | .fma _ a b c _ => [.s a, .s b, .s c]
  | .fms _ a b c _ => [.s a, .s b, .s c]
  | .fnma _ a b c _ => [.s a, .s b, .s c]
  | .fabs _ a _ => [.s a]
  | .fneg _ a _ => [.s a]
  | .fclass _ a _ => [.s a]
  | .fsqrt _ a _ => [.s a]
  | .frcp _ a _ => [.s a]
  | .frsq _ a _ => [.s a]
  | .fcmp _ a b _ _ => [.s a, .s b]
  | .fcvt _ a _ _ => [.s a]
  | .ftoi _ a _ _ _ => [.s a]
  | .itof _ a _ _ => [.s a]
  | .frnd _ a _ _ => [.s a]
  | .sysw a _ => [.s a]
  | .vadd d a b k _ => [.v a, .v b, .m k] ++ (if k = 0 then [] else [.v d])
  | .vsub d a b k _ => [.v a, .v b, .m k] ++ (if k = 0 then [] else [.v d])
  | .vmul d a b k _ => [.v a, .v b, .m k] ++ (if k = 0 then [] else [.v d])
  | .vmulh d a b k _ _ => [.v a, .v b, .m k] ++ (if k = 0 then [] else [.v d])
  | .vand d a b k _ => [.v a, .v b, .m k] ++ (if k = 0 then [] else [.v d])
  | .vor d a b k _ => [.v a, .v b, .m k] ++ (if k = 0 then [] else [.v d])
  | .vxor d a b k _ => [.v a, .v b, .m k] ++ (if k = 0 then [] else [.v d])
  | .vshl d a b k _ => [.v a, .v b, .m k] ++ (if k = 0 then [] else [.v d])
  | .vshr d a b k _ => [.v a, .v b, .m k] ++ (if k = 0 then [] else [.v d])
  | .vsra d a b k _ => [.v a, .v b, .m k] ++ (if k = 0 then [] else [.v d])
  | .vmin d a b k _ => [.v a, .v b, .m k] ++ (if k = 0 then [] else [.v d])
  | .vmax d a b k _ => [.v a, .v b, .m k] ++ (if k = 0 then [] else [.v d])
  | .vminu d a b k _ => [.v a, .v b, .m k] ++ (if k = 0 then [] else [.v d])
  | .vmaxu d a b k _ => [.v a, .v b, .m k] ++ (if k = 0 then [] else [.v d])
  | .vabs d a k _ => [.v a, .m k] ++ (if k = 0 then [] else [.v d])
  | .vadds d a b k _ _ => [.v a, .v b, .m k] ++ (if k = 0 then [] else [.v d])
  | .vsubs d a b k _ _ => [.v a, .v b, .m k] ++ (if k = 0 then [] else [.v d])
  | .vaddi d a k _ _ => [.v a, .m k] ++ (if k = 0 then [] else [.v d])
  | .vshli d a k _ _ => [.v a, .m k] ++ (if k = 0 then [] else [.v d])
  | .vshri d a k _ _ => [.v a, .m k] ++ (if k = 0 then [] else [.v d])
  | .vsrai d a k _ _ => [.v a, .m k] ++ (if k = 0 then [] else [.v d])
  | .vmovi d k _ _ => [.m k] ++ (if k = 0 then [] else [.v d])
  | .vbcast d a k _ => [.s a, .m k] ++ (if k = 0 then [] else [.v d])
  | .vfadd d a b k => [.v a, .v b, .m k] ++ (if k = 0 then [] else [.v d])
  | .vfsub d a b k => [.v a, .v b, .m k] ++ (if k = 0 then [] else [.v d])
  | .vfmul d a b k => [.v a, .v b, .m k] ++ (if k = 0 then [] else [.v d])
  | .vfmin d a b k => [.v a, .v b, .m k] ++ (if k = 0 then [] else [.v d])
  | .vfmax d a b k => [.v a, .v b, .m k] ++ (if k = 0 then [] else [.v d])
  | .vfma d a b c k => [.v a, .v b, .v c, .m k] ++ (if k = 0 then [] else [.v d])
  | .vfms d a b c k => [.v a, .v b, .v c, .m k] ++ (if k = 0 then [] else [.v d])
  | .vfabs d a k => [.v a, .m k] ++ (if k = 0 then [] else [.v d])
  | .vfneg d a k => [.v a, .m k] ++ (if k = 0 then [] else [.v d])
  | .vfrcp d a k => [.v a, .m k] ++ (if k = 0 then [] else [.v d])
  | .vfrsq d a k => [.v a, .m k] ++ (if k = 0 then [] else [.v d])
  | .vfexp d a k => [.v a, .m k] ++ (if k = 0 then [] else [.v d])
  | .vcvt d a k _ _ => [.v a, .m k] ++ (if k = 0 then [] else [.v d])
  | .vpack d a k _ _ _ => [.v d, .v a, .m k]
  | .vunpk d a k _ _ => [.v a, .m k] ++ (if k = 0 then [] else [.v d])
  | .vcmp _ a b k _ => [.v a, .v b, .m k]
  | .vfcmp _ a b k _ => [.v a, .v b, .m k]
  | .vnf _ a k _ => [.v a, .m k]
  | .vnfq _ a b k _ _ => [.v a, .s b, .m k]
  | .mand _ a b _ => [.m a, .m b]
  | .mor _ a b _ => [.m a, .m b]
  | .mxor _ a b _ => [.m a, .m b]
  | .mnot _ a => [.m a]
  | .mpop _ a k => [.m a, .m k]
  | .many _ a k _ => [.m a, .m k]
  | .vperm d a b k => [.v a, .v b, .m k] ++ (if k = 0 then [] else [.v d])
  | .vshuf d a b k _ => [.v a, .v b, .m k] ++ (if k = 0 then [] else [.v d])
  | .vrot d a b k _ => [.v a, .s b, .m k] ++ (if k = 0 then [] else [.v d])
  | .vsel d a b c k => [.v a, .v b, .m c, .m k] ++ (if k = 0 then [] else [.v d])
  | .vext _ a b _ => [.v a, .s b]
  | .vins d a b => [.v d, .s a, .s b]
  | .vradd _ a k _ _ => [.v a, .m k]
  | .vrmin _ a k _ _ => [.v a, .m k]
  | .vrmax _ a k _ _ => [.v a, .m k]
  | .vrfadd _ a k _ => [.v a, .m k]
  | .vrfmin _ a k => [.v a, .m k]
  | .vrfmax _ a k => [.v a, .m k]
  | .mma q aa as ba bs fmt _ _ _ _ => [.s aa, .s as, .s ba, .s bs] ++ tilePair (fmt == .b64) q
  | .scx _ a => [.s a]
  | .mdrn a b c p _ _ => [.s b, .s c] ++ tilePair p a
  | .mdrnb d a b c p _ _ => [.s d, .s b, .s c] ++ tilePair p a
  | .mmov _ a p => tilePair p a
  | .mtrn _ a p => tilePair p a
  | .mwrv d a k _ => [.q d, .v a, .m k]
  | .mrdv d a k _ => [.q a, .m k] ++ (if k = 0 then [] else [.v d])
  | .mpset a => [.s a]
  | .mcset a => [.s a]
  | .mrpwr a => [.s a]
  | .mqwait a _ => [.q a]
  | .ld _ a _ _ _ => [.s a]
  | .ldx _ a b _ _ => [.s a, .s b]
  | .st t a _ _ _ => [.s t, .s a]
  | .stx d a b _ _ => [.s d, .s a, .s b]
  | .sti _ a _ _ _ => [.s a]
  | .vld t a k _ _ => [.s a, .m k] ++ (if k = 0 then [] else [.v t])
  | .vst t a k _ _ => [.v t, .s a, .m k]
  | .vlds d a b k _ => [.s a, .s b, .m k] ++ (if k = 0 then [] else [.v d])
  | .vsts d a b k _ => [.v d, .s a, .s b, .m k]
  | .vgth d a b k _ _ => [.s a, .v b, .m k] ++ (if k = 0 then [] else [.v d])
  | .vsct d a b k _ _ => [.v d, .s a, .v b, .m k]
  | .vldb t a k _ _ _ => [.s a, .m k] ++ (if k = 0 then [] else [.v t])
  | .qld _ a _ _ _ => [.s a]
  | .qst t a p _ _ => [.s a] ++ tilePair p t
  | .amo _ a b _ _ _ _ => [.s a, .s b]
  | .cas _ a b c _ _ _ => [.s a, .s b, .s c]
  | .vamo d a b _ k _ _ _ => [.v d, .s a, .v b, .m k]
  | .ald _ a _ _ _ _ => [.s a]
  | .xlat _ a _ _ => [.s a]
  | .mcast t a k _ => [.v t, .s a, .m k]
  | .bfmt a _ _ => [.s a]
  | .ldt _ a _ _ _ => [.s a]
  | .vldt t a k _ _ => [.s a, .m k] ++ (if k = 0 then [] else [.v t])
  | .note a _ _ => [.s a]
  | .pull a b _ _ => [.s a, .s b]
  | .pullRank b _ => [.s b]
  | .pulladd a b _ _ => [.s a, .s b]
  | .decl b => [.s b]
  | .wdraw b => [.s b]
  | .nbrd _ a _ => [.s a]
  | .nbfind _ a b _ => [.s a, .s b]
  | .pwinSet a b => [.s a, .s b]
  | .rkset a => [.s a]
  | .ngrpNew _ a b => [.s a, .s b]
  | .ngrpFree _ a => [.s a]
  | .rcont a b _ => [.s a, .s b]
  | .rroot a b _ => [.s a, .s b]
  | .agload a b _ => [.s a, .s b]
  | .agrel a => [.s a]
  | .agrun a b _ => [.s a, .s b]
  | .agwait b => [.s b]
  | .rget d a b _ => [.s d, .s a, .s b]
  | .rput d a b _ _ => [.s d, .s a, .s b]
  | .rflush b _ => [.s b]
  | .ckey a b _ => [.s a, .s b]
  | .copy a b _ _ _ n => [.s a, .s b, .n n]
  | .copyc a b _ _ n => [.s a, .s b, .n n]
  | .spawn _ a b _ => [.s a, .s b]
  | .fref _ a => [.s a]
  | .fdrop _ a => [.s a]
  | .fset _ a => [.s a]
  | .fstat _ a => [.s a]
  | .fawait _ a _ => [.s a]
  | .ssnap _ a b => [.s a, .s b]
  | .sroll _ a b => [.s a, .s b]
  | .sfork _ a b => [.s a, .s b]
  | .sld _ a b _ => [.s a, .s b]
  | .sst _ a b _ => [.s a, .s b]
  | .sdrop _ a b _ => [.s a, .s b]
  | .kvst _ a _ => [.s a]
  | .kvnx _ b => [.s b]
  | .kvnxEnd _ b => [.s b]
  | .hmsg _ a b _ _ => [.s a, .s b]
  | .swset d a b _ _ => [.s d, .s a, .s b]
  | .swadd a b _ => [.s a, .s b]
  | .swrd _ a _ _ => [.s a]
  | .rtwr _ a => [.s a]
  | .rtarm a => [.s a]
  | .qmap a b => [.s a, .s b]
  | .qunmap b => [.s b]
  | .qkick b => [.s b]
  | _ => []

/-- The destinations an instruction names, explicit or implicit (R111). -/
def writesOf : Instr → List Reg
  | .call a _ => [.s a]
  | .callr a _ _ => [.s a]
  | .loopn _ _ => [.lc 0, .lc 1, .lc 2, .lc 3, .lc 4, .lc 5]
  | .xabort d _ _ => [.s d]
  | .rngr d _ _ => [.s d]
  | .ppwset _ => [.ppw]
  | .add d _ _ => [.s d]
  | .sub d _ _ => [.s d]
  | .and d _ _ => [.s d]
  | .or d _ _ => [.s d]
  | .xor d _ _ => [.s d]
  | .andn d _ _ => [.s d]
  | .shl d _ _ => [.s d]
  | .shr d _ _ => [.s d]
  | .sra d _ _ => [.s d]
  | .rol d _ _ => [.s d]
  | .ror d _ _ => [.s d]
  | .min d _ _ => [.s d]
  | .max d _ _ => [.s d]
  | .minu d _ _ => [.s d]
  | .maxu d _ _ => [.s d]
  | .clz d _ => [.s d]
  | .ctz d _ => [.s d]
  | .popc d _ => [.s d]
  | .bswap d _ => [.s d]
  | .sext d _ _ => [.s d]
  | .zext d _ _ => [.s d]
  | .bfx d _ _ _ => [.s d]
  | .bfi d _ _ _ => [.s d]
  | .cmp d _ _ _ => [.f d]
  | .sel d _ _ _ => [.s d]
  | .lea d _ _ _ => [.s d]
  | .fland d _ _ _ => [.f d]
  | .flor d _ _ _ => [.f d]
  | .flxor d _ _ _ => [.f d]
  | .addi d _ _ => [.s d]
  | .andi d _ _ => [.s d]
  | .ori d _ _ => [.s d]
  | .xori d _ _ => [.s d]
  | .shli d _ _ => [.s d]
  | .shri d _ _ => [.s d]
  | .srai d _ _ => [.s d]
  | .cmpi d _ _ _ => [.f d]
  | .movi d _ => [.s d]
  | .movhi d _ => [.s d]
  | .mul d _ _ => [.s d]
  | .mulh d _ _ => [.s d]
  | .mulhu d _ _ => [.s d]
  | .rdsp d _ => [.s d]
  | .lcrd d _ => [.s d]
  | .lcwr d _ => [.lc d]
  | .nrd d _ _ => [.s d]
  | .nwr d _ _ => [.n d]
  | .fadd d _ _ _ => [.s d]
  | .fsub d _ _ _ => [.s d]
  | .fmul d _ _ _ => [.s d]
  | .fmin d _ _ _ => [.s d]
  | .fmax d _ _ _ => [.s d]
  | .fcpys d _ _ _ => [.s d]
  | .fma d _ _ _ _ => [.s d]
  | .fms d _ _ _ _ => [.s d]
  | .fnma d _ _ _ _ => [.s d]
  | .fabs d _ _ => [.s d]
  | .fneg d _ _ => [.s d]
  | .fclass d _ _ => [.s d]
  | .fsqrt d _ _ => [.s d]
  | .frcp d _ _ => [.s d]
  | .frsq d _ _ => [.s d]
  | .fcmp d _ _ _ _ => [.f d]
  | .fcvt d _ _ _ => [.s d]
  | .ftoi d _ _ _ _ => [.s d]
  | .itof d _ _ _ => [.s d]
  | .frnd d _ _ _ => [.s d]
  | .sysr d _ => [.s d]
  | .sysw _ reg => [.sys reg]
  | .vadd d _ _ _ _ => [.v d]
  | .vsub d _ _ _ _ => [.v d]
  | .vmul d _ _ _ _ => [.v d]
  | .vmulh d _ _ _ _ _ => [.v d]
  | .vand d _ _ _ _ => [.v d]
  | .vor d _ _ _ _ => [.v d]
  | .vxor d _ _ _ _ => [.v d]
  | .vshl d _ _ _ _ => [.v d]
  | .vshr d _ _ _ _ => [.v d]
  | .vsra d _ _ _ _ => [.v d]
  | .vmin d _ _ _ _ => [.v d]
  | .vmax d _ _ _ _ => [.v d]
  | .vminu d _ _ _ _ => [.v d]
  | .vmaxu d _ _ _ _ => [.v d]
  | .vabs d _ _ _ => [.v d]
  | .vadds d _ _ _ _ _ => [.v d]
  | .vsubs d _ _ _ _ _ => [.v d]
  | .vaddi d _ _ _ _ => [.v d]
  | .vshli d _ _ _ _ => [.v d]
  | .vshri d _ _ _ _ => [.v d]
  | .vsrai d _ _ _ _ => [.v d]
  | .vmovi d _ _ _ => [.v d]
  | .vbcast d _ _ _ => [.v d]
  | .vfadd d _ _ _ => [.v d]
  | .vfsub d _ _ _ => [.v d]
  | .vfmul d _ _ _ => [.v d]
  | .vfmin d _ _ _ => [.v d]
  | .vfmax d _ _ _ => [.v d]
  | .vfma d _ _ _ _ => [.v d]
  | .vfms d _ _ _ _ => [.v d]
  | .vfabs d _ _ => [.v d]
  | .vfneg d _ _ => [.v d]
  | .vfrcp d _ _ => [.v d]
  | .vfrsq d _ _ => [.v d]
  | .vfexp d _ _ => [.v d]
  | .vcvt d _ _ _ _ => [.v d]
  | .vpack d _ _ _ _ _ => [.v d]
  | .vunpk d _ _ _ _ => [.v d]
  | .vcmp d _ _ _ _ => [.m d]
  | .vfcmp d _ _ _ _ => [.m d]
  | .vnf d _ _ _ => [.m d]
  | .vnfq d _ _ _ _ _ => [.m d]
  | .mand d _ _ _ => [.m d]
  | .mor d _ _ _ => [.m d]
  | .mxor d _ _ _ => [.m d]
  | .mnot d _ => [.m d]
  | .mpop d _ _ => [.s d]
  | .many d _ _ _ => [.f d]
  | .vperm d _ _ _ => [.v d]
  | .vshuf d _ _ _ _ => [.v d]
  | .vrot d _ _ _ _ => [.v d]
  | .vsel d _ _ _ _ => [.v d]
  | .vext d _ _ _ => [.s d]
  | .vins d _ _ => [.v d]
  | .vradd d _ _ _ _ => [.s d]
  | .vrmin d _ _ _ _ => [.s d]
  | .vrmax d _ _ _ _ => [.s d]
  | .vrfadd d _ _ _ => [.s d]
  | .vrfmin d _ _ => [.s d]
  | .vrfmax d _ _ => [.s d]
  | .mma q _ _ _ _ fmt _ _ _ _ => tilePair (fmt == .b64) q
  | .mzero d p => tilePair p d
  | .mmov d _ p => tilePair p d
  | .mtrn d _ p => tilePair p d
  | .mwrv d _ _ _ => [.q d]
  | .mrdv d _ _ _ => [.v d]
  | .mpset _ => [.mpat]
  | .mcset _ => [.mcfg]
  | .mrpwr _ => [.mrp]
  | .msrd d _ => [.s d]
  | .ld t _ _ _ _ => [.s t]
  | .ldx d _ _ _ _ => [.s d]
  | .vld t _ _ _ _ => [.v t]
  | .vlds d _ _ _ _ => [.v d]
  | .vgth d _ _ _ _ _ => [.v d]
  | .vldb t _ _ _ _ _ => [.v t]
  | .qld t _ p _ _ => tilePair p t
  | .amo d _ _ _ _ _ _ => [.s d]
  | .cas d _ _ _ _ _ _ => [.s d]
  | .vamo d _ _ _ _ _ _ _ => [.v d]
  | .ald t _ _ _ _ _ => [.s t]
  | .xlat t _ _ _ => [.s t]
  | .ldt t _ _ f _ => [.s t, .f f]
  | .vldt t _ _ f _ => [.v t, .f f]
  | .nbrd d _ _ => [.s d]
  | .nbcnt d _ => [.s d]
  | .nbfind d _ _ _ => [.s d]
  | .ngrpNew d _ _ => [.s d]
  | .ngrpFree d _ => [.s d]
  | .xstat d _ => [.s d]
  | .spawn d _ _ _ => [.s d]
  | .fref d _ => [.s d]
  | .fdrop d _ => [.s d]
  | .fset d _ => [.s d]
  | .fstat d _ => [.s d]
  | .fawait d _ c => [.s d, .f c]
  | .ssnap d _ _ => [.s d]
  | .sroll d _ _ => [.s d]
  | .sfork d _ _ => [.s d]
  | .sld d _ _ _ => [.s d]
  | .sst d _ _ _ => [.s d]
  | .sdrop d _ _ _ => [.s d]
  | .kvst d _ _ => [.s d]
  | .kvnx d _ => [.s d]
  | .kvnxEnd d _ => [.s d]
  | .hmsg d _ _ _ _ => [.s d]
  | .swrd d _ _ _ => [.s d]
  | .rtrd d _ => [.s d]
  | _ => []

/-- R363: the scalar registers an instruction reads, in the order AA, AS, BA, BS in form MM and A, B, C, then D or T otherwise. -/
def scalarsOf : Instr → List Nat
  | .brr a _ => [a]
  | .callr _ b _ => [b]
  | .ret a => [a]
  | .btab a b _ => [a, b]
  | .beq a b _ => [a, b]
  | .bne a b _ => [a, b]
  | .blt a b _ => [a, b]
  | .bge a b _ => [a, b]
  | .bltu a b _ => [a, b]
  | .bgeu a b _ => [a, b]
  | .waitG a b _ => [a, b]
  | .waitT a _ => [a]
  | .xabort _ a _ => [a]
  | .trap a _ => [a]
  | .rngr _ a _ => [a]
  | .rngw a b c => [a, b, c]
  | .ppwset a => [a]
  | .ctxsave a b _ => [a, b]
  | .ctxload a b _ _ => [a, b]
  | .shoot a b c _ => [a, b, c]
  | .wdset a _ _ => [a]
  | .add _ a b => [a, b]
  | .sub _ a b => [a, b]
  | .and _ a b => [a, b]
  | .or _ a b => [a, b]
  | .xor _ a b => [a, b]
  | .andn _ a b => [a, b]
  | .shl _ a b => [a, b]
  | .shr _ a b => [a, b]
  | .sra _ a b => [a, b]
  | .rol _ a b => [a, b]
  | .ror _ a b => [a, b]
  | .min _ a b => [a, b]
  | .max _ a b => [a, b]
  | .minu _ a b => [a, b]
  | .maxu _ a b => [a, b]
  | .clz _ a => [a]
  | .ctz _ a => [a]
  | .popc _ a => [a]
  | .bswap _ a => [a]
  | .sext _ a _ => [a]
  | .zext _ a _ => [a]
  | .bfx _ a b _ => [a, b]
  | .bfi _ a b c => [a, b, c]
  | .cmp _ a b _ => [a, b]
  | .sel _ a b _ => [a, b]
  | .lea _ a b _ => [a, b]
  | .addi _ a _ => [a]
  | .andi _ a _ => [a]
  | .ori _ a _ => [a]
  | .xori _ a _ => [a]
  | .shli _ a _ => [a]
  | .shri _ a _ => [a]
  | .srai _ a _ => [a]
  | .cmpi _ a _ _ => [a]
  | .movhi d _ => [d]
  | .mul _ a b => [a, b]
  | .mulh _ a b => [a, b]
  | .mulhu _ a b => [a, b]
  | .lcwr _ a => [a]
  | .nwr _ a _ => [a]
  | .fadd _ a b _ => [a, b]
  | .fsub _ a b _ => [a, b]
  | .fmul _ a b _ => [a, b]
  | .fmin _ a b _ => [a, b]
  | .fmax _ a b _ => [a, b]
  | .fcpys _ a b _ => [a, b]
  | .fma _ a b c _ => [a, b, c]
  | .fms _ a b c _ => [a, b, c]
  | .fnma _ a b c _ => [a, b, c]
  | .fabs _ a _ => [a]
  | .fneg _ a _ => [a]
  | .fclass _ a _ => [a]
  | .fsqrt _ a _ => [a]
  | .frcp _ a _ => [a]
  | .frsq _ a _ => [a]
  | .fcmp _ a b _ _ => [a, b]
  | .fcvt _ a _ _ => [a]
  | .ftoi _ a _ _ _ => [a]
  | .itof _ a _ _ => [a]
  | .frnd _ a _ _ => [a]
  | .sysw a _ => [a]
  | .vbcast _ a _ _ => [a]
  | .vnfq _ _ b _ _ _ => [b]
  | .vrot _ _ b _ _ => [b]
  | .vext _ _ b _ => [b]
  | .vins _ a b => [a, b]
  | .mma _ aa as ba bs _ _ _ _ _ => [aa, as, ba, bs]
  | .scx _ a => [a]
  | .mdrn _ b c _ _ _ => [b, c]
  | .mdrnb d _ b c _ _ _ => [b, c, d]
  | .mpset a => [a]
  | .mcset a => [a]
  | .mrpwr a => [a]
  | .ld _ a _ _ _ => [a]
  | .ldx _ a b _ _ => [a, b]
  | .st t a _ _ _ => [a, t]
  | .stx d a b _ _ => [a, b, d]
  | .sti _ a _ _ _ => [a]
  | .vld _ a _ _ _ => [a]
  | .vst _ a _ _ _ => [a]
  | .vlds _ a b _ _ => [a, b]
  | .vsts _ a b _ _ => [a, b]
  | .vgth _ a _ _ _ _ => [a]
  | .vsct _ a _ _ _ _ => [a]
  | .vldb _ a _ _ _ _ => [a]
  | .qld _ a _ _ _ => [a]
  | .qst _ a _ _ _ => [a]
  | .amo _ a b _ _ _ _ => [a, b]
  | .cas _ a b c _ _ _ => [a, b, c]
  | .vamo _ a _ _ _ _ _ _ => [a]
  | .ald _ a _ _ _ _ => [a]
  | .xlat _ a _ _ => [a]
  | .mcast _ a _ _ => [a]
  | .bfmt a _ _ => [a]
  | .ldt _ a _ _ _ => [a]
  | .vldt _ a _ _ _ => [a]
  | .note a _ _ => [a]
  | .pull a b _ _ => [a, b]
  | .pullRank b _ => [b]
  | .pulladd a b _ _ => [a, b]
  | .decl b => [b]
  | .wdraw b => [b]
  | .nbrd _ a _ => [a]
  | .nbfind _ a b _ => [a, b]
  | .pwinSet a b => [a, b]
  | .rkset a => [a]
  | .ngrpNew _ a b => [a, b]
  | .ngrpFree _ a => [a]
  | .rcont a b _ => [a, b]
  | .rroot a b _ => [a, b]
  | .agload a b _ => [a, b]
  | .agrel a => [a]
  | .agrun a b _ => [a, b]
  | .agwait b => [b]
  | .rget d a b _ => [a, b, d]
  | .rput d a b _ _ => [a, b, d]
  | .rflush b _ => [b]
  | .ckey a b _ => [a, b]
  | .copy a b _ _ _ _ => [a, b]
  | .copyc a b _ _ _ => [a, b]
  | .spawn _ a b _ => [a, b]
  | .fref _ a => [a]
  | .fdrop _ a => [a]
  | .fset _ a => [a]
  | .fstat _ a => [a]
  | .fawait _ a _ => [a]
  | .ssnap _ a b => [a, b]
  | .sroll _ a b => [a, b]
  | .sfork _ a b => [a, b]
  | .sld _ a b _ => [a, b]
  | .sst _ a b _ => [a, b]
  | .sdrop _ a b _ => [a, b]
  | .kvst _ a _ => [a]
  | .kvnx _ b => [b]
  | .kvnxEnd _ b => [b]
  | .hmsg _ a b _ _ => [a, b]
  | .swset d a b _ _ => [a, b, d]
  | .swadd a b _ => [a, b]
  | .swrd _ a _ _ => [a]
  | .rtwr _ a => [a]
  | .rtarm a => [a]
  | .qmap a b => [a, b]
  | .qunmap b => [b]
  | .qkick b => [b]
  | _ => []

/-- R363: the places of those scalars among the four a saved slip entry holds: A, B, C, then D or T; AA to BS in form MM. -/
def scalarPlaces : Instr → List Nat
  | .vnfq .. => [1]
  | .vrot .. => [1]
  | .vext .. => [1]
  | .mdrn .. => [1, 2]
  | .mdrnb .. => [1, 2, 3]
  | .st .. => [0, 3]
  | .stx .. => [0, 1, 3]
  | .pullRank .. => [1]
  | .decl .. => [1]
  | .wdraw .. => [1]
  | .agwait .. => [1]
  | .rget .. => [0, 1, 3]
  | .rput .. => [0, 1, 3]
  | .rflush .. => [1]
  | _ => [0, 1, 2, 3]

/-- Every register an instruction names, its port tile included (R41, R210). -/
def namesOf (i : Instr) : List Reg :=
  readsOf i ++ writesOf i ++ (match i with | .scx d _ => [.q d] | _ => [])

/-- R41: every vector register and tile named is one the partition word gives. -/
def fitsPartition (nv nt : Nat) (i : Instr) : Bool :=
  (namesOf i).all fun
    | .v n => decide (n < nv)
    | .q n => decide (n < nt)
    | _ => true

/-- The registers a slot operation reads: those of its instruction, and sA of a prefetch (R233). -/
def slotReads (o : SlotOp) : List Reg :=
  match o.ins with
  | .pref | .prefw => [.s (o.bits / 2 ^ 39 % 64)]
  | i => readsOf i

/-- R115, R363: the scalars a slot operation reads: those of its instruction, and sA of a prefetch (R233). -/
def opScalars (o : SlotOp) : List Nat :=
  match o.ins with
  | .pref | .prefw => [o.bits / 2 ^ 39 % 64]
  | i => scalarsOf i

/-- R40: s0, f0 and m0 are never written. -/
def hardwired : Reg → Bool
  | .s 0 | .f 0 | .m 0 => true
  | _ => false

/-- R223: the atomics. -/
def isAtomic : Instr → Bool
  | .amo .. | .cas .. | .vamo .. | .ald .. => true
  | _ => false

/-- R118, R126: the X-slot instructions that are requests to an engine. -/
def isXRequest : Instr → Bool
  | .note .. | .pull .. | .pullRank .. | .pulladd .. | .decl .. | .wdraw .. | .rcont .. | .rroot ..
  | .agload .. | .agrel .. | .agrun .. | .agwait .. | .rget .. | .rput .. | .rflush .. => true
  | _ => false

/-- The slot an instruction's encoding lies in. -/
def kindOf (i : Instr) : Option SlotKind := (layout i).map fun (k, _, _) => k

/-- R109: the instruction's opcode lies in the privileged space. -/
def isPrivileged (i : Instr) : Bool :=
  match layout i with
  | some (_, op, _) => decide (0xE0 ≤ op && op < 0xF0)
  | none => false

/-- R118: the barriers, when their predicate is true. -/
def isBarrier (i : Instr) : Bool :=
  match i with
  | .nop | .hint => false
  | .mark | .yield | .ychk | .done | .xabort .. | .trap .. | .waits | .isync => true
  | .drain sc => sc != .ctx
  | .sysr .. | .sysw .. => false
  | _ => isAtomic i || isXRequest i || kindOf i == some .a || isPrivileged i

/-- R90, R236, R259, R361: the instructions that take the implicit mark immediately before they issue. -/
def takesMark (i : Instr) : Bool :=
  match i with
  | .drain sc => sc != .ctx
  | .copy .. | .copyc .. | .spawn .. | .fref .. | .fdrop .. | .fset .. | .ssnap .. | .sroll .. | .sfork ..
  | .sld .. | .sst .. | .sdrop .. | .kvst .. | .kvnx .. | .kvnxEnd .. | .hmsg .. | .swset .. | .swadd ..
  | .rtwr .. | .rtarm .. | .ckey .. | .ctxsave .. | .ctxload .. | .shoot .. | .qmap .. | .qunmap ..
  | .qkick .. | .halt => true
  | _ => isAtomic i || isXRequest i

/-- R118: AGWAIT, DECL and the other X requests that never slip, and every slot but V, M, L and X. -/
def unitOf (i : Instr) : Option SlipUnit :=
  match kindOf i with
  | some .v => some .v
  | some .m => some .m
  | some .l => some .l
  | some .x => some .x
  | _ => none

/-- R112, R173, R213, R215, R217: the bound of the fixed-latency result of a V, M or L instruction; 0 where it has none. -/
def slipBound (i : Instr) : Nat :=
  match i with
  | .vld _ _ _ w _ | .vlds _ _ _ _ w | .vgth _ _ _ _ w _ | .vldb _ _ _ _ w _ => if w then 6 else 0
  | .mrdv .. => 40
  | .mpset _ | .mcset _ | .mrpwr _ => 1
  | .vfadd .. | .vfsub .. | .vfmul .. | .vfmin .. | .vfmax .. | .vfma .. | .vfms .. | .vfabs .. | .vfneg .. | .vfrcp ..
  | .vfrsq .. | .vfexp .. => 5
  | .vcvt .. | .vpack .. | .vunpk .. => 4
  | i => if unitOf i == some .v && (writesOf i).any (fun r => match r with | .v _ => true | _ => false) then 2 else 0

end Sys2Proof.Machine
end

