-- ==== Sys2Proof/Machine/Ops.lean ====
section
/-!
DEFINITION. The named operations every meaning is written over: the acting context, register reads and results in flight
(R39, R40, R112 to R117), stores, the store gate and the journal (R89, R402), marks and rollback (R401, R404), taking a trap
(R400, R406, R407) and returning from its service (R356).
-/

namespace Sys2Proof.Machine

/-! ### Contexts -/

/-- The context with a key (4 × core + context). -/
def ctxOf (s : State) (k : Nat) : Ctx := sget {} s.ctxs k

/-- The state with a context replaced. -/
def putCtx (s : State) (k : Nat) (c : Ctx) : State := { s with ctxs := sins s.ctxs k c }

/-- The state with a context changed. -/
def updCtx (s : State) (k : Nat) (f : Ctx → Ctx) : State := putCtx s k (f (ctxOf s k))

/-- The acting context. -/
def me (s : State) : Ctx := ctxOf s s.at_

/-- The state with the acting context replaced. -/
def setMe (s : State) (c : Ctx) : State := putCtx s s.at_ c

/-- The state with the acting context changed. -/
def updMe (s : State) (f : Ctx → Ctx) : State := setMe s (f (me s))

/-- The core of the acting context. -/
def myCore (s : State) : Nat := s.at_ / 4

/-- The quarter whose blocks govern the acting context. -/
def myLead (s : State) : Nat := leadCore s (myCore s)

/-- SPSIZE of the acting context's core (R48). -/
def mySp (s : State) : Nat := spSize s (myCore s)

/-! ### Time -/

/-- Insert a step that falls due in a cycle, after those already due in it. -/
def timerIns : List (Nat × Event) → Nat → Event → List (Nat × Event)
  | [], d, e => [(d, e)]
  | (d', e') :: ts, d, e => if d < d' then (d, e) :: (d', e') :: ts else (d', e') :: timerIns ts d e

/-- The state with a step that falls due in a cycle. -/
def addTimer (s : State) (due : Nat) (e : Event) : State := { s with timers := timerIns s.timers due e }

/-- The state with a step enabled now. -/
def addReady (s : State) (e : Event) : State := { s with ready := s.ready ++ [e] }

/-- The subject that names a context. -/
def subjOf (k : Nat) : Subject := { core := k / 4, ctx := k % 4 }

/-- The key of the context a subject names. -/
def keyOf (j : Subject) : Nat := 4 * j.core + j.ctx % 4

/-- R371, R413: a write to a window of registers by an agent of a core, at privilege level val: one to a control block takes effect in the
next cycle. -/
def regWrite (s : State) (j : Subject) : State :=
  match windowOf j.core j.id with
  | .ctl .. => addTimer s (s.cyc + 1) ⟨.registerWrite, j⟩
  | _ => addReady s ⟨.registerWrite, j⟩

/-- A write to these bytes of a window of registers has performed, and has not taken effect yet. -/
def regPending (s : State) (ia n : Nat) : Bool :=
  let meets (e : Event) : Bool :=
    e.ev == .registerWrite && decide (e.subj.id < ia + n) && decide (ia < e.subj.id + e.subj.data.length)
  s.timers.any (fun t => meets t.2) || s.ready.any meets

/-- R14: something a waiting bundle of the context may wait for has happened. -/
def wake (s : State) (k : Nat) : State :=
  if (ctxOf s k).st = .waiting then addReady s ⟨.reissue, subjOf k⟩ else s

/-! ### Reading registers -/

/-- R358: the acting context with the range registers that the executing instruction's bundle was issued under. -/
def mapped (s : State) : Ctx :=
  match s.iss.cur.bind Work.rregs with
  | some r => { me s with rregs := r }
  | none => me s

/-- The count of the bundle the acting context is executing, or would issue next. -/
def curSeq (s : State) : Nat :=
  match s.iss.cur with
  | some w => w.bseq
  | none => (me s).bseq + 1

/-- The address of the executing instruction's bundle. -/
def curPc (s : State) : Word :=
  match s.iss.cur with
  | some w => w.pc
  | none => (me s).pc

/-- The slot index of the executing instruction. -/
def curSlot (s : State) : Nat :=
  match s.iss.cur with
  | some w => w.slot
  | none => 0

/-- R115: the executing instruction left its slip buffer. -/
def curBuf (s : State) : Bool :=
  match s.iss.cur with
  | some w => w.buf
  | none => false

/-- The cycle in which the executing instruction's bundle issued. -/
def curIssued (s : State) : Nat :=
  match s.iss.cur with
  | some w => w.issued
  | none => s.cyc

/-- R112, R114, R117: a read of the register now is undefined: an older bundle's result for it has not landed, or lock-step
execution would read it so. -/
def undefNow (s : State) (r : Reg) : Bool :=
  (me s).flights.any (fun f => decide (f.bseq < curSeq s) && f.dsts.contains r) ||
  match s.iss.cur with
  | some w => w.undef.contains r
  | none => false

/-- R115: the value of a scalar as held since issue, if it is held. -/
def capOf (s : State) (n : Nat) : Option Word :=
  match s.iss.cur with
  | some w => (w.caps.find? fun p => p.1 == n).map Prod.snd
  | none => none

/-- R117, R173: what a register held before a result of the executing instruction's own bundle landed in it, if one has. -/
def oldOf (s : State) (r : Reg) : Option Nat :=
  match s.iss.cur with
  | some w => (w.olds.find? fun p => p.1 == r).map Prod.snd
  | none => none

/-- R39, R40: scalar register n; s0 reads zero. -/
def readS (s : State) (n : Nat) : Word :=
  if n = 0 then 0
  else match capOf s n with
    | some v => v
    | none =>
      if undefNow s (.s n) then BitVec.ofNat 64 (Config.undefReg s.fresh (.s n))
      else sget 0 (me s).regs.s n

/-- R39, R40: flag n; f0 reads one. -/
def readF (s : State) (n : Nat) : Bool :=
  if n = 0 then true
  else if undefNow s (.f n) then Config.undefReg s.fresh (.f n) % 2 == 1
  else (me s).regs.f.getLsbD n

/-- R39, R40, R107: mask n; m0 reads all ones. -/
def readM (s : State) (n : Nat) : Word :=
  if n = 0 then BitVec.allOnes 64
  else if undefNow s (.m n) then BitVec.ofNat 64 (Config.undefReg s.fresh (.m n))
  else match oldOf s (.m n) with
    | some x => BitVec.ofNat 64 x
    | none => sget 0 (me s).regs.m n

/-- R42: the image of vector register n. -/
def readV (s : State) (n : Nat) : VecImage :=
  if undefNow s (.v n) then BitVec.ofNat 2048 (Config.undefReg s.fresh (.v n))
  else match oldOf s (.v n) with
    | some x => BitVec.ofNat 2048 x
    | none => sget 0 (me s).regs.v n

/-- R42: the image of tile n. -/
def readQ (s : State) (n : Nat) : TileImage :=
  match oldOf s (.q n) with
  | some x => BitVec.ofNat 32768 x
  | none => sget 0 (me s).q n

/-- R262: word w of nest register n. -/
def readN (s : State) (n w : Nat) : Word :=
  if undefNow s (.n n) then BitVec.ofNat 64 (Config.undefReg s.fresh (.n n))
  else sget 0 (me s).regs.n (16 * n + w)

/-- R39: loop counter n. -/
def readLc (s : State) (n : Nat) : BitVec 32 :=
  if undefNow s (.lc n) then BitVec.ofNat 32 (Config.undefReg s.fresh (.lc n))
  else sget 0 (me s).regs.lc n

/-! ### Writing registers -/

/-- The registers with one write made; s0, f0 and m0 discard it (R40). -/
def putReg (r : Regs) (w : RegWrite) : Regs :=
  if hardwired w.dst then r
  else match w.dst with
    | .s n => { r with s := sins r.s n (BitVec.ofNat 64 w.bits) }
    | .f n => { r with f := if w.bits % 2 = 1 then r.f ||| BitVec.twoPow 16 n else r.f &&& ~~~ BitVec.twoPow 16 n }
    | .m n => { r with m := sins r.m n (BitVec.ofNat 64 w.bits) }
    | .v n => { r with v := sins r.v n (BitVec.ofNat 2048 w.bits) }
    | .n n => { r with n := sins r.n (16 * n + w.word) (BitVec.ofNat 64 w.bits) }
    | .lc n => { r with lc := sins r.lc n (BitVec.ofNat 32 w.bits) }
    | .mcfg => { r with mcfg := BitVec.ofNat 64 w.bits }
    | .mpat => { r with mpat := BitVec.ofNat 32 w.bits }
    | _ => r

/-- The context with one write made to its registers, tiles or system registers (R354). -/
def putCtxReg (c : Ctx) (w : RegWrite) : Ctx :=
  match w.dst with
  | .q n => { c with q := sins c.q n (BitVec.ofNat 32768 w.bits) }
  | .mrp => { c with mrp := BitVec.ofNat 64 w.bits }
  | .sys .tvec => { c with tvec := BitVec.ofNat 64 w.bits }
  | .sys .xepc => { c with xepc := BitVec.ofNat 64 w.bits }
  | .sys .xepl => { c with xepl := w.bits % 4 }
  | .sys .trec => { c with trec := BitVec.ofNat 64 w.bits }
  | .sys .tword => { c with tword := w.bits % 2 ^ 18 }
  | _ => { c with regs := putReg c.regs w }

/-- R114: a later bundle's write of the register has landed before a result that is still in flight. -/
def Flight.isDead (f : Flight) (r : Reg) : Bool := f.dead.any fun d => d.1 == r

/-- R401: a result of a bundle at or before a mark also belongs to the marked registers, unless the write of a later bundle at or before the
mark has landed there. -/
def putMarked (f : Flight) (m : Mark) (w : RegWrite) : Mark :=
  if f.bseq ≤ m.bseq && !f.dead.any (fun d => d.1 == w.dst && decide (d.2 ≤ m.bseq)) then { m with regs := putReg m.regs w } else m

/-- The context with every entry of its slip buffers changed. -/
def mapSlips (f : SlipEntry → SlipEntry) (c : Ctx) : Ctx :=
  { c with
    slipV := { c.slipV with entries := c.slipV.entries.map f }, slipM := { c.slipM with entries := c.slipM.entries.map f }
    slipL := { c.slipL with entries := c.slipL.entries.map f }, slipX := { c.slipX with entries := c.slipX.entries.map f } }

/-- R117: a buffered entry of bundle seq keeps what a register held, for its own read of it. -/
def keepOld (seq : Nat) (r : Reg) (old : Nat) (e : SlipEntry) : SlipEntry :=
  if e.work.bseq = seq ∧ !e.work.olds.any (fun p => p.1 == r) then { e with work := { e.work with olds := (r, old) :: e.work.olds } }
  else e

/-- R117, R173: a result of bundle seq lands in a vector register or mask that buffered instructions of the same bundle read as it
stood at their issue. -/
def keepOlds (c : Ctx) (seq : Nat) (r : Reg) : Ctx :=
  match r with
  | .v n => mapSlips (keepOld seq r (sget 0 c.regs.v n).toNat) c
  | .m n => mapSlips (keepOld seq r (sget 0 c.regs.m n).toNat) c
  | .q n => mapSlips (keepOld seq r (sget 0 c.q n).toNat) c
  | _ => c

/-- R114: as a result of bundle seq lands, the results of older bundles that are still in flight lose its destinations. -/
def overtake (fs : List Flight) (seq : Nat) (dsts : List Reg) : List Flight :=
  fs.map fun f => if f.bseq < seq then { f with dead := f.dead ++ (dsts.filter f.dsts.contains).map fun r => (r, seq) } else f

/-- R112 to R114, R401: a result lands: its writes that no later bundle's landed before are made, and the marked states take theirs. -/
def landWrites (c : Ctx) (f : Flight) (ws : List RegWrite) : Ctx :=
  ws.foldl
    (fun c w => { (if f.isDead w.dst then c else putCtxReg (keepOlds c f.bseq w.dst) w) with
      mark := putMarked f c.mark w
      nextMark := c.nextMark.map fun m => putMarked f m w })
    { c with flights := overtake c.flights f.bseq (ws.map RegWrite.dst) }

/-- The source is a known value, so that a result no register takes leaves nothing to do (R40). -/
def FlightSrc.isValue : FlightSrc → Bool
  | .bits _ => true
  | _ => false

/-- R114: destinations of the executing instruction that a boundary write has replaced while it was buffered. -/
def deadNow (s : State) : List Reg :=
  match s.iss.cur with
  | some w => w.dead
  | none => []

/-- Queue a result of the executing instruction: its destinations, source, whether it is of fixed latency, and its bound. -/
def queue (s : State) (dsts : List Reg) (src : FlightSrc) (fixed : Bool) (bound : Nat) : State :=
  let dsts := dsts.filter fun r => !hardwired r && !(deadNow s).contains r
  if dsts.isEmpty && src.isValue then s
  else
    let f : Flight :=
      { id := s.nextId, dsts, src, fixed, bound, exec := s.cyc, issued := curIssued s, bseq := curSeq s
        dead := (deadNow s).map fun r => (r, curSeq s), pc := curPc s, slot := curSlot s, buf := curBuf s }
    let s := { updMe s fun c => { c with flights := c.flights ++ [f] } with nextId := s.nextId + 1 }
    if bound = 0 then s
    else addTimer s (s.cyc + bound)
      ⟨if fixed then .resultLand else .scoreboardLand, { subjOf s.at_ with id := f.id }⟩

/-- R112: queue a fixed-latency result of bound L. -/
def queueFixed (s : State) (L : Nat) (ws : List RegWrite) : State :=
  queue s (ws.map RegWrite.dst) (.bits ws) true L

/-- R113: queue a scoreboarded result whose value is known now. -/
def queueBoard (s : State) (ws : List RegWrite) : State :=
  queue s (ws.map RegWrite.dst) (.bits ws) false 0

/-- A scalar result of bound L. -/
def writeS (s : State) (L d : Nat) (v : Word) : State := queueFixed s L [{ dst := .s d, bits := v.toNat }]

/-- A flag result of bound L. -/
def writeF (s : State) (L d : Nat) (v : Bool) : State := queueFixed s L [{ dst := .f d, bits := v.toNat }]

/-- R174: a mask result lands within bound 2 and is scoreboarded. -/
def writeM (s : State) (d : Nat) (v : Word) : State :=
  queue s [.m d] (.bits [{ dst := .m d, bits := v.toNat }]) false 2

/-- A vector result of bound L. -/
def writeV (s : State) (L d : Nat) (v : VecImage) : State := queueFixed s L [{ dst := .v d, bits := v.toNat }]

/-- R113: a scoreboarded scalar result whose value is known now. -/
def boardS (s : State) (d : Nat) (v : Word) : State := queueBoard s [{ dst := .s d, bits := v.toNat }]

/-- R114: a boundary write to a scalar: it lands after every result in flight, and every result of a buffered instruction, which it
replaces. -/
def boundaryS (c : Ctx) (d : Nat) (v : Word) : Ctx :=
  if d = 0 then c
  else mapSlips (fun e => { e with work := { e.work with dead := .s d :: e.work.dead } }) { c with
    regs := putReg c.regs { dst := .s d, bits := v.toNat }
    flights := c.flights.map fun f => { f with dead := f.dead ++ [(.s d, c.bseq)], dsts := f.dsts.filter fun r => r != .s d } }

/-! ### Stores, the gate and the journal -/

/-- The region a write of the acting context belongs to: the one the after-mark opens for bundles after it (R401). -/
def inNext (c : Ctx) (bseq : Nat) : Bool :=
  match c.nextMark with
  | some m => decide (m.bseq < bseq)
  | none => false

/-- The context with the region of a bundle changed. -/
def updRegion (c : Ctx) (bseq : Nat) (f : Region → Region) : Ctx :=
  if inNext c bseq then { c with nextRegion := f c.nextRegion } else { c with region := f c.region }

/-- The region a bundle's writes belong to. -/
def regionOf (c : Ctx) (bseq : Nat) : Region := if inNext c bseq then c.nextRegion else c.region

/-- R402: the journal with a byte's value before its first write in the region. -/
def journalByte (r : Region) (off : Nat) (old : Byte) : Region :=
  if r.journal.any (fun j => match j with | .byte o _ => o == off | _ => false) then r
  else { r with journal := r.journal ++ [.byte off old] }

/-- R84, R204: a pass of the context still reads the aligned 16-byte unit from key a on as it stands, but for what it has kept already. -/
def overlayUnit (p : Pass) (a : Nat) (old : List Byte) : Pass :=
  ((List.range 16).zip old).foldl (fun p (i, b) =>
    if p.overlay.any (fun e => e.1 == a + i) then p else { p with overlay := sins p.overlay (a + i) b }) p

/-- R84, R204: passes of context k of bundle seq or older keep the unit of the byte with this key, which stands at storage address a. -/
def keepUnit (s : State) (k seq key a : Nat) : State :=
  let old := mgets s (a / 16 * 16) 16
  updCore s (k / 4) fun c =>
    { c with passes := c.passes.map fun p => if p.ctx == k % 4 && decide (p.seq ≤ seq) then overlayUnit p (key / 16 * 16) old else p }

/-- The key of a byte beyond every scratchpad in a pass's kept bytes; a scratchpad byte's is its storage address. -/
def farKey (ia : Nat) : Nat := 2 ^ 60 + ia

/-- R101: engine operations that may read their context's own scratchpad after their issue. -/
def readsOwn : Instr → Bool
  | .copy .. | .agrun .. | .agload .. | .rcont .. | .pull .. | .pulladd .. | .pullRank .. | .spawn .. | .ctxload .. => true
  | _ => false

/-- R101: an engine operation of a context reads a byte of the context's scratchpad as its issue found it, whatever a later bundle of the
context stores there.  DESIGN CHOICE (log 30): a store by another slot of the operation's own bundle is no such later store: the operation
sees it. -/
def overlayReq (k seq a : Nat) (old : Byte) (r : Req) : Req :=
  if r.key = k ∧ r.bseq < seq ∧ readsOwn r.ins ∧ !r.kept.any (fun e => e.1 == a) then { r with kept := sins r.kept a old } else r

/-- R86, R204: the bytes a context has stored beyond the core that have not performed yet, in program order. -/
def gated (c : Ctx) : List GateByte := c.late ++ c.region.gate ++ c.nextRegion.gate

/-- The context with every such byte changed. -/
def mapGated (f : GateByte → GateByte) (c : Ctx) : Ctx :=
  { c with
    late := c.late.map f, region := { c.region with gate := c.region.gate.map f }
    nextRegion := { c.nextRegion with gate := c.nextRegion.gate.map f } }

/-- R83, R89: a multicast byte that has still to reach this byte of the issuing core's own scratchpad. -/
def ownCopy (core : Nat) (g : GateByte) (off : Nat) : Bool :=
  match windowOf core g.ia with
  | .mcast c o => g.own && c == core / 8 && o == off
  | _ => false

/-- R83, R88, R101, R204, R402: one scratchpad byte written by the acting context in bundle seq: journalled, kept for its passes and
engine operations, performed.  An earlier multicast byte that has not performed yet no longer goes there; a rollback to a mark after it finds it there. -/
def spStoreIn (s : State) (seq off : Nat) (b : Byte) : State :=
  let a := spAddr (myCore s) off
  let old := mget s a
  let older (g : GateByte) : Bool := decide (g.seq < seq) && ownCopy (myCore s) g off
  let before := ((me s).late ++ (if inNext (me s) seq then (me s).region.gate else [])).reverse.find? older
  let s := updMe s fun c => updRegion c seq fun r => journalByte r off ((before.map GateByte.byte).getD old)
  let s := if (gated (me s)).any older then updMe s (mapGated fun g => if older g then { g with own := false } else g) else s
  let s := keepUnit s s.at_ seq a a
  mput { s with reqs := s.reqs.map (overlayReq s.at_ seq a old) } a b

/-- One scratchpad byte written by the executing instruction. -/
def spStore (s : State) (off : Nat) (b : Byte) : State := spStoreIn s (curSeq s) off b

/-- R402: distinct 64-byte lines among addresses. -/
def lineCount (as_ : List Nat) : Nat := ((as_.map (· / 64)).eraseDups).length

/-- R402: lines a region's gate holds. -/
def gateLines (r : Region) : Nat := lineCount (r.gate.map GateByte.ia)

/-- R402: entries a region's journal holds. -/
def journalLines (r : Region) : Nat :=
  lineCount (r.journal.filterMap fun j => match j with | .byte o _ => some o | _ => none) +
  (r.journal.filter fun j => match j with | .bank _ _ => true | _ => false).length

/-- R58, R217: a gated byte is the byte at an intermediate address that a core names; a multicast byte is the byte of each of its
cluster's cores. -/
def gateHits (core : Nat) (g : GateByte) (ia : Nat) : Bool :=
  g.ia == ia ||
  match windowOf core g.ia, windowOf core ia with
  | .mcast k off, .scratch n o => n / 8 == k && o == off && (g.own || n != core)
  | _, _ => false

/-- R86, R87, R217: the youngest byte that a bundle of the acting context older than the executing one has gated at an intermediate
address. -/
def gateByte (s : State) (ia : Nat) : Option Byte :=
  ((gated (me s)).reverse.find? fun g => decide (g.seq < curSeq s) && gateHits (myCore s) g ia).map GateByte.byte

/-- R87: the first bundle and slot come before the second in program order. -/
def before (a b : Nat × Nat) : Bool := decide (a.1 < b.1) || (a.1 == b.1 && decide (a.2 < b.2))

/-- R87, R89: bytes enter a gate in program order, behind those of the bundles and slots before them. -/
def gateIns (bs : List GateByte) (at_ : Nat × Nat) : List GateByte → List GateByte
  | [] => bs
  | g :: gs => if before at_ (g.seq, g.slot) then bs ++ g :: gs else g :: gateIns bs at_ gs

/-- R89: bytes of one store beyond the core enter the gate. -/
def gateStore (s : State) (va : Nat) (bs : List (Nat × Byte)) : State :=
  let id := s.nextId
  let pl := (me s).pl
  let gs : List GateByte := bs.map fun (a, b) =>
    { ia := a, byte := b, store := id, pl := pl, pc := curPc s, seq := curSeq s, slot := curSlot s, va := va, exec := s.cyc }
  { updMe s fun c => updRegion c (curSeq s) fun r => { r with gate := gateIns gs (curSeq s, curSlot s) r.gate } with nextId := id + 1 }

/-! ### Sync words -/

/-- R99: count bytes into a sync word of a core in this cycle, with the flags the operation reports. -/
def arrive (s : State) (core word bytes : Nat) (short err : Bool) : State :=
  updCore s core fun c => { c with arrivals := c.arrivals ++ [⟨word, bytes, short, err⟩] }

/-! ### Traps -/

/-- A trap of the executing instruction with this code (R400). -/
def trapOf (s : State) (code : Nat) : Trap :=
  { code, slot := curSlot s, buf := curBuf s, pc := curPc s, pl := (me s).pl, ep := (me s).regs.ep, cyc := s.cyc }

/-- R400: the order among asynchronous traps. -/
def asyncRank (code : Nat) : Nat :=
  if code = 0x0E ∨ code = 0x0F then 0 else if code = 0x1B then 1 else if code = 0x1A then 2 else 3

/-- R400: insert an asynchronous trap by its rank, behind its equals. -/
def asyncIns (t : Trap) : List Trap → List Trap
  | [] => [t]
  | u :: us => if asyncRank t.code < asyncRank u.code then t :: u :: us else u :: asyncIns t us

/-- R400: an asynchronous trap becomes pending; a context that waits is reissued for it. -/
def pendTrap (s : State) (k : Nat) (t : Trap) : State :=
  wake (updCtx s k fun c => { c with async := asyncIns t c.async }) k

/-- R58, R367: a trap whose check names addresses: a range, protection, window or page-grain fault carries them, a local address in its
core-window form; every other cause leaves them zero. -/
def addrTrap (s : State) (code va ia : Nat) : Trap :=
  if 0x09 ≤ code ∧ code ≤ 0x0C then
    { trapOf s code with
      p0 := BitVec.ofNat 64 va
      p1 := BitVec.ofNat 64 (if ia < 0x200000 ∧ code ≠ 0x09 then spAddr (myCore s) ia else ia) }
  else trapOf s code

/-- R367: the 64 bytes of a trap record. -/
def trapRecord (s : State) (k : Nat) (t : Trap) : List Byte :=
  let fut : Nat := match (ctxOf s k).task with | some r => r.record.fut.toNat | none => 0
  toBytes 8 (t.code + t.slot * 2 ^ 8 + t.buf.toNat * 2 ^ 11 + t.pl * 2 ^ 12 + t.ep * 2 ^ 16 + k / 4 * 2 ^ 24 + k % 4 * 2 ^ 36)
  ++ toBytes 8 t.pc.toNat ++ toBytes 8 fut ++ toBytes 8 t.cyc
  ++ toBytes 8 t.p0.toNat ++ toBytes 8 t.p1.toNat ++ toBytes 8 t.p2.toNat ++ toBytes 8 t.p3.toNat

/-! ### The selector -/

/-- R13: the next ready context of a core in cyclic order after one, if there is one. -/
def nextReady (s : State) (core after : Nat) : Option Nat :=
  [1, 2, 3, 4].findSome? fun d =>
    let i := (after + d) % 4
    if (ctxOf s (4 * core + i)).st = .ready then some i else none

/-- R13: the selector moves to the next ready context after the one it holds. -/
def selectNext (s : State) (core : Nat) : State :=
  match nextReady s core (coreAt s core).sel with
  | some i => updCore s core fun u => if i = u.sel then u else { u with sel := i, selAt := max u.selAt (u.last + 2) }
  | none => s

/-- R13, R15: the selector keeps a context that is ready, and moves from one that is not; the core gates where none is ready. -/
def moveSelector (s : State) (core : Nat) : State :=
  let u := coreAt s core
  if (ctxOf s (4 * core + u.sel)).st = .ready then s
  else if (nextReady s core u.sel).isSome then selectNext s core
  else updCore s core fun u => { u with gated := true }

/-- R14, R15: a context becomes ready; a gated core ungates, and the context issues in the third cycle. -/
def makeReady (s : State) (k : Nat) : State :=
  let s := updCtx s k fun c => { c with st := .ready, readyAt := s.cyc }
  if (coreAt s (k / 4)).gated then
    updCore s (k / 4) fun u => { u with gated := false, sel := k % 4, selAt := s.cyc + 3 }
  else moveSelector s (k / 4)

/-- R13, R15, R34: a context that a rollback leaves ready; one that was not ready before becomes it now. -/
def readyAgain (s : State) (k : Nat) (was : CtxSt) : State :=
  if was = .ready then updCtx s k fun c => { c with st := .ready } else makeReady s k

/-- R404: write back what the journal holds, last entry first. -/
def undoJournal (k : Nat) : List JournalItem → State → State
  | [], s => s
  | .byte o b :: js, s => mput (undoJournal k js s) (spAddr (k / 4) o) b
  | .bank n code :: js, s =>
    updCore (undoJournal k js s) (k / 4) fun c =>
      { c with fmts := sins c.fmts n code, fmtPend := c.fmtPend.filter fun w => w.bank != n || w.ctx != k % 4 }

/-- R100, R404: a popped token goes back to the queue, or to what waits for a place in it; a later token for the same word keeps its newer
GEN. -/
def returnToken (c : Ctx) (t : Token) : Ctx :=
  if (c.wake ++ c.held).any (fun u => u.word == t.word) then c
  else if c.wake.length < 16 then { c with wake := c.wake ++ [t] }
  else { c with held := c.held ++ [t] }

/-- R198: the pass issues K-blocks now. -/
def Pass.runs (p : Pass) : Bool := p.st == .running && decide (p.kbn < p.kb)

/-- R198, R206, R209: a waiting pass that the unit may start: no other pass of its context is suspended, or served and still to restart,
unless it waits to restart itself. -/
def Pass.starts (ps : List Pass) (p : Pass) : Bool :=
  p.st == .waiting && decide (p.kbn < p.kb) && !p.stop &&
  !ps.any fun r => r.ctx == p.ctx && r.id != p.id && (r.st == .suspended || (r.st == .waiting && r.susp.rdy && !p.susp.rdy))

/-- R198: an idle unit with a pass to start starts it. -/
def kickUnit (s : State) (core : Nat) : State :=
  let ps := (coreAt s core).passes
  if ps.any Pass.runs || !ps.any (Pass.starts ps) then s else addReady s ⟨.passStart, { core }⟩

/-- R404: the passes of a context that a rollback abandons: those of the open region, or opened after it. -/
def passRolled (k : Nat) (c : Ctx) (p : Pass) : Bool := p.ctx == k % 4 && decide (c.region.seq ≤ p.region)

/-- R404: mrp after a rollback: S and RDY clear where it abandons the pass mrp shows. -/
def mrpRolled (mrp : Word) (ps : List Pass) : Word :=
  if mrp.toNat % 2 = 1 ∧ ps.any (fun p => p.q == fld mrp.toNat 5 2) then
    BitVec.ofNat 64 (mrp.toNat / 4 * 4)
  else mrp

/-- R401: the state of a context at a boundary, as a mark fixes it. -/
def markOf (c : Ctx) : Mark :=
  { regs := c.regs, restart := c.pc, bseq := c.bseq
    phase := match c.task with | some t => t.phase | none => .prologue
    iter := match c.task with | some t => t.iter | none => 0 }

/-- R404: roll a context back to its last completed mark; what a DRAIN of an earlier bundle orders stays ordered (R91). -/
def rollback (s : State) (k : Nat) : State :=
  let c := ctxOf s k
  let core := k / 4
  let gone := (coreAt s core).passes.filter (passRolled k c)
  let s := updCore s core fun u =>
    { u with
      passes := u.passes.filter fun p => !passRolled k c p
      sums := u.sums.filter fun p => !gone.any (fun q => q.id == p.pass) }
  let s := if gone.isEmpty then s else kickUnit s core
  let s := undoJournal k c.region.journal (undoJournal k c.nextRegion.journal s)
  let s := { s with reqs := s.reqs.filter fun r => !(r.key == k && !r.accepted && decide (c.mark.bseq < r.bseq)) }
  putCtx s k ((c.region.popped ++ c.nextRegion.popped).reverse.foldl returnToken { c with
    slipV := { c.slipV with entries := [] }, slipM := { c.slipM with entries := [] }
    slipL := { c.slipL with entries := [] }, slipX := { c.slipX with entries := [] }
    flights := (c.flights.filter fun f => decide (f.bseq ≤ c.mark.bseq)).map fun f =>
      { f with dead := f.dead.filter fun d => decide (d.2 ≤ c.mark.bseq) }
    q := (c.nextRegion.shadow ++ c.region.shadow).foldl (fun q e => sins q e.1 e.2) c.q
    mrp := mrpRolled c.mrp gone
    regs := c.mark.regs
    task := c.task.map fun t => { t with phase := c.mark.phase, iter := c.mark.iter, ended := false }
    why := .none, markWait := false, ownMark := false, checkDue := .none
    pc := c.mark.restart
    region := { seq := c.region.seq + 1 }
    nextRegion := {}
    nextMark := none
    heldTrap := none
    drains := c.drains.filter fun d => decide (d.1 ≤ c.mark.bseq)
    stalled := none, awaiting := none, agwait := none, shooting := none })

/-- R226, R404: what a VAMO element fault keeps through its rollback. -/
def keepLanes (c : Ctx) (t : Trap) : Ctx :=
  match t.keep with
  | some (d, img, ep, pc) =>
    { c with
      regs := { putReg c.regs { dst := .v d, bits := img.toNat } with ep := ep, eppc := pc, eppl := t.pl }
      mark := { c.mark with regs := { putReg c.mark.regs { dst := .v d, bits := img.toNat } with ep := ep, eppc := pc, eppl := t.pl } } }
  | none => c

/-- R319: QUAR set in the header of a page. -/
def quarHeader (s : State) (q asn ia : Nat) : State :=
  match pageWalk s q asn ia with
  | .leaf _ e huge =>
    let pa := leafPa e huge (ia / 2 ^ 16 * 2 ^ 16)
    mput s (paAddr (pa + 15)) (mget s (paAddr (pa + 15)) ||| 1)
  | _ => s

/-- R319: Q set in the leaf of a page, in its table and in every cache. -/
def quarEntry (s : State) (q asn ia : Nat) : State :=
  match pageWalk s q asn ia with
  | .leaf entry e _ => leafPut s q (ia / 2 ^ 16) entry (setBit e 8 true)
  | _ => s

/-- R319, R398: the fault service quarantines a KV page: QUAR in its header, Q in its translation. -/
def quarantine (s : State) (q asn ia : Nat) : State := quarEntry (quarHeader s q asn ia) q asn ia

/-- R320, R321: the quarantine record of a KV page with this header (physical address), for byte offset f within the page. -/
def quarRecord (s : State) (header va f src mask : Nat) : Word × Word × Word × Word :=
  let h := ofBytes (mgets s (paAddr header) 64)
  let n := fld h 191 176
  let str := fld h 207 192
  let tok := if 64 ≤ f ∧ f < 64 + n * str then (fld h 175 128 + (f - 64) / str) % 2 ^ 48 else 2 ^ 48 - 1
  (BitVec.ofNat 64 (fld h 95 64 + fld h 107 96 * 2 ^ 32 + fld h 115 108 * 2 ^ 44 + src * 2 ^ 52),
   BitVec.ofNat 64 (va / 2 ^ 16), BitVec.ofNat 64 tok, BitVec.ofNat 64 mask)

/-- R320: the record of a non-finite fault that touches no page. -/
def bareRecord (src mask : Nat) : Word × Word × Word × Word :=
  (BitVec.ofNat 64 (src * 2 ^ 52), 0, BitVec.ofNat 64 (2 ^ 48 - 1), BitVec.ofNat 64 mask)

/-- R406: a record written at TREC through the context's own address space; a place that cannot be written gets none. -/
def writeTrec (s : State) (k : Nat) (rec : List Byte) : State :=
  let c := ctxOf s k
  match rangeCheck c c.trec.toNat 64 .write with
  | .trap _ _ _ => s
  | .ok ia =>
    match windowOf (k / 4) ia with
    | .scratch core off =>
      if windowOk s (quarterOf (k / 4)) c.pl (.scratch core off) then mputs s (spAddr core off) rec else s
    | .slice .. | .ctl .. =>
      if windowOk s (quarterOf (k / 4)) c.pl (windowOf (k / 4) ia) then regWrite s { subjOf k with id := ia, val := c.pl, data := rec } else s
    | .memory | .cxl =>
      (putFound rec (needPage s (leadCore s (k / 4)) c.asn ia true)).1
    | _ => s

/-- R406, R407: deliver a trap after its rollback: to the service at TVEC, to the trap ring with the task ending faulted, or
as a double trap: the context stops to be halted. -/
def deliver (s : State) (k : Nat) (t : Trap) : State :=
  let q := leadCore s (k / 4)
  let s := match t.quar with
    | some (_, ia) => quarantine s q (ctxOf s k).asn ia
    | none => s
  let c := ctxOf s k
  if c.inService then
    let s := ringAppend s (quarterOf (k / 4)) trapRing (trapRecord s k { t with code := 0x20 })
    addReady (moveSelector (updCtx s k fun c => { c with st := .stopping, why := .halt, wt := false, wdc := 0 }) (k / 4))
      ⟨.contextSaveComplete, subjOf k⟩
  else if c.tvec ≠ 0 then
    let s := writeTrec s k (trapRecord s k t)
    updCtx s k fun c =>
      { c with xepc := c.pc, xepl := c.pl, pl := max c.pl 1, pc := c.tvec, inService := true, wdc := 0 }
  else
    let s := ringAppend s (quarterOf (k / 4)) trapRing (trapRecord s k t)
    let s := updCtx s k fun c => { c with st := .stopping, why := .fault, wdc := 0 }
    addReady (moveSelector s (k / 4)) ⟨.taskComplete, { subjOf k with flag := true }⟩

/-- R401: a rollback by this trap begins before the after-mark of an earlier bundle completes. -/
def mustHold (c : Ctx) (seq : Nat) : Bool :=
  match c.nextMark with
  | some m => decide (m.bseq < seq)
  | none => false

/-- R38, R361, R412: a context that was stopping to be saved or halted goes on stopping once its trap has been delivered. -/
def stopAgain (s : State) (k : Nat) (was : Ctx) : State :=
  if was.st = .stopping ∧ (was.why = .save ∨ was.why = .halt) ∧ (ctxOf s k).st = .ready then
    addReady (moveSelector (updCtx s k fun c => { c with st := .stopping, why := was.why, wt := false }) (k / 4))
      ⟨.contextSaveComplete, subjOf k⟩
  else s

/-- R400, R401, R404, R406: TAKE A TRAP of a context: roll back to the last completed mark and deliver it, or hold it until the
after-mark under way completes; seq is the count of the trapping bundle. -/
def takeTrap (s : State) (k : Nat) (t : Trap) (seq : Nat) : State :=
  let s := { s with iss := { s.iss with cut := true, work := [], stores := [] } }
  let was := ctxOf s k
  if mustHold was seq then
    moveSelector (updCtx s k fun c =>
      { c with
        st := if c.st = .stopping then .stopping else .waiting
        heldTrap := some (match c.heldTrap with | some u => u | none => t) }) (k / 4)
  else if (ctxOf s k).reclaim ∧ (ctxOf s k).mark.regs.pin = 0 then
    let s := updCtx (rollback s k) k fun c => { keepLanes c t with st := .stopping, why := .reclaim }
    addReady (moveSelector s (k / 4)) ⟨.reclaimStop, subjOf k⟩
  else stopAgain (deliver (readyAgain (updCtx (rollback s k) k fun c => keepLanes c t) k was.st) k t) k was

/-- The executing instruction traps with this code. -/
def trap (s : State) (code : Nat) : Host.Outcome State Fault Refusal :=
  .next (takeTrap s s.at_ (trapOf s code) (curSeq s))

/-- The executing instruction traps with this code on these addresses. -/
def trapAddr (s : State) (code va ia : Nat) : Host.Outcome State Fault Refusal :=
  .next (takeTrap s s.at_ (addrTrap s code va ia) (curSeq s))

/-- R356, R406: RETURN FROM A TRAP SERVICE: the service is over, and the bundle ends at the privilege level and the PC that the
delivery saved. -/
def trapReturn (s : State) : State :=
  let s := updMe s fun c => { c with inService := false }
  { s with iss := { s.iss with target := some (me s).xepc, ret := some (me s).xepl } }

/-! ### The core configuration -/

/-- R49: the state in which a core's banks from lo to hi − 1 read zero, with raw formats. -/
def clearBanks (s : State) (core lo hi : Nat) : State :=
  let a := spAddr core (32768 * lo)
  let b := spAddr core (32768 * hi)
  let s := { s with resv := [], mem := s.mem.filter fun (x, _) => !(decide (a ≤ x) && decide (x < b)) }
  updCore s core fun u => { u with
    fmts := u.fmts.filter fun (i, _) => !(decide (lo ≤ i) && decide (i < hi))
    fmtPend := u.fmtPend.filter fun w => !(decide (lo ≤ w.bank) && decide (w.bank < hi)) }

/-- R47 to R49: the core takes a configuration; banks that become scratchpad read zero. -/
def setConfig (s : State) (core : Nat) (vreg : Bool) (tile : Nat) : State :=
  let u := coreAt s core
  let s := clearBanks s core (spBanks u.vreg u.tile) (spBanks vreg tile)
  updCore s core fun u => { u with vreg, tile }

/-- R47: VREG and TILE of a partition word. -/
def ppwConfig (w : Word) : Bool × Nat := (bitAt w.toNat 0, fld w.toNat 2 1)

/-- R49, R359: the vector registers and tiles of a context read zero. -/
def zeroVectors (c : Ctx) : Ctx :=
  { c with
    regs := { c.regs with v := [] }, q := [], region := { c.region with shadow := [] }
    mark := { c.mark with regs := { c.mark.regs with v := [] } } }

/-- R44, R47 to R49, R359: the acting context takes a partition word, whose SPB the device fills in. -/
def setPartition (s : State) (x : Word) : State :=
  let core := myCore s
  let u := coreAt s core
  let s := if ppwConfig x = (u.vreg, u.tile) then s else updMe (setConfig s core (ppwConfig x).1 (ppwConfig x).2) zeroVectors
  updMe s fun c => { c with ppw := ppwOf (ppwConfig x).1 (ppwConfig x).2 }

end Sys2Proof.Machine
end

