-- ==== Sys2Proof/Machine/Lines.lean ====
section
/-!
DEFINITION. The lines that memory-side slices hold (R3, R62, R330, R331, R334): their frames, the tenants that own lines (R328, R329), and
what a request to a slice meets.
-/

namespace Sys2Proof.Machine

/-- R328: a dword of a slice's tenant descriptors, at 32 × slot + word. -/
def sliceDesc (s : State) (n i : Nat) : Nat :=
  sget (if i % 32 = 0 then 512 * 2 ^ 40 else 0) (sget {} s.slices n).desc i

/-- R370: storage address of a byte of a slice's instruction and data memories. -/
def sliceAddr (n off : Nat) : Nat := 0x800000000 + n * 0x40000 + off

/-- A slice's record. -/
def sliceOf (s : State) (n : Nat) : SliceSt := sget {} s.slices n

/-- The state with a slice changed. -/
def updSlice (s : State) (n : Nat) (f : SliceSt → SliceSt) : State := { s with slices := sins s.slices n (f (sliceOf s n)) }

/-- The quarter whose blocks govern a slice. -/
def sliceLead (s : State) (n : Nat) : Nat := leadOf s (n / 64)

/-! ### Tenants -/

/-- R328: dword w of a tenant slot. -/
def tenantWord (s : State) (n t w : Nat) : Nat := sliceDesc s n (32 * t + w)

/-- R328: the slot is enabled. -/
def tenantOn (s : State) (n t : Nat) : Bool := bitAt (tenantWord s n t 0) 0

/-- R328: base and size of a slot's instruction region, in bytes. -/
def codeRegion (w0 : Nat) : Nat × Nat := (fld w0 13 8 * 1024, fld w0 22 16 * 1024)

/-- R328: base and size of a slot's data region, in bytes. -/
def dataRegion (w0 : Nat) : Nat × Nat := (fld w0 29 24 * 1024, fld w0 38 32 * 1024)

/-- R329: some valid range of the slot holds the address; rd and wr say what it must grant. -/
def tenantGrants (s : State) (n t ia : Nat) (rd wr : Bool) : Bool :=
  (List.range 8).any fun k =>
    let a := tenantWord s n t (2 + 2 * k)
    let b := tenantWord s n t (3 + 2 * k)
    bitAt a 0 && (!rd || bitAt a 1) && (!wr || bitAt a 2) && decide (fld a 55 16 ≤ ia / 2 ^ 16) && decide (ia / 2 ^ 16 ≤ fld b 55 16)

/-- R328: the slot that owns a line: the lowest enabled one. -/
def lineOwner (s : State) (n ia : Nat) : Option Nat :=
  (List.range 4).find? fun t => tenantOn s n t && tenantGrants s n t ia false false

/-- R329: a slot reaches a line: no lower enabled slot owns it, and a range of the slot holds it and grants what is asked. -/
def tenantReaches (s : State) (n t ia : Nat) (rd wr : Bool) : Bool :=
  tenantGrants s n t ia rd wr && !(List.range t).any fun u => tenantOn s n u && tenantGrants s n u ia false false

/-- R330: the handler table's entry for a key. -/
def tableEntry (s : State) (n t key : Nat) : Nat := ofBytes (mgets s (sliceAddr n ((codeRegion (tenantWord s n t 0)).1 + 4 * key)) 4)

/-- R330, R331: the slot that owns a line has an entry for a key in its handler table. -/
def lineHandled (s : State) (n line key : Nat) : Bool :=
  match lineOwner s n line with
  | some t => tableEntry s n t key != 0
  | none => false

/-! ### Frames -/

/-- R60: a core's L1 holds the line of an intermediate address. -/
def l1Holds (s : State) (core ia : Nat) : Bool :=
  (sget [] s.l1 core).any fun p => p.2.block == ia / 256 && bitAt p.2.valid (fld ia 7 6)

/-- R335: a slice holds a line. -/
def lineCached (s : State) (n line : Nat) : Bool := (sget [] s.frames n).any fun p => p.2.ia == line

/-- R62: the line of a slice on its way in. -/
def fetchOf (s : State) (n line : Nat) : Option LineFetch := (sliceOf s n).fetches.find? fun f => f.line == line

/-- R330: the frames of a slice that are being emptied. -/
def emptying (s : State) (n : Nat) : List Nat :=
  (sliceOf s n).fetches.filterMap fun f => match f.stage with | .evict i => some i | _ => none

/-- R330: the line whose frame holds another line that is to leave, with that frame. -/
def evictionOf (s : State) (n old : Nat) : Option (LineFetch × Nat) :=
  (sliceOf s n).fetches.findSome? fun f => match f.stage with
    | .evict i => if (sget ⟨0, false⟩ (sget [] s.frames n) i).ia = old then some (f, i) else none
    | _ => none

/-- R330, R411: the frames of a slice that no line may take: those being emptied, and the fenced ones. -/
def closedFrames (s : State) (n : Nat) : List Nat := emptying s n ++ (sliceOf s n).fenced

/-- R3, R335: the frame that a line takes, of 1,048,576: which one the spec leaves open. -/
def frameFor (s : State) (n line : Nat) : Nat :=
  let i := Config.lost s.fresh (2 ^ 24 + line / 64) % 2 ^ 20
  ((List.range ((closedFrames s n).length + 1)).find? fun j => !(closedFrames s n).contains ((i + j) % 2 ^ 20)).elim i fun j => (i + j) % 2 ^ 20

/-- The frames with a line of a slice in one of them, where the slice does not hold it. -/
def lineIn (s : State) (n line : Nat) (m : Sparse (Sparse LineFrame)) : Sparse (Sparse LineFrame) :=
  if (sget [] m n).any (fun p => p.2.ia == line) then m
  else sins m n (sins (sget [] m n) (frameFor s n line) ⟨line, false⟩)

/-- R331, R335: the state with lines brought into a slice by what raises no trigger. -/
def bringLines (s : State) (n : Nat) (lines : List Nat) : State := { s with frames := lines.foldl (fun m l => lineIn s n l m) s.frames }

/-- R335: a byte of the line of an intermediate address has been written at its home slice. -/
def soilLine (s : State) (q ia : Nat) : State :=
  let n := homeSlice s q ia
  { s with frames := s.frames.map fun p =>
      if p.1 = n then (n, p.2.map fun (i, f) => (i, { f with dirty := f.dirty || f.ia == ia / 64 * 64 })) else p }

/-! ### The way of a line into its slice -/

/-- The state with a line's way changed. -/
def putFetch (s : State) (n : Nat) (f : LineFetch) : State :=
  updSlice s n fun u => { u with fetches := u.fetches.filter (fun x => x.line != f.line) ++ [f] }

/-- The state with a line no longer on its way; nobody waits for it. -/
def endFetch (s : State) (n line : Nat) : State :=
  updSlice s n fun u => { u with fetches := u.fetches.filter fun x => x.line != line, asks := u.asks.filter fun a => a.1 != line }

/-- R333: the fetched line is not put in a frame; who waits for it has its data. -/
def giveLine (s : State) (n line : Nat) : State :=
  endFetch (updSlice s n fun u => { u with given := u.given ++ u.asks.filter fun a => a.1 == line }) n line

/-- A line stands in a frame, in place of what stood there. -/
def installLine (s : State) (n i : Nat) (f : LineFetch) : State :=
  endFetch { s with frames := sins s.frames n (sins (sget [] s.frames n) i ⟨f.line, f.supplied⟩) } n f.line

/-- R330: a line whose data is here is put in a frame; true says that a handler is called first for the line that stands there. -/
def placeLine (s : State) (n : Nat) (f : LineFetch) : State × Bool :=
  if lineCached s n f.line then (endFetch s n f.line, false)
  else
    let i := frameFor s n f.line
    match (sget [] s.frames n).find? fun p => p.1 == i with
    | some (_, old) =>
      if lineHandled s n old.ia 2 then
        (addReady (putFetch s n { f with stage := .evict i, asked := false }) ⟨.evictionTrigger, { subjOf f.key with id := old.ia }⟩, true)
      else (installLine s n i f, false)
    | none => (installLine s n i f, false)

/-- R411: the frame that holds a line of a slice is fenced: its line leaves it, no line takes it again, and one that was to take it goes to
another. -/
def fenceFrame (s : State) (n line : Nat) : State :=
  match (sget [] s.frames n).find? fun p => p.2.ia == line with
  | some (i, _) =>
    let s := updSlice { s with frames := sins s.frames n ((sget [] s.frames n).filter fun p => p.1 != i) } n fun u =>
      { u with fenced := i :: u.fenced.filter (· != i) }
    ((sliceOf s n).fetches.filter fun f => f.stage == .evict i).foldl (fun s f => (placeLine s n f).1) s
  | none => s

/-- R330: the data of a line arrives; true says that a handler is called before it can be read. -/
def arriveLine (s : State) (n : Nat) (f : LineFetch) : State × Bool :=
  if lineHandled s n f.line 1 then
    (addReady (putFetch s n { f with stage := .fill, asked := false }) ⟨.fillTrigger, { subjOf f.key with id := f.line }⟩, true)
  else placeLine s n f

/-- R330: a line is found absent; true says that a handler is called before it can be read. -/
def missLine (s : State) (n line k : Nat) : State × Bool :=
  let f : LineFetch := { line, key := k }
  if lineHandled s n line 0 then (addReady (putFetch s n f) ⟨.missTrigger, { subjOf k with id := line }⟩, true) else arriveLine s n f

/-- R334: an invocation of the home slice's handler holds requests for the line: a miss or fill all of them, an eviction writes. -/
def lineHeld (s : State) (q ia : Nat) (write : Bool) : Bool :=
  if s.slices.isEmpty then false
  else
    let n := homeSlice s q ia
    (fetchOf s n (ia / 64 * 64)).isSome || (write && (evictionOf s n (ia / 64 * 64)).isSome)

/-- R330 to R334: a request of a context for a line at its home slice, whose page has been found; true says that it waits. -/
def requestLine (s : State) (k : Nat) (write : Bool) (ia : Nat) : State × Bool :=
  let q := leadCore s (k / 4)
  let n := homeSlice s q ia
  let l := ia / 64 * 64
  if s.slices.isEmpty then (bringLines s n [l], false)
  else if (sliceOf s n).given.contains (l, k) then (s, false)
  else
    let (s, waits) := if lineHeld s q ia write then (s, true) else if lineCached s n l then (s, false) else missLine s n l k
    (if waits && (fetchOf s n l).isSome then updSlice s n fun u => { u with asks := u.asks.filter (· != (l, k)) ++ [(l, k)] } else s, waits)

/-- R330, R391: a request of a context goes out once its page is found in its address space, where one is named; an access that faults or
waits for its page asks for no line. -/
def askLine (s : State) (k : Nat) (asn : Option Nat) (write : Bool) (ia : Nat) : State × Bool :=
  match asn with
  | none => requestLine s k write ia
  | some a => match resolveAs s (leadCore s (k / 4)) a ia write false with
    | (s, .ok ..) => requestLine s k write ia
    | (s, _) => (s, false)

/-- R60, R330: requests of a context for lines; those that a load or store of its core finds in its L1 do not reach a slice. -/
def askLines (k : Nat) (asn : Option Nat) (viaL1 write : Bool) : List Nat → State → State × Bool
  | [], s => (s, false)
  | ia :: ias, s =>
    if viaL1 && l1Holds s (k / 4) ia then
      (if lineHeld s (leadCore s (k / 4)) ia write then (s, true) else askLines k asn viaL1 write ias s)
    else match askLine s k asn write ia with
      | (s, true) => (s, true)
      | (s, false) => askLines k asn viaL1 write ias s

/-- R333: a context has used what bypasses gave it. -/
def takeGiven (s : State) (k : Nat) : State :=
  { s with slices := s.slices.map fun p => (p.1, { p.2 with given := p.2.given.filter fun g => g.2 != k }) }

/-- R330 to R334: requests of an access in an address space; where none waits, the access goes through. -/
def reachLines (s : State) (k asn : Nat) (viaL1 write : Bool) (ias : List Nat) : State × Bool :=
  match askLines k (some asn) viaL1 write ias s with
  | (s, true) => (s, true)
  | (s, false) => (takeGiven s k, false)

/-- An address in each 64-byte line of n bytes from an intermediate address on. -/
def linesOf (ia n : Nat) : List Nat := (List.range ((ia % 64 + n + 63) / 64)).map fun i => if i = 0 then ia else ia / 64 * 64 + 64 * i

/-- The addresses of memory among some. -/
def pagedOnly (core : Nat) (ias : List Nat) : List Nat :=
  ias.filter fun ia => match windowOf core ia with | .memory | .cxl => true | _ => false

/-- R317, R337: the lines of a page, or of a piece of one, are brought into their home slice; key names the context of a chain walker, for
which handlers are called. -/
def bringPage (s : State) (q : Nat) (key : Option Nat) (ia n : Nat) : State :=
  let sl := homeSlice s q ia
  let ls := (linesOf ia n).map fun a => a / 64 * 64
  match key with
  | some k =>
    if s.slices.isEmpty then bringLines s sl ls
    else ls.foldl (fun s l => if lineCached s sl l || (fetchOf s sl l).isSome then s else (missLine s sl l k).1) s
  | none => bringLines s sl ls

end Sys2Proof.Machine
end

