-- ==== Sys2Proof/Machine/Sync.lean ====
section
/-!
DEFINITION. Sync words, wake tokens and range entries (R53 to R55, R98 to R100).
-/

namespace Sys2Proof.Machine

/-- R98: the 128 bits of a sync word. -/
def swRead (s : State) (core word : Nat) : Nat := spNum s core word 16

/-- R98: GEN of a sync word. -/
def swGen (s : State) (core word : Nat) : Nat := fld (swRead s core word) 95 80

/-- R99: a sync word after a cycle's arrivals, and how often it advanced. -/
def swAdd (x a : Nat) (short err : Bool) : Nat × Nat :=
  let tgt := fld x 39 0
  let cnt := fld x 79 40 + a
  let sat := decide (2 ^ 40 - 1 < cnt)
  let cnt := if sat then 2 ^ 40 - 1 else cnt
  let adv := if tgt = 0 then 0 else cnt / tgt
  let cnt := if tgt = 0 then cnt else cnt % tgt
  let gen := fld x 95 80
  let ovr := bitAt x 96 || (decide (0 < adv) && decide (0 < cnt))
  let wrap := bitAt x 99 || decide (0xFFFF < gen + adv)
  (tgt + cnt * 2 ^ 40 + (gen + adv) % 2 ^ 16 * 2 ^ 80 + ovr.toNat * 2 ^ 96
    + (bitAt x 97 || short).toNat * 2 ^ 97 + (bitAt x 98 || err || sat).toNat * 2 ^ 98 + wrap.toNat * 2 ^ 99
    + x / 2 ^ 100 * 2 ^ 100, adv)

/-- R268: a sync word after an SWSET. -/
def swReset (x tgt : Nat) (gen : Option Nat) : Nat :=
  tgt + (match gen with | some g => g | none => fld x 95 80) * 2 ^ 80 + x / 2 ^ 100 * 2 ^ 100

/-- R53: the entry is valid and links the sync word. -/
def linksWord (e : RangeEntry) (word : Nat) : Bool := bitAt e.word.toNat 48 && fld e.word.toNat 47 31 * 16 == word

/-- R55: an advance in cycle cyc sets RDY of the armed entries that link the word. -/
def setReady (rs : Sparse RangeEntry) (word cyc : Nat) : Sparse RangeEntry :=
  rs.map fun (i, e) =>
    if linksWord e word ∧ !bitAt e.word.toNat 49 ∧ e.armed < cyc then (i, { e with word := e.word ||| BitVec.twoPow 64 49 })
    else (i, e)

/-- R100: a token enters the wake queue, or is held at the comparator for a seventeenth word. -/
def pushToken (c : Ctx) (t : Token) : Ctx :=
  if c.wake.any (fun u => u.word == t.word) then
    { c with wake := c.wake.map fun u => if u.word == t.word then t else u }
  else if c.held.any (fun u => u.word == t.word) then
    { c with held := c.held.map fun u => if u.word == t.word then t else u }
  else if c.wake.length < 16 then { c with wake := c.wake ++ [t] }
  else { c with held := c.held ++ [t] }

/-- R100: the wake queue holds a token for the word. -/
def hasToken (c : Ctx) (word : Nat) : Bool := c.wake.any fun t => t.word == word

/-- The context with the word's token removed from its queue; a held token takes the free entry. -/
def dropToken (c : Ctx) (word : Nat) : Ctx :=
  if hasToken c word then
    { c with wake := (c.wake.filter fun t => t.word != word) ++ c.held.take 1, held := c.held.drop 1 }
  else c

/-- R148, R404: a WAIT pops the word's token; a rollback gives it back. -/
def popToken (c : Ctx) (seq word : Nat) : Ctx :=
  let ts := c.wake.filter fun t => t.word == word
  updRegion (dropToken c word) seq fun r => { r with popped := r.popped ++ ts }

/-- R100: the context is pushed a token when the word advances. -/
def wantsToken (c : Ctx) (word : Nat) : Bool :=
  c.range.any (fun e => linksWord e.2 word) || c.stalled == some word

/-- R55, R100: one context of the core after an advance of the word. -/
def advanceCtx (s : State) (word gen k : Nat) : State :=
  let c := ctxOf s k
  if wantsToken c word then
    let c := pushToken { c with range := setReady c.range word s.cyc } ⟨word, gen⟩
    wake (putCtx s k c) k
  else s

/-- R99, R268: the update of one sync word at the end of a cycle. -/
def swUpdate (s : State) (core word : Nat) : State :=
  let u := coreAt s core
  let x := swRead s core word
  let x := match u.swsets.find? (fun p => p.1 == word) with
    | some (_, tgt, gen) => swReset x tgt gen
    | none => x
  let as_ := u.arrivals.filter fun a => a.word == word
  let (x, adv) := swAdd x (as_.map Arrival.bytes).sum (as_.any Arrival.short) (as_.any Arrival.err)
  let s := mputs s (spAddr core word) (toBytes 16 x)
  if adv = 0 then s
  else [0, 1, 2, 3].foldl (fun s i => advanceCtx s word (fld x 95 80) (4 * core + i)) s

/-- R99: the updates of a core's sync words at the end of a cycle. -/
def swCycle (s : State) (core : Nat) : State :=
  let u := coreAt s core
  let ws := (u.swsets.map Prod.fst ++ u.arrivals.map Arrival.word).eraseDups
  let s := ws.foldl (fun s w => swUpdate s core w) s
  updCore s core fun u => { u with arrivals := [], swsets := [] }

/-- R54: a scratchpad byte is ready for a context. -/
def byteReady (c : Ctx) (off : Nat) : Bool :=
  c.range.all fun (_, e) =>
    let w := e.word.toNat
    !(bitAt w 48 && !bitAt w 49 && decide (fld w 14 0 * 64 ≤ off) && decide (off < (fld w 14 0 + fld w 30 15) * 64))

/-- R150: every entry named in the mask is not valid or ready. -/
def entriesReady (c : Ctx) (mask : Nat) : Bool :=
  (List.range 16).all fun i =>
    !bitAt mask i || !bitAt (sget {} c.range i).word.toNat 48 || bitAt (sget {} c.range i).word.toNat 49

/-- R53: a value RTWR may not write: a reserved bit, or a valid entry outside the scratchpad. -/
def entryRefused (sp w : Nat) : Bool :=
  fld w 63 50 != 0 ||
  (bitAt w 48 && (fld w 30 15 == 0 || decide (sp / 64 < fld w 14 0 + fld w 30 15)))

end Sys2Proof.Machine
end

