-- ==== Sys2Proof/Machine/Access.lean ====
section
/-!
DEFINITION. Effective addresses and the bytes an instruction touches (R201, R216, R219, R220, R222, R224): used by the
instruction's meaning, by the range table's readiness (R54) and by the order of buffered accesses (R117).
-/

namespace Sys2Proof.Machine

/-- R216: the effective address of form ME. -/
def eaOff (s : State) (a : Nat) (off : BitVec 27) : Word := readS s a + off.signExtend 64

/-- R219, R220: the effective address of an indexed scalar access. -/
def eaIndex (s : State) (a b scale : Nat) : Word := readS s a + readS s b * BitVec.ofNat 64 scale

/-- R216: an access as its address names it: a scratchpad offset (W = 1) or a virtual address. -/
structure Place where
  w : Bool
  addr : Nat
deriving DecidableEq, Repr

/-- R172, R220: the selected lanes under a mask. -/
def lanesOf (m : Word) : List Nat := (List.range 64).filter fun i => m.getLsbD i

/-- R220: addresses of a strided access. -/
def laneStride (base stride : Word) (i : Nat) : Nat := (base + stride * BitVec.ofNat 64 i).toNat

/-- R220: address of a gathered lane. -/
def laneIndex (base : Word) (idx : VecImage) (sh i : Nat) : Nat :=
  (base + BitVec.ofNat 64 (elem idx.toNat 32 i * 2 ^ sh)).toNat

/-- R71, R201: bytes of an element of a format; taper-6 is packed four to three bytes. -/
def fmtBytes : Fmt → Nat
  | .b64 | .i64 => 8
  | .b32 | .i32 => 4
  | .b16 | .bf16 | .i16 => 2
  | .i8 | .t8 | .bx8 => 1
  | .t6 => 3
  | .raw => 1

/-- R201: the byte offset z(k) of element k of an array. -/
def zOff (f : Fmt) (k : Nat) : Nat := if f = .t6 then 3 * (k / 4) else k * fmtBytes f

/-- R64, R201: bytes of an array of n elements from its start. -/
def zLen (f : Fmt) (n : Nat) : Nat := if f = .t6 then 3 * ((n + 3) / 4) else n * fmtBytes f

/-- R197: rows a pass or drain covers. -/
def rowsOf (mcfg : Word) : Nat := 32 - fld mcfg.toNat 12 8

/-- R197: columns a pass or drain covers. -/
def colsOf (mcfg : Word) : Nat := 32 - fld mcfg.toNat 20 16

/-- A row of an array in storage: its start address (modulo 2^64) and its length. -/
def rowSpan (base stride : Word) (f : Fmt) (n i : Nat) : Nat × Nat :=
  ((base + stride * BitVec.ofNat 64 i).toNat, zLen f n)

/-- R201: the rows of operand A (op false) or B (op true) of a pass of kb K-blocks. -/
def operandRows (op : Bool) (mcfg base stride : Word) (f : Fmt) (kb : Nat) : List (Nat × Nat) :=
  let k := 32 * kb
  let trans := if op then bitAt mcfg.toNat 1 else bitAt mcfg.toNat 0
  let n := if op then colsOf mcfg else rowsOf mcfg
  -- operand A: rows of K elements; B: K rows of n elements; transposed the other way round
  if op = trans then (List.range n).map fun i => rowSpan base stride f k i
  else (List.range k).map fun i => rowSpan base stride f n i

/-- R211: the rows a drain writes. -/
def drainRows (mcfg base stride : Word) (f : Fmt) : List (Nat × Nat) :=
  (List.range (rowsOf mcfg)).map fun i => rowSpan base stride f (colsOf mcfg) i

/-- The format an operand field names: FMT, or the format register of the scratchpad bank the base lies in (R200). -/
def bankFmt (code : Nat) : Fmt :=
  match Fmt.ofCode code with
  | some f => f
  | none => .raw

/-- R51, R52: the format code of a bank for an operation accepted in a cycle: a write counts from the cycle after it. -/
def bankCodeAt (s : State) (cyc core bank : Nat) : Nat :=
  let u := coreAt s core
  match u.fmtPend.reverse.find? (fun w => w.bank == bank && decide (w.exec < cyc)) with
  | some w => w.code
  | none => sget 0 u.fmts bank

/-- R51, R52: the format code of a bank for an operation accepted now. -/
def bankCode (s : State) (core bank : Nat) : Nat := bankCodeAt s s.cyc core bank

/-- R56, R58: the intermediate address of a place, where a range register encloses it. -/
def placeIa (s : State) (p : Place) : Option Nat :=
  if p.w then some (spAddr (myCore s) p.addr) else (rangeFind (mapped s) p.addr).map fun r => rangeMap r p.addr

/-- R58, R202: the core and scratchpad offset of a place, where it is one. -/
def placeScratch (s : State) (p : Place) : Option (Nat × Nat) :=
  if p.w then some (myCore s, p.addr)
  else match rangeFind (mapped s) p.addr with
    | none => none
    | some r =>
      match windowOf (myCore s) (rangeMap r p.addr) with
      | .scratch core off => some (core, off)
      | _ => none

/-- The format of the bank a place lies in; raw where it is no scratchpad. -/
def placeFmt (s : State) (p : Place) : Fmt :=
  match placeScratch s p with
  | some (core, off) => bankFmt (bankCode s core (off / 32768))
  | none => .raw

/-- R200, R211: the format an instruction's FMT selects at a place. -/
def resolveFmt (s : State) (f : Fmt) (p : Place) : Fmt := if f = .raw then placeFmt s p else f

/-- What an instruction touches: places with lengths, and whether it writes them. -/
def touches (s : State) (i : Instr) : List (Place × Nat × Bool) :=
  match i with
  | .ld _ a sz w off => [(⟨w, (eaOff s a off).toNat⟩, sizeBytes sz, false)]
  | .ldx _ a b w sz => [(⟨w, (eaIndex s a b (sizeBytes sz)).toNat⟩, sizeBytes sz, false)]
  | .st _ a sz w off => [(⟨w, (eaOff s a off).toNat⟩, 2 ^ sz, true)]
  | .stx _ a b w sz => [(⟨w, (eaIndex s a b (2 ^ sz)).toNat⟩, 2 ^ sz, true)]
  | .sti d a w sz _ => [(⟨w, (readS s a + BitVec.ofNat 64 (d * 2 ^ sz)).toNat⟩, 2 ^ sz, true)]
  | .vld _ a k w off => (lanesOf (readM s k)).map fun i => (⟨w, (eaOff s a off + BitVec.ofNat 64 (4 * i)).toNat⟩, 4, false)
  | .vst _ a k w off => (lanesOf (readM s k)).map fun i => (⟨w, (eaOff s a off + BitVec.ofNat 64 (4 * i)).toNat⟩, 4, true)
  | .vlds _ a b k w => (lanesOf (readM s k)).map fun i => (⟨w, laneStride (readS s a) (readS s b) i⟩, 4, false)
  | .vsts _ a b k w => (lanesOf (readM s k)).map fun i => (⟨w, laneStride (readS s a) (readS s b) i⟩, 4, true)
  | .vgth _ a b k w sh => (lanesOf (readM s k)).map fun i => (⟨w, laneIndex (readS s a) (readV s b) sh i⟩, 4, false)
  | .vsct _ a b k w sh => (lanesOf (readM s k)).map fun i => (⟨w, laneIndex (readS s a) (readV s b) sh i⟩, 4, true)
  | .vldb _ a k sz w off => (lanesOf (readM s k)).map fun _ => (⟨w, (eaOff s a off).toNat⟩, sizeBytes sz, false)
  | .qld _ a p w off => [(⟨w, (eaOff s a off).toNat⟩, if p then 8192 else 4096, false)]
  | .qst _ a p w off => [(⟨w, (eaOff s a off).toNat⟩, if p then 8192 else 4096, true)]
  | .amo _ a _ _ _ sz _ => [(⟨false, (readS s a).toNat⟩, 2 ^ sz, true)]
  | .cas _ a _ _ _ sz _ => [(⟨false, (readS s a).toNat⟩, 2 ^ sz, true)]
  | .vamo _ a b _ k _ x _ =>
    (lanesOf (readM s k)).map fun i =>
      (⟨false, if x then laneIndex (readS s a) (readV s b) 2 i else (readS s a + BitVec.ofNat 64 (4 * i)).toNat⟩, 4, true)
  | .ald _ a sz _ _ off => [(⟨false, (eaOff s a off).toNat⟩, sizeBytes sz, false)]
  | .ldt _ a sz _ off => [(⟨false, (eaOff s a off).toNat⟩, sizeBytes sz, false)]
  | .vldt _ a k _ off =>
    (lanesOf (readM s k)).map fun i => (⟨false, (eaOff s a off + BitVec.ofNat 64 (4 * i)).toNat⟩, 4, false)
  | .note a _ _ => [(⟨true, (readS s a).toNat⟩, 32, false)]
  | .agrun a _ _ => [(⟨true, (readS s a).toNat⟩, 128, false)]
  | .ngrpNew _ a b => [(⟨true, (readS s a).toNat⟩, 2 * (readS s b).toNat % 4096, false)]
  | .mma _ aa as ba bs fmt kb _ wb wa =>
    let mcfg := (me s).regs.mcfg
    let fa := resolveFmt s fmt ⟨wa, (readS s aa).toNat⟩
    (operandRows false mcfg (readS s aa) (readS s as) fa (kb + 1)).map (fun (b, n) => (⟨wa, b⟩, n, false)) ++
    (operandRows true mcfg (readS s ba) (readS s bs) fa (kb + 1)).map (fun (b, n) => (⟨wb, b⟩, n, false))
  | .mcast _ a k off => (lanesOf (readM s k)).map fun i => (⟨false, (eaOff s a off).toNat + 4 * i⟩, 4, true)
  | .ckey a _ _ => [(⟨true, (readS s a).toNat⟩, 128, true)]
  | .mdrn _ b c _ w fmt =>
    (drainRows (me s).regs.mcfg (readS s b) (readS s c) (resolveFmt s fmt ⟨w, (readS s b).toNat⟩)).map
      fun (b, n) => (⟨w, b⟩, n, true)
  | .mdrnb _ _ b c _ w fmt =>
    (drainRows (me s).regs.mcfg (readS s b) (readS s c) (resolveFmt s fmt ⟨w, (readS s b).toNat⟩)).map
      fun (b, n) => (⟨w, b⟩, n, true)
  | _ => []

/-- R216, R117: the vector registers, masks and special registers on which the addresses of an access that may slip depend. -/
def addrRegs (i : Instr) : List Reg :=
  match i with
  | .vld _ _ k _ _ | .vst _ _ k _ _ | .vlds _ _ _ k _ | .vsts _ _ _ k _ | .vldb _ _ k _ _ _ | .vldt _ _ k _ _ | .mcast _ _ k _ => [.m k]
  | .vgth _ _ b k _ _ | .vsct _ _ b k _ _ => [.m k, .v b]
  | .mma .. | .mdrn .. | .mdrnb .. => [.mcfg]
  | _ => []

/-- R223 to R227: bytes of one element of an atomic. -/
def accessSize : Instr → Nat
  | .amo _ _ _ _ _ sz _ => 2 ^ sz
  | .cas _ _ _ _ _ sz _ => 2 ^ sz
  | .ald _ _ sz _ _ _ => sizeBytes sz
  | _ => 4

/-- A piece of the acting core's scratchpad: offset, length, and whether it is written. -/
abbrev Span := Nat × Nat × Bool

/-- R54, R117, R232: the pieces of its own core's scratchpad an instruction touches; MCAST writes its cluster's own copy too. -/
def ownSpans (s : State) (i : Instr) : List Span :=
  (touches s i).filterMap fun (p, n, wr) =>
    match placeIa s p with
    | some ia =>
      match windowOf (myCore s) ia with
      | .scratch core off => if core = myCore s then some (off, n, wr) else none
      | .mcast k off => if wr ∧ k = myCore s / 8 then some (off, n, wr) else none
      | _ => none
    | none => none

/-- R87: the pieces of storage beyond its core's scratchpad an instruction touches, by intermediate address. -/
def farSpans (s : State) (i : Instr) : List Span :=
  (touches s i).filterMap fun (p, n, wr) =>
    match placeIa s p with
    | some ia =>
      match windowOf (myCore s) ia with
      | .scratch core _ => if core = myCore s then none else some (ia, n, wr)
      | _ => some (ia, n, wr)
    | none => none

/-- Two pieces share a byte. -/
def spanMeets (a b : Span) : Bool := decide (a.1 < b.1 + b.2.1) && decide (b.1 < a.1 + a.2.1)

/-- R54: every byte of a piece is ready for the context. -/
def spanReady (c : Ctx) (p : Span) : Bool :=
  c.range.all fun (_, e) =>
    let w := e.word.toNat
    !(bitAt w 48 && !bitAt w 49 && spanMeets p (fld w 14 0 * 64, fld w 30 15 * 64, false))

/-- R87, R117: an access of a slot waits for another slot of its own bundle: its write for the other's read, or for the write of a lower
slot. -/
def peerClash (slot : Nat) (as_ : List Span) (slot' : Nat) (bs : List Span) : Bool :=
  as_.any fun a => bs.any fun b => a.2.2 && (!b.2.2 || decide (slot' < slot)) && spanMeets a b

/-- R117: two accesses of one context to a common byte, one of them a write. -/
def spanClash (as_ bs : List Span) : Bool :=
  as_.any fun a => bs.any fun b => (a.2.2 || b.2.2) && spanMeets a b

/-- R211: scratchpad bytes a drain of the context has still to land. -/
def drainSpans (c : Ctx) : List Span :=
  c.flights.flatMap fun f =>
    match f.src with
    | .stores _ bs => bs.map fun (o, _) => (o, 1, true)
    | _ => []

end Sys2Proof.Machine
end

