-- ==== Sys2Proof/Machine/Notice.lean ====
section
/-!
DEFINITION. Consumer groups (R250, R284), notice images (R282, R283) and the checks of NOTE, RROOT and AGWAIT that decide whether
their bundle blocks (R238, R253, R256).
-/

namespace Sys2Proof.Machine

/-! ### Groups -/

/-- The group table entry a handle names, in the partition of quarter q. -/
def groupAt (s : State) (q h : Nat) : Group := sget {} s.groups (4096 * q + h % 4096)

/-- R284: quarters of a partition. -/
def partQuarters (s : State) (q : Nat) : Nat := ((List.range 4).filter fun i => bitAt (qset s q) i).length

/-- R284: the members of a live handle. -/
def groupMembers (s : State) (q h : Nat) : Option (List Nat) :=
  let g := groupAt s q h
  if h % 4096 < 1024 * partQuarters s q ∧ g.live ∧ g.gen = fld h 15 12 then some g.members else none

/-! ### Notice images -/

/-- R282: the tag of a notice. -/
def imgTag (img : Nat) : Nat := img % 2 ^ 32

/-- R282: the size of a notice's block. -/
def imgSize (img : Nat) : Nat := if fld img 55 32 = 0 then 2 ^ 24 else fld img 55 32

/-- R282: the consumers an image names, in the partition of quarter q; none where its group handle is not live. -/
def imgConsumers (s : State) (q img : Nat) : Option (List Nat) :=
  let nc := fld img 154 152
  if nc = 0 then groupMembers s q (fld img 175 160)
  else some ((List.range nc).map fun i => fld img (171 + 12 * i) (160 + 12 * i))

/-- R283: the image is malformed. -/
def imgMalformed (s : State) (q img : Nat) : Bool :=
  let nc := fld img 154 152
  fld img 127 120 != 0 || bitAt img 143 || fld img 159 155 != 0 || fld img 255 232 != 0 || nc == 7
    || decide (0xC ≤ fld img 147 144)
    || (if nc = 0 then fld img 231 176 != 0 else fld img 231 160 / 2 ^ (12 * nc) != 0) ||
    match imgConsumers s q img with
    | none => true
    | some cs =>
      (nc != 0 && (cs.any (fun c => !coreReached s q c) || cs.eraseDups.length != cs.length))
        || decide (cs.length < fld img 63 56)

/-- R238, R282: the image with ADDR and PROD as the device writes them. -/
def imgPublished (img ia prod : Nat) : Nat := setFld (setFld img 119 64 ia) 139 128 prod

/-! ### NOTE -/

/-- What a check at execution answers: a trap with the addresses it names, or the operands it settles. -/
inductive ExecCheck where
  | trap (code va ia : Nat)
  | ok (args : List Nat)
deriving DecidableEq, Repr

/-- R238: live notices of a core's outbox, those on their way to it included.  DESIGN CHOICE (log 30): a released notice whose pulls are still
open counts here, for the tag and the limit of 64, while WDRAW's search no longer finds it (acceptWdraw). -/
def outboxTags (s : State) (core : Nat) : List Nat :=
  ((s.notices.filter fun n => n.key / 4 == core && n.chunk.isNone && !n.out).map fun n => imgTag n.img) ++
  ((s.reqs.filter fun r => r.key / 4 == core && !r.accepted && (match r.ins with | .note .. => true | _ => false)).map
    fun r => imgTag (r.args.getD 0 0))

/-- R238, R283: the checks of NOTE: the published image, then the consumers. DESIGN CHOICE (log 26): a block at a scratchpad offset (V = 0) that
passes SPSIZE leaves its window, and takes the range fault that R238 names for that, not the window fault of R50 and R59. -/
def noteCheck (s : State) (a : Nat) (v : Bool) : ExecCheck :=
  let off := (readS s a).toNat
  let core := myCore s
  let q := myLead s
  if off % 32 ≠ 0 then .trap 0x04 0 0
  else if mySp s < off + 32 then .trap 0x0B 0 (spAddr core off)
  else
    let img := spNum s core off 32
    if imgMalformed s q img then .trap 0x18 0 0
    else
      let addr := fld img 119 64
      let size := imgSize img
      let done (ia : Nat) : ExecCheck :=
        if (outboxTags s core).contains (imgTag img) then .trap 0x19 0 0
        else .ok (imgPublished img ia core :: (imgConsumers s q img).getD [])
      if v then
        match rangeCheck (mapped s) addr size .read with
        | .trap code va ia => .trap code va ia
        | .ok ia =>
          match windowOf core ia, windowOf core (ia + size - 1) with
          | .scratch c o, .scratch d p =>
            if c ≠ d then .trap 0x09 addr ia
            else if windowOk s (quarterOf core) (me s).pl (.scratch c (max o p)) then done (spAddr c o) else .trap 0x0B addr ia
          | .memory, .memory | .cxl, .cxl => done ia
          | .memory, _ | .cxl, _ | .scratch .., _ => .trap 0x09 addr ia
          | _, _ => .trap 0x0B addr ia
      else if mySp s < addr + size then .trap 0x09 0 (spAddr core addr)
      else done (spAddr core addr)

/-! ### RROOT -/

/-- R253: trees open at a core's port engine, those on their way to it included. -/
def openTrees (s : State) (core : Nat) : List TreeJob :=
  s.reqs.filterMap fun r => match r.job with
    | .tree t => if r.key / 4 = core ∧ !t.closed then some t else none
    | _ => none

/-- R290, R45: the die of a core. -/
def dieOf (core : Nat) : Nat := core / 96

/-- R252, R253: the checks of RROOT: TAG, OP, LEN, SHP, timeout code, result offset, then the members. -/
def rrootCheck (s : State) (a b : Nat) : ExecCheck :=
  let off := (readS s a).toNat
  let d := (readS s b).toNat
  let core := myCore s
  let len := fld d 43 32
  match groupMembers s (myLead s) (fld d 31 16) with
  | none => .trap 0x04 0 0
  | some ms =>
    if fld d 63 54 ≠ 0 ∨ off % 4 ≠ 0 ∨ len % 4 ≠ 0 ∨ len < 4 ∨ 2048 < len ∨ 3 < fld d 47 44 ∨ 1 < fld d 49 48
        ∨ 64 < ms.length ∨ (ms.any fun m => dieOf m != dieOf core) ∨ ((openTrees s core).any fun t => t.tag == d % 2 ^ 16) then
      .trap 0x04 0 0
    else if mySp s < off + len then .trap 0x0B 0 (spAddr core off)
    else .ok ([d % 2 ^ 16, fld d 47 44, len, fld d 49 48, fld d 53 50, off] ++ ms)

/-! ### AGWAIT -/

/-- R255: the key of a graph slot: 16 × die + slot. -/
def graphKey (core slot : Nat) : Nat := 16 * dieOf core + slot % 16

/-- R256: unfinished accepted runs of a slot issued from a core. -/
def runsOpen (s : State) (core slot : Nat) : Bool :=
  s.reqs.any fun r => r.accepted && r.key / 4 == core &&
    match r.job with
    | .run j => j.graph == graphKey core slot
    | _ => false

end Sys2Proof.Machine
end

