-- ==== Sys2Proof/Machine/Rings.lean ====
section
/-!
DEFINITION. The tables of the state store (R304, R308, R314, R397): sequences, their layer tables and their sillage rings.
-/

namespace Sys2Proof.Machine

/-! ### Tables -/

/-- R397: the intermediate address of a slot of the sequence table. -/
def seqSlot (s : State) (q n : Nat) : Nat := creg s q .xlate 0x040 + 64 * (n % max 1 (creg s q .xlate 0x048))

/-- R397: a sequence as its table describes it. -/
structure Seq where
  at_ : Nat
  nl : Nat
  ltab : Nat
  ring : Nat
deriving DecidableEq, Repr

/-- R397: NL and NLCAP are 12 bits wide and range to 4,096: 0 stands for it (DEDUCED, log 38). -/
def layerCount (x : Nat) : Nat := if x = 0 then 4096 else x

/-- R304, R397: the sequence, if it exists. -/
def seqOf (s : State) (q n : Nat) : Option Seq :=
  let a := seqSlot s q n
  let x := sysNum s q a 64
  if creg s q .xlate 0x048 ≠ 0 ∧ bitAt x 44 ∧ fld x 31 0 = n then some ⟨a, layerCount (fld x 43 32), fld x 191 128, fld x 255 192⟩ else none

/-- R441: the state with a number of n bytes written in the system address space, where an operation has found its page (findSys). -/
def sysPut (s : State) (q ia n v : Nat) : State := (sysWrite s q ia (toBytes n v)).1

/-- R308: ring entry i. -/
def ringEntry (s : State) (q : Nat) (x : Seq) (i : Nat) : Nat := sysNum s q (x.ring + 32 * i) 32

/-- R308: the state with ring entry i written. -/
def putEntry (s : State) (q : Nat) (x : Seq) (i v : Nat) : State := sysPut s q (x.ring + 32 * i) 32 v

/-- R6, R397: a sequence table's entry has a reserved bit. -/
def seqMalformed (x : Nat) : Bool := fld x 63 45 != 0 || fld x 127 76 != 0 || fld x 511 256 != 0

/-- R6, R308: an entry of a ring has a reserved bit. -/
def ringMalformed (s : State) (q : Nat) (x : Seq) : Bool :=
  (List.range 16).any fun i => fld (ringEntry s q x i) 63 50 != 0 || fld (ringEntry s q x i) 127 80 != 0

/-- R308: the valid entries of a ring. -/
def ringValid (s : State) (q : Nat) (x : Seq) : List Nat := (List.range 16).filter fun i => bitAt (ringEntry s q x i) 48

/-- R308: the valid entry at a position. -/
def ringAt (s : State) (q : Nat) (x : Seq) (p : Nat) : Option Nat :=
  (ringValid s q x).find? fun i => fld (ringEntry s q x i) 47 0 == p

/-- R397: the frames of a layer table, layer by layer; 0 for null. -/
def tableOf (s : State) (q tbl nl : Nat) : List Nat := (List.range nl).map fun l => fld (sysNum s q (tbl + 8 * l) 8) 35 0

/-- The state with a layer table written. -/
def putTable (s : State) (q tbl : Nat) (fs : List Nat) : State :=
  (fs.zip (List.range fs.length)).foldl (fun s (f, l) => sysPut s q (tbl + 8 * l) 8 f) s

/-- R314: a demoted page lies in an expander's frame. -/
def frameAway (f : Nat) : Bool := f / 2 ^ 34 != 0

/-- R304: the sequence that a slot of a quarter's sequence table holds. -/
def slotSeq (s : State) (q slot : Nat) : Option Seq :=
  let a := creg s q .xlate 0x040 + 64 * slot
  let x := sysNum s q a 64
  if bitAt x 44 then some ⟨a, layerCount (fld x 43 32), fld x 191 128, fld x 255 192⟩ else none

/-- R308, R314: the ring entry with DEM as its frozen table has it. -/
def setDem (q : Nat) (x : Seq) (s : State) (i : Nat) : State :=
  let e := ringEntry s q x i
  putEntry s q x i (setBit e 49 ((tableOf s q (fld e 255 192) x.nl).any frameAway))

/-- The 64-byte lines of memory that hold a layer table. -/
def tableLines (s : State) (q tbl nl : Nat) : List Nat :=
  (List.range ((nl + 7) / 8)).filterMap fun l => (anyLeaf s q 0 (tbl + 64 * l)).map fun p => p.2 / 64

/-- R314: writes at these intermediate addresses of an address space have performed: DEM follows in each ring entry whose frozen table holds
one of their bytes (system software demotes a page by storing its new frame there). -/
def noteDemoted (s : State) (q asn : Nat) (ias : List Nat) : State :=
  if creg s q .xlate 0x048 = 0 then s else
  let lines := ias.filterMap fun ia => (anyLeaf s q asn ia).map fun p => p.2 / 64
  (List.range (creg s q .xlate 0x048)).foldl (fun s slot =>
    match slotSeq s q slot with
    | some x =>
      let hit (i : Nat) : Bool := (tableLines s q (fld (ringEntry s q x i) 255 192) x.nl).any lines.contains
      ((ringValid s q x).filter hit).foldl (setDem q x) s
    | none => s) s

end Sys2Proof.Machine
end

