-- ==== Sys2Proof/Machine/Issue.lean ====
section
/-!
DEFINITION. The issue of a bundle: the selector (R13 to R15), fetch (R104, R141, R157), the decode checks (R110, R111), the
conditions that hold a bundle back (R12, R113, R116, R118, R148 to R151, R402), marks (R90, R218, R401), slip (R115 to R119),
and what comes after a bundle's last slot (R21, R34, R145, R152, R155).
-/

namespace Sys2Proof.Machine

/-! ### Marks -/

/-- How the translations of a region's gated stores stand (R218). -/
inductive GateEnd where
  | ok
  | wait
  | fail (code : Nat) (g : GateByte)
deriving DecidableEq, Repr

/-- The first gated byte of each unit of n bytes, in program order. -/
def firstPer (n : Nat) : List Nat → List GateByte → List GateByte
  | _, [] => []
  | seen, g :: gs =>
    if seen.contains (g.ia / n) then firstPer n seen gs
    else g :: firstPer n (g.ia / n :: seen) gs

/-- R218: confirm the translations of gated stores, one for each page. -/
def confirmPages (q core asn : Nat) : List GateByte → State → State × GateEnd
  | [], s => (s, .ok)
  | g :: gs, s =>
    match windowOf core g.ia with
    | .memory | .cxl =>
      match resolvePage s q asn g.ia true with
      | (s, .ok _ _) => confirmPages q core asn gs s
      | (s, .wait) => (s, .wait)
      | (s, .range) => (s, .fail 0x09 g)
      | (s, .protection) => (s, .fail 0x0A g)
      | (s, .pageFault) => (s, .fail 0x0C g)
    | _ => confirmPages q core asn gs s

/-- R218, R334: confirm a context's closing region. -/
def confirmRegion (s : State) (k : Nat) : State × GateEnd :=
  let gate := (ctxOf s k).region.gate
  match reachLines s k (ctxOf s k).asn true true (pagedOnly (k / 4) ((firstPer 64 [] gate).map GateByte.ia)) with
  | (s, true) => (s, .wait)
  | (s, false) => confirmPages (leadCore s (k / 4)) (k / 4) (ctxOf s k).asn (firstPer (2 ^ 16) [] gate) s

/-- R83, R84: the bytes of a load in the aligned 16-byte unit of an intermediate address, whose storage address is a, bind as they
stand; where the load also takes the unit's bytes at ia only, they belong to one read. -/
def bindUnit (s : State) (ia a : Nat) (bs : List LoadByte) : List LoadByte :=
  bs.map fun b =>
    if b.ia / 16 = ia / 16 ∧ b.fwd.isNone then { b with fwd := some (mget s (a + b.ia % 16 - ia % 16)) } else b

/-- R83, R84: loads of the context in flight bind the whole 16-byte unit of a byte as the context's own access to it, of bundle seq, performs,
so that what they read stays one read: those of that bundle or older, and, where the access is a store, those that took its byte from the
gate. -/
def bindFlights (s : State) (k seq ia a : Nat) (store : Bool) : State :=
  let unit (f : Flight) (bs : List LoadByte) : List LoadByte :=
    if f.bseq ≤ seq || (store && bs.any fun b => b.ia == ia && b.fwd.isSome) then bindUnit s ia a bs else bs
  updCtx s k fun c => { c with flights := c.flights.map fun f =>
    match f.src with
    | .load d sh va bs => { f with src := .load d sh va (unit f bs) }
    | .tolerant d fl sh va bs => { f with src := .tolerant d fl sh va (unit f bs) }
    | _ => f }

/-- R101, R204: passes of the context still read the byte with this key, which stands at storage address a, as of their MMA, and its engine
operations one of its own scratchpad as of their issue. -/
def overlayPasses (s : State) (k seq key a : Nat) : State :=
  let s := keepUnit s k seq key a
  if spAddr (k / 4) 0 ≤ key ∧ key < spAddr (k / 4 + 1) 0 then { s with reqs := s.reqs.map (overlayReq k seq key (mget s a)) } else s

/-- An address in each 64-byte line of n bytes from an intermediate address on. -/
def lineAddrs (ia n : Nat) : List Nat := (List.range (n / 64 + 1)).map (fun i => ia + 64 * i) ++ [ia + n - 1]

/-- R300, R314: writes for a context, at these intermediate addresses of an address space, to the records of barker chunks and to the frozen
tables of the state store. -/
def touchChunks (s : State) (k asn : Nat) (ias : List Nat) : State :=
  let s := noteDemoted s (leadCore s (k / 4)) asn (pagedOnly (k / 4) ias)
  if s.chunks.isEmpty then s
  else { s with chunks := s.chunks.map fun x =>
    if x.asn = asn ∧ ias.any (fun ia => ia / 64 * 64 == x.ia) then { x with key := k, failed := false } else x }

/-- R206: rows of an operand of the next K-block that the pass does not fetch again. -/
def resumeRow (op : Bool) (p : Pass) : Nat :=
  if p.susp.kept.isNone then 0
  else if op then (if p.susp.op then p.susp.row else 0)
  else if p.susp.op then 32 else p.susp.row

/-- R201, R204, R206: what a pass has still to read of an operand, from its next K-block on. -/
def unreadRows (op : Bool) (p : Pass) : List (Nat × Nat) :=
  let (base, stride) := if op then (p.bBase, p.bStride) else (p.aBase, p.aStride)
  let trans := if op then bitAt p.mcfg.toNat 1 else bitAt p.mcfg.toNat 0
  let n := if op then colsOf p.mcfg else rowsOf p.mcfg
  let r := resumeRow op p
  if op = trans then
    (List.range n).map fun i =>
      let b := if i < r then p.kbn + 1 else p.kbn
      let k := 32 * (p.kb - b)
      ((rowSpan base stride p.fmt k i).1 + zOff p.fmt (32 * b), zLen p.fmt k)
  else ((List.range (32 * (p.kb - p.kbn))).drop r).map fun i => rowSpan base stride p.fmt n (32 * p.kbn + i)

/-- R202, R204: the pieces of storage a pass of a context has still to read, by intermediate address (its own core's scratchpad in the
core-window form). -/
def unreadSpans (s : State) (k : Nat) (p : Pass) : List Span :=
  let core := k / 4
  let far (w : Bool) (r : Nat × Nat) : Option Span :=
    if w then some (spAddr core r.1, r.2, false)
    else (rangeFind { ctxOf s k with rregs := p.maps } r.1).map fun x =>
      let ia := rangeMap x r.1
      (if ia < 0x200000 then spAddr core ia else ia, r.2, false)
  if p.kb ≤ p.kbn then [] else (unreadRows false p).filterMap (far p.wa) ++ (unreadRows true p).filterMap (far p.wb)

/-- R204: what the passes of a context have still to read, with the bundles of their MMAs. -/
def unread (s : State) (k : Nat) : List (Nat × Span) :=
  (coreAt s (k / 4)).passes.flatMap fun p => if p.ctx = k % 4 then (unreadSpans s k p).map fun x => (p.seq, x) else []

/-- R204: a released byte that passes of the context older than its store have still to read. -/
def mustWait (core : Nat) (us : List (Nat × Span)) (g : GateByte) : Bool :=
  us.any fun (seq, x) => decide (seq ≤ g.seq) &&
    match windowOf core g.ia with
    | .mcast c off => (List.range 8).any fun i => spanMeets (spAddr (8 * c + i) off, 1, true) x
    | _ => spanMeets (g.ia, 1, true) x

/-- R89, R440: released bytes as they perform: those of a store to consecutive bytes of a control or notify window as one write, the others one
by one. -/
def writeUnits (core : Nat) : List GateByte → List (GateByte × List Byte)
  | [] => []
  | g :: gs =>
    match windowOf core g.ia, writeUnits core gs with
    | .ctl .., (h, bs) :: us | .notify .., (h, bs) :: us | .slice .., (h, bs) :: us =>
      if h.store = g.store ∧ h.ia = g.ia + 1 then (g, g.byte :: bs) :: us else (g, [g.byte]) :: (h, bs) :: us
    | _, us => (g, [g.byte]) :: us

/-- The released bytes of a unit. -/
def unitBytes (u : GateByte × List Byte) : List GateByte :=
  ((List.range u.2.length).zip u.2).map fun (i, b) => { u.1 with ia := u.1.ia + i, byte := b }

/-- R60, R89, R334, R396: a unit of released bytes of a context performs; false where a handler or a migration of its page makes it wait.  A
translation that has gone since the mark leaves the byte the place that the mark confirmed. -/
def performUnit (k : Nat) (s : State) (u : GateByte × List Byte) : State × Bool :=
  let g := u.1
  let q := leadCore s (k / 4)
  let put (s : State) (ia key a : Nat) : State := mput (overlayPasses (bindFlights s k g.seq ia a true) k g.seq key a) a g.byte
  match windowOf (k / 4) g.ia with
  | .scratch n off => (put s g.ia (spAddr n off) (spAddr n off), true)
  | .mcast c off =>
    (((List.range 8).filter fun i => g.own || 8 * c + i != k / 4).foldl
      (fun s i => put s (spAddr (8 * c + i) off) (spAddr (8 * c + i) off) (spAddr (8 * c + i) off)) s, true)
  | .memory | .cxl =>
    if lineHeld s q g.ia true then (s, false)
    else match resolvePage s q (ctxOf s k).asn g.ia true with
      | (s, .ok pa leaf) => (soilLine (l1Access (put s g.ia (farKey g.ia) (paAddr pa)) (k / 4) leaf g.ia true) q g.ia, true)
      | (s, .wait) => (s, false)
      | (s, _) => (match g.pa with | some pa => put s g.ia (farKey g.ia) (paAddr pa) | none => s, true)
  | .ctl .. | .notify .. | .slice .. => (regWrite s { subjOf k with id := g.ia, val := g.pl, data := u.2 }, true)
  | .none => (s, true)

/-- R89, R204: released units perform in program order, up to the first that must wait, for passes that have still to read its bytes where us
says so; the rest goes on waiting. -/
def performGate (k : Nat) (us : List (Nat × Span)) : List (GateByte × List Byte) → State → State
  | [], s => s
  | u :: rest, s =>
    match if (unitBytes u).any (mustWait (k / 4) us) then (s, false) else performUnit k s u with
    | (s, true) => performGate k us rest s
    | (s, false) => updCtx s k fun c => { c with late := (u :: rest).flatMap unitBytes }

/-- R212: the tiles counted once the stores before them have performed. -/
def countTiles (s : State) (k : Nat) : State :=
  if !(ctxOf s k).late.isEmpty || (ctxOf s k).lateTiles.isEmpty then s
  else ((ctxOf s k).lateTiles).foldl (fun s h => addReady s ⟨.chunkTileCount, { subjOf k with id := h }⟩)
    (updCtx s k fun c => { c with lateTiles := [] })

/-- R89, R204, R300: the released bytes of a context perform as far as they can; us says what its passes have still to read. -/
def performLate (s : State) (k : Nat) (us : List (Nat × Span)) : State :=
  let c := ctxOf s k
  let s := performGate k us (writeUnits (k / 4) c.late) (updCtx s k fun c => { c with late := [] })
  let n := c.late.length - (ctxOf s k).late.length
  countTiles (touchChunks s k c.asn ((c.late.take n).map GateByte.ia)) k

/-- R204: the bytes of a context that waited perform where nothing holds them any longer; a bundle that waited for them is tried again. -/
def flushLate (s : State) (k : Nat) : State :=
  if (ctxOf s k).late.isEmpty then s
  else
    let s := performLate s k (unread s k)
    if (ctxOf s k).late.isEmpty then wake s k else s

/-- R97, R204: the bytes of a context that stops perform whatever its stopped passes have still to read; the passes keep the values as of
their MMAs. -/
def forceLate (s : State) (k : Nat) : State := if (ctxOf s k).late.isEmpty then s else performLate s k []

/-- R218: a released byte with the place its mark confirmed. -/
def confirmedAt (s : State) (k : Nat) (g : GateByte) : GateByte :=
  if g.pa.isSome then g
  else { g with pa := (tlbFind s (leadCore s (k / 4)) (ctxOf s k).asn g.ia).map fun t => leafPa t.leaf t.huge g.ia }

/-- R89, R102: release a region's gated stores in program order; those to a control or notify window become register writes. -/
def releaseGate (s : State) (k : Nat) : State :=
  let s := updCtx s k fun c => { c with late := c.late ++ c.region.gate, lateTiles := c.lateTiles ++ c.region.chunks }
  let s := performLate s k (unread s k)
  if (ctxOf s k).late.isEmpty then s else updCtx s k fun c => { c with late := c.late.map (confirmedAt s k) }

/-- R90, R152, R401: a mark completes: the closing region's stores are released, and the given mark is what rollback restores. -/
def completeMark (s : State) (k : Nat) (m : Mark) : State :=
  updCtx (releaseGate s k) k fun c =>
    { c with
      mark := m
      region := if c.nextMark.isSome then c.nextRegion else { seq := c.region.seq + 1 }
      nextRegion := {}, nextMark := none, ownMark := false, markWait := false, retry := false }

/-- R218: a store whose translation failed traps as its own instruction. -/
def gateTrap (s : State) (k code : Nat) (g : GateByte) : State :=
  takeTrap s k { trapOf s code with
    pc := g.pc, slot := g.slot, buf := false, pl := (ctxOf s k).pl, ep := (ctxOf s k).regs.ep, p0 := BitVec.ofNat 64 g.va, p1 := BitVec.ofNat 64 g.ia } g.seq

/-- R401: the requests of the bundle the after-mark follows have all been accepted and its atomic has performed. -/
def afterReady (s : State) (k : Nat) (m : Mark) : Bool :=
  s.reqs.all (fun r => !(r.key == k && r.bseq == m.bseq && !r.accepted)) &&
  (ctxOf s k).flights.all fun f => !(f.bseq == m.bseq && (match f.src with | .atomic .. => true | _ => false))

/-- R30, R260: a reclaim request is pending and no pin holds it. -/
def reclaimDue (c : Ctx) : Bool := c.reclaim && c.regs.pin == 0

/-- R30, R401: complete the mark under way, once its bundle can no longer trap; a held trap is then delivered.  A mark the program asked for
does not complete while a reclaim request is pending. -/
def tryAfterMark (s : State) (k : Nat) : State :=
  match (ctxOf s k).nextMark with
  | none => s
  | some m =>
    if !afterReady s k m || ((ctxOf s k).ownMark && reclaimDue (ctxOf s k)) then s
    else match confirmRegion s k with
      | (s, .wait) => updCtx s k fun c => { c with markWait := true }
      | (s, .fail code g) => gateTrap s k code g
      | (s, .ok) =>
        let held := (ctxOf s k).heldTrap.isSome
        let s := completeMark s k m
        if held then addReady s ⟨.trapDelivery, subjOf k⟩ else wake s k

/-! ### Fetch and decode checks -/

/-- What a fetch answers: the bundle, a trap, or a wait. -/
inductive FetchEnd where
  | ok (bundle : Nat)
  | trap (code va ia : Nat)
  | wait
deriving DecidableEq, Repr

/-- R157: where the context's page lay in storage when its last ISYNC issued. -/
def syncedPlace (s : State) (q : Nat) (c : Ctx) (ia : Nat) : Option Nat :=
  c.isync.bind fun (m, t) => match pageWalk { s with mem := m, tlb := t } q c.asn ia with
    | .leaf _ e huge => some (paAddr (leafPa e huge ia))
    | _ => none

/-- R157: the bytes a fetch from a storage address meets: what storage holds, or a copy fetched since the last ISYNC, or, of a line not
fetched since, what storage held when the ISYNC issued, at the place where the line lay then. -/
def staleOr (s : State) (c : Ctx) (then_ : Option Nat) (a : Nat) : List Byte :=
  let old := match c.fetched.find? (fun e => e.1 == c.pc), c.isync, then_ with
    | some (_, bs), _, _ => some bs
    | none, some (m, _), some b => some ((List.range 64).map fun i => sget unwritten m (b + i))
    | _, _, _ => none
  match old with
  | some bs => if Config.staleFetch s.fresh c.pc then bs else mgets s a 64
  | none => mgets s a 64

/-- R104, R141: fetch the bundle at a context's PC with execute permission. -/
def fetch (s : State) (k : Nat) : State × FetchEnd :=
  let c := ctxOf s k
  match rangeCheck c c.pc.toNat 64 .exec with
  | .trap code va ia => (s, .trap code va ia)
  | .ok ia =>
    match windowOf (k / 4) ia with
    | .scratch core off =>
      if windowOk s (quarterOf (k / 4)) c.pl (.scratch core (off + 63)) then
        (s, .ok (ofBytes (staleOr s c (some (spAddr core off)) (spAddr core off))))
      else (s, .trap 0x0B c.pc.toNat ia)
    | .memory | .cxl =>
      match reachLines s k c.asn false false (if c.fetched.any (fun e => e.1 == c.pc) then [] else [ia]) with
      | (s, true) => (s, .wait)
      | (s, false) =>
      match resolveAcc s (leadCore s (k / 4)) c.asn ia 2 false false with
      | (s, .ok pa _) => (s, .ok (ofBytes (staleOr s c (syncedPlace s (leadCore s (k / 4)) c ia) (paAddr pa))))
      | (s, .wait) => (s, .wait)
      | (s, .range) => (s, .trap 0x09 c.pc.toNat ia)
      | (s, .protection) => (s, .trap 0x0A c.pc.toNat ia)
      | (s, .pageFault) => (s, .trap 0x0C c.pc.toNat ia)
    | _ => (s, .trap 0x0B c.pc.toNat ia)

/-- R110: the checks of the slots in ascending index from i on: the trap code and slot of the first that fails, or the
operations. -/
def checkSlots (pl nv nt b : Nat) : Nat → Nat → (Nat × Nat) ⊕ List SlotOp
  | 0, _ => .inr []
  | n + 1, i =>
    let w := slotWord b i
    let kd := slotKind i
    if privOpcode kd w && pl == 0 then .inl (0x03, i)
    else match decodeSlot kd w with
      | none => .inl (0x01, i)
      | some o =>
        if fitsPartition nv nt o.ins then
          match checkSlots pl nv nt b n (i + 1) with
          | .inl e => .inl e
          | .inr os => .inr (o :: os)
        else .inl (0x01, i)

/-- R402: worst-case gate lines and journal lines of an instruction. -/
def reservation (i : Instr) : Nat × Nat :=
  match i with
  | .st .. | .stx .. | .sti .. => (2, 2)
  | .vst .. | .vsts .. | .vsct .. => (64, 64)
  | .mcast .. => (40, 0)
  | .qst _ _ p _ _ => if p then (129, 129) else (65, 65)
  | .mdrn _ _ _ p _ _ => if p then (160, 160) else (96, 96)
  | .mdrnb _ _ _ _ p _ _ => if p then (160, 160) else (96, 96)
  | .bfmt .. => (0, 1)
  | _ => (0, 0)

/-- R402: what a bundle reserves. -/
def bundleReserve (os : List SlotOp) : Nat × Nat :=
  os.foldl (fun (g, j) o => (g + (reservation o.ins).1, j + (reservation o.ins).2)) (0, 0)

/-- R111, R402: the index of the first slot whose destination an earlier slot also names, if there is one. -/
def sameWrite : Nat → List Reg → List SlotOp → Option Nat
  | _, _, [] => none
  | i, seen, o :: os =>
    let ds := (writesOf o.ins).filter fun r => !hardwired r
    if ds.any seen.contains then some i else sameWrite (i + 1) (seen ++ ds) os

/-- R110, R111, R402: decode a bundle: the trap code and slot, or the eight operations. -/
def decodeBundle (s : State) (k b : Nat) : (Nat × Nat) ⊕ List SlotOp :=
  let u := coreAt s (k / 4)
  match checkSlots (ctxOf s k).pl (vregCount u.vreg) (tileCount u.tile) b 8 0 with
  | .inl e => .inl e
  | .inr os =>
    match sameWrite 0 [] os with
    | some i => .inl (0x02, i)
    | none =>
      let (g, j) := bundleReserve os
      if 256 < g || 512 < j then .inl (0x02, 5) else .inr os

/-! ### Operations of a bundle as work -/

/-- R105: the predicate of an operation, read as its bundle issues. -/
def predTrue (s : State) (o : SlotOp) : Bool := readF s o.pred != o.neg

/-- R115: the operands an instruction holds from issue on. -/
def capsOf (s : State) (o : SlotOp) : List (Nat × Word) := (opScalars o).map fun n => (n, readS s n)

/-- R115: the slip buffer of a unit. -/
def slipBuf (c : Ctx) : SlipUnit → SlipBuf
  | .v => c.slipV
  | .m => c.slipM
  | .l => c.slipL
  | .x => c.slipX

/-- The context with a slip buffer replaced. -/
def setSlip (c : Ctx) (u : SlipUnit) (b : SlipBuf) : Ctx :=
  match u with
  | .v => { c with slipV := b }
  | .m => { c with slipM := b }
  | .l => { c with slipL := b }
  | .x => { c with slipX := b }

/-- The four slippable units, in slot order. -/
def slipUnits : List SlipUnit := [.v, .m, .l, .x]

/-- Every buffered entry of a context. -/
def allSlips (c : Ctx) : List SlipEntry := slipUnits.flatMap fun u => (slipBuf c u).entries

/-- R118: every slip buffer of the context is empty. -/
def slipsEmpty (c : Ctx) : Bool := (allSlips c).isEmpty

/-- R112, R117, R173: lock-step execution would not have landed the register's value in this cycle.  R173 counts L in bundles and R112
and R117 count it in cycles between issues; the two differ where cycles pass without a bundle, and the model counts cycles (DESIGN CHOICE,
log 55). -/
def lockUndef (s : State) (r : Reg) : Bool :=
  (me s).flights.any (fun f => f.fixed && f.dsts.contains r && decide (s.cyc < f.issued + f.bound)) ||
  (allSlips (me s)).any fun e =>
    e.pred && (writesOf e.work.op.ins).contains r && decide (s.cyc < e.work.issued + slipBound e.work.op.ins)

/-- The work of a slot as its bundle issues at the acting context's PC. -/
def workOf (s : State) (b : Nat) (os : List SlotOp) : List (Work × Bool) :=
  (os.zip (List.range 8)).map fun (o, i) =>
    ({ op := o, slot := i, raw := slotWord b i, pc := (me s).pc, bseq := (me s).bseq + 1, issued := s.cyc
       caps := capsOf s o
       undef := (slotReads o).filter fun r => match r with | .s _ | .f _ => false | r => lockUndef s r }, predTrue s o)

/-- A tile. -/
def isTile : Reg → Bool
  | .q _ => true
  | _ => false

/-- R203: the folds that a pass has still to make are the last, and were made at the end of the cycle before. -/
def foldsDone (s : State) (core : Nat) (p : Pass) : Bool :=
  decide (p.kb ≤ p.kbn) && (coreAt s core).sums.all fun m => m.pass != p.id ||
    s.timers.any fun t => decide (t.1 ≤ s.cyc) && t.2.ev == .kBlockFold && t.2.subj.core == core && t.2.subj.id == m.id

/-- R113, R203: the tile has a pending write: a pass, or a result in flight. -/
def tileBusy (s : State) (k n : Nat) : Bool :=
  (ctxOf s k).flights.any (fun f => f.dsts.contains (.q n)) ||
  (coreAt s (k / 4)).passes.any (fun p => p.ctx == k % 4 && (p.q == n || (p.pair && p.q + 1 == n)) && !foldsDone s (k / 4) p)

/-- R151: no tile of the context is busy. -/
def tilesQuiet (s : State) (k : Nat) : Bool := (List.range 16).all fun n => !tileBusy s k n

/-- R118: every register result of the context has landed, tiles excepted. -/
def resultsLanded (c : Ctx) : Bool := c.flights.all fun f => f.dsts.all isTile && !f.dsts.isEmpty

/-- R113: a register whose scoreboarded write waits in a slip buffer. -/
def boardedLater (c : Ctx) (r : Reg) : Bool :=
  !isTile r && (allSlips c).any fun e =>
    e.pred && slipBound e.work.op.ins == 0 && (writesOf e.work.op.ins).contains r && !e.work.dead.contains r

/-- R113: a register with a pending scoreboarded write. -/
def boarded (c : Ctx) (r : Reg) : Bool := !isTile r && c.flights.any fun f => !f.fixed && f.dsts.contains r

/-- R117: a scoreboarded write of the register by a bundle before seq is pending. -/
def boardedBefore (c : Ctx) (seq : Nat) (r : Reg) : Bool :=
  !isTile r && c.flights.any fun f => !f.fixed && f.dsts.contains r && decide (f.bseq < seq)

/-- R117: an older buffered operation writes or reads the register. -/
def slipWrites (es : List SlipEntry) (r : Reg) : Bool := es.any fun e => e.pred && (writesOf e.work.op.ins).contains r

/-- R117: an older buffered operation reads the register (its scalars are held since issue). -/
def slipReads (es : List SlipEntry) (r : Reg) : Bool :=
  es.any fun e => e.pred && (slotReads e.work.op).any fun x => match x with | .s _ | .f _ => false | x => x == r

/-- R117: a fixed-latency result that lock-step execution would have landed, whose producer executed fewer than L cycles ago. -/
def owed (s : State) (c : Ctx) (w : Work) (r : Reg) : Bool :=
  let owes (dsts : List Reg) (bseq issued exec bound : Nat) : Bool :=
    dsts.contains r && decide (bseq < w.bseq) && decide (issued + bound ≤ w.issued) && decide (s.cyc < exec + bound)
  (c.flights.any fun f => f.fixed && owes f.dsts f.bseq f.issued f.exec f.bound) ||
  c.owes.any fun f => owes f.dsts f.bseq f.issued f.exec f.bound

/-- The state in which an operation is looked at as though it executed now. -/
def asCur (s : State) (w : Work) : State := { s with iss := { s.iss with cur := some w } }

/-- R52: a bank-format write of the context holds its L slot. -/
def formatHeld (s : State) (k : Nat) : Bool := (coreAt s (k / 4)).fmtPend.any fun p => p.ctx == k % 4

/-- R204: pieces of its own core's scratchpad that an operation writes and a pass of the context has still to read. -/
def passReads (s : State) (k : Nat) (sp : List Span) : Bool :=
  let ws := sp.filter fun x => x.2.2
  !ws.isEmpty && (coreAt s (k / 4)).passes.any fun p => p.ctx == k % 4 &&
    (unreadSpans s k p).any fun r => ws.any fun x => spanMeets (spAddr (k / 4) x.1, x.2.1, true) r

/-- R88, R112: a drain of an older bundle executed in this cycle; its bytes perform in the next one at the earliest. -/
def drainFresh (s : State) (c : Ctx) (w : Work) : Bool :=
  c.flights.any fun f => decide (f.bseq < w.bseq) && f.exec == s.cyc && (match f.src with | .stores .. => true | _ => false)

/-- R198: passes of a context that hold an entry of the unit. -/
def passEntries (s : State) (k : Nat) : Nat :=
  ((coreAt s (k / 4)).passes.filter fun p => p.ctx == k % 4 && decide (p.kbn < p.kb)).length

/-- R117: what an older buffered access touches is not known yet, since a register its addresses depend on has still to be written. -/
def addrOpen (c : Ctx) (older : List SlipEntry) (e : SlipEntry) : Bool :=
  e.pred && (addrRegs e.work.op.ins).any fun r =>
    (c.flights.any fun f => decide (f.bseq < e.work.bseq) && f.dsts.contains r) ||
    slipWrites (older.filter fun x => decide (x.work.bseq < e.work.bseq)) r

/-- R88: the accumulator drains. -/
def isDrainIns : Instr → Bool
  | .mdrn .. | .mdrnb .. => true
  | _ => false

/-- R87, R88, R113 to R117, R198, R204, R210: something holds a slippable operation back; older and peers say which buffered entries are
of older bundles and of its own. -/
def heldBack (s : State) (k : Nat) (older peers : List SlipEntry) (w : Work) : Bool :=
  let c := ctxOf s k
  let s' := asCur { s with at_ := k } w
  let i := w.op.ins
  let spans (f : State → Instr → List Span) (e : SlipEntry) : List Span :=
    if e.pred then f (asCur { s with at_ := k } e.work) e.work.op.ins else []
  let sp := ownSpans s' i
  let far := farSpans s' i
  let ownTouched (e : SlipEntry) : Bool := !(spans ownSpans e).isEmpty
  (slotReads w.op).any (fun r => match r with
    | .s _ | .f _ => false
    | r => slipWrites older r || boardedBefore c w.bseq r || (owed s c w r && !w.undef.contains r)) ||
  (writesOf i).any (fun r => slipWrites older r || slipReads older r || boardedBefore c w.bseq r) ||
  (match i with
    | .scx .. => false
    | _ => (readsOf i ++ writesOf i).any fun r => match r with | .q n => tileBusy s k n | _ => false) ||
  sp.any (fun p => !spanReady c p) ||
  spanClash sp (older.flatMap (spans ownSpans)) ||
  spanClash sp (drainSpans c) ||
  spanClash far (older.flatMap (spans farSpans)) ||
  older.any (fun e => addrOpen c older e && (reservation e.work.op.ins != (0, 0) || (sp ++ far).any fun x => x.2.2) && !(sp ++ far).isEmpty) ||
  (!sp.isEmpty && older.any fun e => (isDrainIns i || isDrainIns e.work.op.ins) && ownTouched e) ||
  peers.any (fun e => peerClash w.slot sp e.work.slot (spans ownSpans e)) ||
  (!sp.isEmpty && drainFresh s c w) ||
  (match i with
    | .mma q aa _ _ _ fmt _ _ _ wa =>
      (resolveFmt s' fmt ⟨wa, (readS s' aa).toNat⟩ == .b64 && tileBusy s k (q + 1)) || decide (2 ≤ passEntries s k)
    | .mqwait _ all => all && !tilesQuiet s k
    | .mdrn .. => passReads s k sp
    | _ => false) ||
  (unitOf i == some .l && (formatHeld s k || passReads s k sp))

/-- R117: the buffered entries of older bundles than a work's, and those of its own in other slots. -/
def heldNow (s : State) (k : Nat) (w : Work) : Bool :=
  let es := allSlips (ctxOf s k)
  heldBack s k (es.filter fun x => decide (x.work.bseq < w.bseq))
    (es.filter fun x => x.work.bseq == w.bseq && x.work.slot != w.slot) w

/-! ### What holds a bundle -/

/-- R148, R256, R275: what a bundle that waits for an agent waits on. -/
inductive Stall where
  | none
  | word (w : Nat)
  | future (h : Word)
  | graph (slot : Nat)
deriving DecidableEq, Repr

/-- R148: the sync word of a WAIT. -/
def waitWord (s : State) (a : Nat) (sw : BitVec 17) : Nat := (readS s a + BitVec.ofNat 64 (16 * sw.toNat)).toNat

/-- R148: the generation of the word has passed g. -/
def genPassed (gen g : Nat) : Bool :=
  let d := (gen + 2 ^ 16 - g % 2 ^ 16) % 2 ^ 16
  decide (1 ≤ d) && decide (d ≤ 32767)

/-- R271: the address of a future's record, if its handle is not stale. -/
def futIndex (h : Nat) : Nat := h % 2 ^ 20

/-- R270, R441: a future record's 32 bytes through the system address space. -/
def futRead (s : State) (q idx : Nat) : Nat :=
  match pageWalk s q 0 (creg s q .sched 0x010 + 32 * idx) with
  | .leaf _ e huge => paNum s (leafPa e huge (creg s q .sched 0x010 + 32 * idx)) 32
  | _ => 0

/-- R270: the handle is stale: its index is 0 or beyond the table, or its generation is not the record's.  DESIGN CHOICE (log 42): so is one whose
record's page cannot be found (R441). -/
def futStale (s : State) (q h : Nat) : Bool :=
  let i := futIndex h
  i == 0 || decide (creg s q .sched 0x018 ≤ i) || !sysSeen s q (creg s q .sched 0x010 + 32 * i) || fld (futRead s q i) 39 24 != fld h 35 20

/-- R91: operations a DRAIN waits for. -/
def drainWaits : Instr → Bool
  | .copy .. | .copyc .. | .pull .. | .pulladd .. | .pullRank .. | .rget .. | .rroot .. | .sld .. | .sst .. | .agrun ..
  | .ctxsave .. | .ctxload .. | .ckey .. => true
  | _ => false

/-- R91: the accepted operations, results in flight and passes of a context that have still to perform. -/
def openOps (s : State) (k : Nat) : List Nat :=
  (s.reqs.filter fun r => r.key == k && r.accepted && drainWaits r.ins).map Req.id ++
  (ctxOf s k).flights.map Flight.id ++
  ((coreAt s (k / 4)).passes.filter fun p => p.ctx == k % 4 && decide (p.kbn < p.kb)).map Pass.id

/-- R92, R273: an atomic with release, or a SPAWN, which releases at package scope. -/
def releases : Instr → Bool
  | .amo _ _ _ _ ord _ _ | .cas _ _ _ _ ord _ _ | .vamo _ _ _ _ _ ord _ _ => ord == .rel || ord == .ar
  | .spawn .. => true
  | _ => false

/-- R83, R92, R102: an operation that performs only after every released store of its context: an atomic, a SPAWN, which releases, and a NOTE,
whose block pulls may read. -/
def afterStores (i : Instr) : Bool :=
  isAtomic i || releases i || match i with | .note .. => true | _ => false

/-- R148 to R151, R238, R253, R256, R275: the operation's own wait condition blocks its bundle. -/
def blocks (s : State) (i : Instr) : Option Stall :=
  let core := myCore s
  match i with
  | .waitG a b sw =>
    let w := waitWord s a sw
    if w % 16 ≠ 0 ∨ mySp s ≤ w then none
    else if genPassed (swGen s core w) (readS s b).toNat then none else some (.word w)
  | .waitT a sw =>
    let w := waitWord s a sw
    if w % 16 ≠ 0 ∨ mySp s ≤ w then none
    else if hasToken (me s) w then none else some (.word w)
  | .waitr e => if entriesReady (me s) e.toNat then none else some .none
  | .waits | .ppwset _ => if tilesQuiet s s.at_ then none else some .none
  | .fawait _ a _ =>
    let h := (readS s a).toNat
    let st := fld (futRead s (myLead s) (futIndex h)) 22 20
    if fld h 63 36 ≠ 0 then none
    else if futStale s (myLead s) h ∨ st = 3 ∨ st = 4 then none else some (.future (readS s a))
  | .note a _ v =>
    match noteCheck s a v with
    | .ok _ => if 64 ≤ (outboxTags s core).length || !(me s).late.isEmpty then some .none else none
    | .trap .. => none
  | .rroot a b _ =>
    match rrootCheck s a b with
    | .ok _ => if 4 ≤ (openTrees s core).length then some .none else none
    | .trap .. => none
  | .agwait b => if runsOpen s core (readS s b).toNat then some (.graph ((readS s b).toNat % 16)) else none
  | i => if (releases i && !(openOps s s.at_).isEmpty) || (afterStores i && !(me s).late.isEmpty) then some .none else none

/-- R52, R118, R204: a barrier's own scratchpad operands are ready; an atomic, which cannot slip, waits for what an L-slot access would slip
for. -/
def operandsReady (s : State) (i : Instr) : Bool :=
  (ownSpans s i).all (spanReady (me s)) && !(isAtomic i && (formatHeld s s.at_ || passReads s s.at_ (ownSpans s i)))

/-- R231: requests and results of the context that a DRAIN orders have not performed. -/
def drainOpen (s : State) (k : Nat) : Bool :=
  let c := ctxOf s k
  !c.drains.isEmpty && (!c.late.isEmpty ||
    c.drains.any fun (_, id) => s.reqs.any (fun r => r.id == id) || c.flights.any (fun f => f.id == id)
      || (coreAt s (k / 4)).passes.any fun p => p.id == id && decide (p.kbn < p.kb))

/-- R231: an instruction makes an access that a DRAIN of an earlier bundle orders. -/
def accesses (i : Instr) : Bool :=
  match kindOf i with
  | some .l | some .x | some .a => true
  | _ => match i with
    | .mma .. | .mdrn .. | .mdrnb .. | .waitG .. | .waitT .. | .ctxsave .. | .ctxload .. => true
    | _ => false

/-- R113, R145: the scalars LOOPN reads as base values besides its operands: those its descriptor steps. -/
def steppedRegs (s : State) (i : Instr) : List Reg :=
  match i with
  | .loopn n _ => (List.range 4).filterMap fun j =>
      let g := (readN s n 3).toNat / 2 ^ (8 * j) % 64
      if g = 0 then none else some (.s g)
  | _ => []

/-- R12, R113, R116, R118, R231, R360: the bundle of the acting context cannot issue now; none lets it issue. -/
def bundleHeld (s : State) (ws : List (Work × Bool)) : Option Stall :=
  let c := me s
  let live := (ws.filter fun w => w.2 && w.1.op.ins != .nop && w.1.op.ins != .hint).map fun w => w.1.op.ins
  let named := ws.flatMap fun w => if w.1.op.ins = .nop ∨ w.1.op.ins = .hint then []
    else .f w.1.op.pred :: (if w.2 then slotReads w.1.op ++ writesOf w.1.op.ins ++ steppedRegs s w.1.op.ins else [])
  if c.heldTrap.isSome || c.markWait || c.shooting.isSome then some .none
  else if named.any (fun r => boarded c r || boardedLater c r) then some .none
  else if (allSlips c).any (fun e => decide (e.work.bseq + 5 ≤ c.bseq + 1)) then some .none
  else if live.any isBarrier && !(slipsEmpty c && resultsLanded c && live.all (fun i => !isBarrier i || operandsReady s i)) then
    some .none
  else if c.nextMark.isSome && live.any (fun i => takesMark i || isBarrier i) then some .none
  else if drainOpen s s.at_ && live.any accesses then some .none
  else live.findSome? (blocks s)

/-! ### Issue -/

/-- R425, R427: the quarter's cores are held for the rest of an energy window, or at the end of a clock step. -/
def quarterHeld (s : State) (q : Nat) : Bool :=
  let u := sget {} s.quarters q
  u.spent || u.stepEnd.isSome

/-- R148, R275: what the bundle of a waiting context waits on.  A WAIT that blocks pops its word's token (R148); the deadline of a FAWAIT
that blocks starts (R275). -/
def blockOn (s : State) (k : Nat) (b : Stall) : State :=
  let c := ctxOf s k
  let s := updCtx s k fun c =>
    { (match b with | .word w => popToken c (c.bseq + 1) w | _ => c) with
      stalled := match b with | .word w => some w | _ => none
      awaiting := match b with | .future h => some h | _ => none
      agwait := match b with | .graph n => some n | _ => none }
  match b with
  | .future h =>
    if c.awaiting = some h then s
    else addTimer s (s.cyc + c.yd) ⟨.yieldDeadlineExpiry, { subjOf k with flag := true, id := c.bseq, val := h.toNat }⟩
  | _ => s

/-- R30, R400: the context stops at its reclamation point, once no asynchronous trap is pending. -/
def stopForReclaim (s : State) (k : Nat) : State :=
  if !(ctxOf s k).async.isEmpty then s else
  let s := updCtx s k fun c => { c with st := .stopping, why := .reclaim }
  addReady (moveSelector s (k / 4)) ⟨.reclaimStop, subjOf k⟩

/-- R12, R30: the bundle does not issue: the context waits, and the selector moves; a wait that a pending reclaim request meets is itself the
reclamation point. -/
def stallBundle (s : State) (b : Stall) : State :=
  let s := moveSelector (blockOn (updMe s fun c => { c with st := .waiting }) s.at_ b) (myCore s)
  if reclaimDue (me s) then stopForReclaim s s.at_ else s

/-- R115, R119: an operation of the issuing bundle that cannot execute at once enters its slip buffer; taken says that another context's
head took the unit.  The buffer may come to hold five entries, those of a blocked head and of the four bundles after it, where R115 and
R116 name four (DESIGN CHOICE, log 56). -/
def enterSlip (s : State) (u : SlipUnit) (w : Work) (pred taken : Bool) : State :=
  updMe s fun c =>
    let b := slipBuf c u
    let lag := b.lag + taken.toNat
    setSlip c u { b with lag, entries := b.entries ++ [{ work := { w with buf := true }, due := s.cyc + lag, pred }] }

/-- R119: a unit has taken an instruction in this cycle. -/
def unitUsed (s : State) (core : Nat) (u : SlipUnit) : Bool := (coreAt s core).used.any fun x => x.1 == u

/-- R115: a slippable operation of the acting context may execute as its bundle issues. -/
def runsNow (s : State) (u : SlipUnit) (w : Work) : Bool :=
  let b := slipBuf (me s) u
  b.entries.isEmpty && b.lag == 0 && !unitUsed s (myCore s) u && !heldNow s s.at_ w

/-- R87: a later slot of the bundle slips whose read must come before this slot's write. -/
def readSlips (s : State) (ws : List (Work × Bool)) (w : Work) : Bool :=
  let sp := ownSpans (asCur s w) w.op.ins
  ws.any fun x => x.2 && match unitOf x.1.op.ins with
    | some u => peerClash w.slot sp x.1.slot (ownSpans (asCur s x.1) x.1.op.ins) && !runsNow s u x.1
    | none => false

/-- R115: place the operations of an issuing bundle: those that execute now, in slot order; the others enter their buffers.  A barrier
never slips; where a buffered head took its unit in this cycle, both execute (DESIGN CHOICE, log 57). -/
def placeWork : List (Work × Bool) → State → State × List Work
  | [], s => (s, [])
  | (w, p) :: ws, s =>
    match unitOf w.op.ins with
    | none =>
      let (s, rest) := placeWork ws s
      (s, if p then w :: rest else rest)
    | some u =>
      let taken := (coreAt s (myCore s)).used.any fun x => x.1 == u && x.2 != s.at_ % 4
      if p && isBarrier w.op.ins then
        let (s, rest) := placeWork ws s
        (s, w :: rest)
      else if !p then
        placeWork ws (if (slipBuf (me s) u).entries.isEmpty then s else enterSlip s u w false false)
      else if runsNow s u w && !readSlips s ws w then
        let (s, rest) := placeWork ws s
        (s, w :: rest)
      else placeWork ws (enterSlip s u w true taken)

/-- R402: what earlier bundles of the open region keep reserved: the worst cases of buffered stores, and the lines of drains in flight. -/
def reservedLines (c : Ctx) : Nat × Nat :=
  let here (seq : Nat) : Bool := inNext c seq == inNext c (c.bseq + 1)
  let (g, j) := bundleReserve (((allSlips c).filter fun e => e.pred && here e.work.bseq).map fun e => e.work.op)
  (g, j + (c.flights.map fun f => match f.src with | .stores _ bs => if here f.bseq then lineCount (bs.map Prod.fst) else 0 | _ => 0).sum)

/-- R402: the bundle's reservation does not fit what is free of the gate and the journal. -/
def capacityShort (s : State) (os : List SlotOp) : Bool :=
  let (g, j) := bundleReserve os
  let (g', j') := reservedLines (me s)
  let r := regionOf (me s) ((me s).bseq + 1)
  decide (256 < g + g' + gateLines r) || decide (512 < j + j' + journalLines r)

/-- R157: remember what was fetched. -/
def remember (s : State) (b : Nat) : State :=
  updMe s fun c => { c with fetched := (c.pc, toBytes 64 b) :: c.fetched.filter fun e => e.1 != c.pc }

/-- R112, R211: the bytes of a drain land. -/
def landStores (s : State) (k : Nat) (f : Flight) (chunk : Option Nat) (bs : List (Nat × Byte)) : State :=
  let s := bs.foldl (fun s (o, b) => spStoreIn s f.bseq o b) { s with at_ := k }
  let s := wake (updCtx s k fun c => { c with flights := c.flights.filter fun g => g.id != f.id }) k
  match chunk with
  | some h => updCtx s k fun c => updRegion c f.bseq fun r => { r with chunks := r.chunks ++ [h] }
  | none => s

/-- R88: the drains of bundles older than seq have landed before a later access of the context to its scratchpad performs. -/
def settleDrains (s : State) (k seq : Nat) : State :=
  (ctxOf s k).flights.foldl (fun s f =>
    match f.src with
    | .stores chunk bs => if f.bseq < seq then { landStores s k f chunk bs with at_ := s.at_ } else s
    | _ => s) s

/-- R88: what an operation that executes now finds in the scratchpad. -/
def settleFor (s : State) (k : Nat) (w : Work) : State :=
  if (ownSpans (asCur { s with at_ := k } w) w.op.ins).isEmpty then s else settleDrains s k w.bseq

/-- R13: the bundle issues: its operations are placed, and the issue cycle is counted (R36). -/
def launch (s : State) (b : Nat) (ws : List (Work × Bool)) (marked : Bool) : State :=
  let s := remember s b
  let s := updMe s fun c => { c with stalled := none, awaiting := none, agwait := none }
  let (s, now) := placeWork ws s
  let s := now.foldl (fun s w => settleFor s s.at_ w) s
  let s := updCore s (myCore s) fun u =>
    { u with last := s.cyc, used := u.used ++ now.filterMap fun w => (unitOf w.op.ins).map fun n => (n, s.at_ % 4) }
  let c := me s
  let s := setMe s { c with bseq := c.bseq + 1, wdc := c.wdc + 1, readyAt := s.cyc + 1 }
  { s with iss := { work := now, bundle := true, pc := c.pc, bseq := c.bseq + 1, after := marked } }

/-- R226: a bundle away from EPPC at the level at which the VAMO trapped clears EP; the trap's own service, which may run at that level,
does not, since no element is applied twice (DEDUCED, log 58). -/
def clearEp (s : State) : State :=
  let c := me s
  if c.regs.ep ≠ 0 ∧ c.pc ≠ c.regs.eppc ∧ c.pl = c.regs.eppl ∧ !c.inService then setMe s { c with regs := { c.regs with ep := 0 } } else s

/-- R90, R402: the implicit mark before the bundle, then its issue. -/
def markAndLaunch (s : State) (b : Nat) (ws : List (Work × Bool)) (after : Bool) : State :=
  if reclaimDue (me s) then stopForReclaim s s.at_
  else match confirmRegion s s.at_ with
    | (s, .wait) => stallBundle s .none
    | (s, .fail code g) => gateTrap s s.at_ code g
    | (s, .ok) =>
      let s := completeMark s s.at_ (markOf (me s))
      if ws.any (fun w => w.2 && afterStores w.1.op.ins) && !(me s).late.isEmpty then stallBundle s .none
      else launch s b ws after

/-- R13, R110, R400: issue the next bundle of the acting context, which is ready. -/
def issueBundle (s : State) : State :=
  match (me s).async with
  | t :: ts =>
    if mustHold (me s) ((me s).bseq + 1) then stallBundle s .none
    else
      let s := updMe s fun c => { c with async := ts }
      takeTrap s s.at_ { t with pc := (me s).pc, pl := (me s).pl, ep := (me s).regs.ep, cyc := s.cyc } ((me s).bseq + 1)
  | [] =>
    match fetch s s.at_ with
    | (s, .wait) => stallBundle s .none
    | (s, .trap code va ia) => takeTrap s s.at_ (addrTrap s code va ia) ((me s).bseq + 1)
    | (s, .ok b) =>
      match decodeBundle s s.at_ b with
      | .inl (code, slot) => takeTrap s s.at_ { trapOf s code with slot } ((me s).bseq + 1)
      | .inr os =>
        let s := clearEp s
        let ws := workOf s b os
        match bundleHeld s ws with
        | some st => stallBundle s st
        | none =>
          let live := ws.filter fun w => w.2
          if live.any fun w => takesMark w.1.op.ins then markAndLaunch s b ws true
          else if capacityShort s os then
            (if slipsEmpty (me s) && resultsLanded (me s) && (me s).nextMark.isNone then markAndLaunch s b ws false
             else stallBundle s .none)
          else launch s b ws false

/-- BUNDLE_ISSUE (R13): the selector of a core issues one bundle of the ready context it holds. -/
def execBundleIssue (s : State) : Host.Outcome State Fault Refusal :=
  let core := s.subj.core
  let u := coreAt s core
  let k := 4 * core + u.sel
  if u.gated || quarterHeld s (quarterOf core) || decide (s.cyc < u.selAt) then .next s
  else if (ctxOf s k).st = .ready then .next (issueBundle { s with at_ := k })
  else .next (moveSelector s core)

/-- R218, R334, R402: the implicit mark before a bundle of the acting context cannot complete now. -/
def markWaits (s : State) (os : List SlotOp) (ws : List (Work × Bool)) : Bool :=
  let waits : Bool := !reclaimDue (me s) && (confirmRegion s s.at_).2 == .wait
  if ws.any fun w => w.2 && takesMark w.1.op.ins then waits
  else capacityShort s os && (!(slipsEmpty (me s) && resultsLanded (me s) && (me s).nextMark.isNone) || waits)

/-- What holds the context's bundle back if it is tried now (R14); none lets it issue. -/
def heldBy (s : State) (k : Nat) : Option Stall :=
  let s := { s with at_ := k, iss := {} }
  let c := me s
  if !c.async.isEmpty then (if mustHold c (c.bseq + 1) then some .none else none)
  else if c.heldTrap.isSome || c.markWait || c.shooting.isSome then some .none
  else match fetch s k with
    | (_, .wait) => some .none
    | (_, .trap _ _ _) => none
    | (s, .ok b) =>
      match decodeBundle s k b with
      | .inl _ => none
      | .inr os =>
        let ws := workOf s b os
        match bundleHeld s ws with
        | some st => some st
        | none => if markWaits s os ws then some .none else none

/-- The context's bundle would issue if it were tried now; used by a reissue (R14). -/
def wouldIssue (s : State) (k : Nat) : Bool := (heldBy s k).isNone

/-- REISSUE (R14): a waiting bundle evaluates its wait condition again; where it no longer blocks, its context is ready. -/
def execReissue (s : State) : Host.Outcome State Fault Refusal :=
  let k := keyOf s.subj
  if (ctxOf s k).st = .waiting then
    match heldBy s k with
    | none => .next (makeReady s k)
    | some b =>
      .next (if reclaimDue (ctxOf s k) && (ctxOf s k).heldTrap.isNone then stopForReclaim s k
        else match b with | .none => s | b => blockOn s k b)
  else .next s

/-! ### Slip -/

/-- R115, R119: the head of a buffer may execute now: it is due, its unit is free, and nothing holds it, nor held it at the end of the
last cycle. -/
def headRuns (s : State) (k : Nat) (u : SlipUnit) : Bool :=
  let b := slipBuf (ctxOf s k) u
  match b.entries with
  | [] => false
  | e :: _ => decide (e.due ≤ s.cyc) && !unitUsed s (k / 4) u && (!e.pred || (!b.blocked && !heldNow s k e.work))

/-- SLIP_ENTRY_EXECUTE (R115): the head of a slip buffer executes. -/
def execSlipEntryExecute (s : State) : Host.Outcome State Fault Refusal :=
  let k := keyOf s.subj
  let u := s.subj.unit
  if headRuns s k u then
    match (slipBuf (ctxOf s k) u).entries with
    | [] => .next s
    | e :: es =>
      let s := updCtx s k fun c => setSlip c u { slipBuf c u with entries := es, blocked := false }
      let s := updCore s (k / 4) fun v => { v with used := v.used ++ [(u, k % 4)] }
      let s := wake { s with at_ := k } k
      let s := if e.pred then settleFor s k e.work else s
      .next { s with iss := { work := if e.pred then [e.work] else [], pc := e.work.pc, bseq := e.work.bseq } }
  else .next s

/-- R115: the lag of an empty buffer of a context that issued nothing returns to zero. -/
def lagReset (s : State) (k : Nat) (u : SlipUnit) : State :=
  let b := slipBuf (ctxOf s k) u
  if b.entries.isEmpty && b.lag != 0 && !((coreAt s (k / 4)).last == s.cyc && (coreAt s (k / 4)).sel == k % 4) then
    updCtx s k fun c => setSlip c u { b with lag := 0 }
  else s

/-- LAG_RETURNS_TO_ZERO (R115). -/
def execLagReturnsToZero (s : State) : Host.Outcome State Fault Refusal := .next (lagReset s (keyOf s.subj) s.subj.unit)

/-- R115: at the end of a cycle in which a due head did not execute, the lag and every due cycle rise by one. -/
def lagBump (s : State) (k : Nat) (u : SlipUnit) : State :=
  let b := slipBuf (ctxOf s k) u
  match b.entries with
  | [] => s
  | e :: _ =>
    if e.due ≤ s.cyc then
      updCtx s k fun c => setSlip c u
        { b with lag := b.lag + 1, entries := b.entries.map fun e => { e with due := e.due + 1 } }
    else s

/-! ### Results -/

/-- R115, R117: whether the head of a buffer is held at the end of a cycle, as the next one begins. -/
def markBlocked (s : State) (k : Nat) (u : SlipUnit) : State :=
  let b := slipBuf (ctxOf s k) u
  match b.entries with
  | [] => s
  | e :: _ => updCtx s k fun c => setSlip c u { b with blocked := e.pred && heldNow s k e.work }

/-- The flight with an id of a context. -/
def flightOf (c : Ctx) (id : Nat) : Option Flight := c.flights.find? fun f => f.id == id

/-- The context without a flight. -/
def dropFlight (c : Ctx) (id : Nat) : Ctx := { c with flights := c.flights.filter fun f => f.id != id }

/-- R354: a write of a register that is not the context's own: the core's BUD, the package's PKG. -/
def landShared (k : Nat) (s : State) (w : RegWrite) : State :=
  match w.dst with
  | .sys .bud => updCore s (k / 4) fun u =>
    { u with bud := w.bits, budFrom := s.cyc / 64 + 1, budOld := if s.cyc / 64 < u.budFrom then u.budOld else u.bud }
  | .sys .pkg => { s with pkg := w.bits }
  | _ => s

/-- R117: a fixed-latency result that lands before its bound stays known until the bound is over. -/
def noteOwed (cyc : Nat) (c : Ctx) (f : Flight) : Ctx :=
  let os := c.owes.filter fun x => decide (cyc < x.exec + x.bound)
  { c with owes := if f.fixed && decide (cyc < f.exec + f.bound) then os ++ [⟨f.dsts, f.bseq, f.issued, f.exec, f.bound⟩] else os }

/-- R112 to R114: a flight whose writes are known lands; a waiting bundle is tried again (R14). -/
def landFlight (s : State) (k : Nat) (f : Flight) (ws : List RegWrite) : State :=
  let live := ws.filter fun w => !f.isDead w.dst
  wake (updCtx (live.foldl (landShared k) s) k fun c => noteOwed s.cyc (dropFlight (landWrites c f ws) f.id) f) k

/-! ### After a bundle's last slot -/

/-- R262: count C_d of a descriptor. -/
def nestCount (d : List Word) (i : Nat) : Nat := ((d.getD (i / 2) 0).toNat / 2 ^ (32 * (i % 2))) % 2 ^ 32

/-- R262: stepped-register number G_j of a descriptor. -/
def nestReg (d : List Word) (j : Nat) : Nat := (d.getD 3 0).toNat / 2 ^ (8 * j) % 64

/-- R262: stride t(d, j) of a descriptor. -/
def nestStride (d : List Word) (dim j : Nat) : Int :=
  let n := 4 * dim + j
  toSigned 32 ((d.getD (4 + n / 2) 0).toNat / 2 ^ (32 * (n % 2)))

/-- R263: the descriptor is malformed. -/
def nestMalformed (d : List Word) : Bool :=
  let w3 := (d.getD 3 0).toNat
  let gs := ((List.range 4).map (nestReg d)).filter fun g => g != 0
  fld w3 7 6 != 0 || fld w3 15 14 != 0 || fld w3 23 22 != 0 || fld w3 63 30 != 0
    || gs.eraseDups.length != gs.length
    || decide (2 ^ 40 - 1 < (List.range 6).foldl (fun p i => p * nestCount d i) 1)

/-- R145: what a stepped register holds at a pass boundary. -/
def steppedValue (l : LoopState) (lc : List Nat) (j : Nat) : Word :=
  BitVec.ofNat 64 (ofSigned 64 ((l.base.getD j 0).toNat +
    ((List.range 6).map fun d => ((lc.getD d 0 : Nat) : Int) * nestStride l.desc d j).sum))

/-- R145: the boundary writes of a pass: the stepped registers. -/
def stepRegisters (c : Ctx) : Ctx :=
  let l := c.regs.loop
  let lc := (List.range 6).map fun d => (sget 0 c.regs.lc d).toNat
  [0, 1, 2, 3].foldl (fun c j =>
    if nestReg l.desc j = 0 then c else boundaryS c (nestReg l.desc j) (steppedValue l lc j)) c

/-- R145: the carry over the counters from dimension d on, whose counter is x before those of the list. -/
def carryCounts (cnt : Nat → Nat) : Nat → Nat → List Nat → List Nat
  | _, x, [] => [x]
  | d, x, y :: ys => if cnt d ≤ x then 0 :: carryCounts cnt (d + 1) (y + 1) ys else x :: y :: ys

/-- R145: the six counters after one more pass; none where the loop ends. -/
def advanceCounts (cnt : Nat → Nat) : List Nat → Option (List Nat)
  | [] => none
  | x :: xs =>
    let ys := carryCounts cnt 0 (x + 1) xs
    if cnt 5 ≤ ys.getD 5 0 then none else some ys

/-- R114, R146: loop counter d as an advance finds it: an LCWR still in flight has written it. -/
def lcAfter (c : Ctx) (d : Nat) : Nat :=
  let ws := c.flights.flatMap fun f =>
    if f.dsts.contains (.lc d) then
      match f.src with
      | .bits ws => (ws.filter fun w => w.dst == .lc d).map RegWrite.bits
      | _ => []
    else []
  ws.getLastD (sget 0 c.regs.lc d).toNat % 2 ^ 32

/-- R114: the counters are written at a boundary, after every result in flight. -/
def dropLc (c : Ctx) : Ctx :=
  { c with flights := c.flights.map fun f =>
      { f with dead := f.dead ++ [0, 1, 2, 3, 4, 5].map fun i => (Reg.lc i, c.bseq), dsts := f.dsts.filter fun r => match r with | .lc _ => false | _ => true } }

/-- LOOP_ADVANCE (R145): after the last bundle of a pass: the next pass, or the loop's end. -/
def loopAdvance (c : Ctx) : Ctx × Word :=
  let l := c.regs.loop
  match advanceCounts (nestCount l.desc) ((List.range 6).map (lcAfter c)) with
  | none => ({ c with regs := { c.regs with loop := { l with active := false } } }, l.endPc)
  | some xs =>
    let lc := (xs.zip (List.range 6)).foldl (fun m (x, d) => sins m d (BitVec.ofNat 32 x)) c.regs.lc
    (stepRegisters { dropLc c with regs := { c.regs with lc } }, l.body)

/-- R21: the digits of a kernel iteration, written to the temporal index registers. -/
def writeIndices (c : Ctx) (levels : List (Nat × Nat)) (iter : Nat) : Ctx :=
  (levels.reverse.foldl (fun (c, n) (r, ext) => (boundaryS c r (BitVec.ofNat 64 (n % ext)), n / ext)) (c, iter)).1

/-- R21, R272: the start of kernel iteration i. -/
def startIteration (c : Ctx) (t : TaskRun) (i : Nat) : Ctx :=
  let c := writeIndices c t.record.temporal i
  let c := boundaryS c t.record.itr (BitVec.ofNat 64 i)
  { c with task := some { t with phase := .kernel, iter := i }, pc := t.record.ker }

/-- R21, R156: DONE ends the phase; the flag says that a kernel-iteration boundary follows.  The epilogue starts with the temporal IDX
registers as the program left them: the device does not write them again (DESIGN CHOICE, log 59). -/
def endPhase (c : Ctx) : Ctx × Bool :=
  match c.task with
  | none => (c, false)
  | some t =>
    match t.phase with
    | .prologue =>
      if t.record.trip = 0 then
        ({ c with task := some { t with phase := .epilogue }, pc := t.record.epi }, false)
      else (startIteration c t 0, true)
    | .kernel =>
      if t.iter + 1 < t.record.trip then (startIteration c t (t.iter + 1), true)
      else ({ c with task := some { t with phase := .epilogue }, pc := t.record.epi }, false)
    | .epilogue => ({ c with task := some { t with ended := true }, st := .stopping, why := .done }, false)

/-- R36: the watchdog of the context fires. -/
def watchdogDue (c : Ctx) : Bool := decide (2 * c.cycLim < c.wdc)

/-- R34: a sibling of the context has been ready without issuing for 4,096 cycles or more. -/
def siblingStarved (s : State) (k : Nat) : Bool :=
  [0, 1, 2, 3].any fun i =>
    i != k % 4 && (ctxOf s (k / 4 * 4 + i)).st == .ready && decide ((ctxOf s (k / 4 * 4 + i)).readyAt + 4096 ≤ s.cyc)

/-- R38, R97, R400: the context stops to be saved, once no asynchronous trap is pending. -/
def stopForSave (s : State) (k : Nat) : State :=
  if !(ctxOf s k).async.isEmpty then s else
  let s := updCtx s k fun c => { c with st := .stopping, why := .save, forced := false, wt := c.st == .waiting }
  addReady (moveSelector s (k / 4)) ⟨.contextSaveComplete, subjOf k⟩

/-- R34, R155: a yield check at the boundary the context stands at; stop says that it is a YIELD. -/
def yieldCheck (s : State) (k : Nat) (stop : Bool) : State :=
  let s := updCtx s k fun c => { c with wdc := 0 }
  let c := ctxOf s k
  if reclaimDue c then stopForReclaim s k
  else if stop || c.yieldReq then
    -- R412: a region retry runs to its mark before the context stops
    (if c.retry then updCtx s k fun c => { c with forced := true } else stopForSave s k)
  else if siblingStarved s k then
    selectNext s (k / 4)
  else s

/-- R34, R36, R38, R361, R412: what follows at the boundary a context stands at, its marks complete. -/
def atBoundary (s : State) (k : Nat) (b : Boundary) : State :=
  match b with
  | .halt =>
    addReady (moveSelector (updCtx s k fun c => { c with st := .stopping, why := .halt, wt := false }) (k / 4)) ⟨.contextSaveComplete, subjOf k⟩
  | .yield => yieldCheck s k true
  | .check => yieldCheck s k false
  | .none =>
    if (ctxOf s k).forced && !(ctxOf s k).retry then stopForSave s k
    else if watchdogDue (ctxOf s k) then addReady s ⟨.watchdogExpiry, { subjOf k with flag := true }⟩
    else s

/-- The bundle that the context issues next after the bundle just issued, with loop state and phase brought up to date. -/
def nextBundle (s : State) : State :=
  let i := s.iss
  let c := me s
  match i.loopn with
  | some l =>
    setMe s { stepRegisters { dropLc c with regs := { c.regs with loop := l, lc := [] } } with pc := l.body }
  | none =>
    match i.loopTo, i.target with
    | some t, _ => setMe s { c with pc := t, regs := { c.regs with loop := { c.regs.loop with active := false } } }
    | none, some t =>
      -- R146: a transfer ends a loop; the return from a trap service does not
      setMe s (if i.ret.isSome then { c with pc := t } else { c with pc := t, regs := { c.regs with loop := { c.regs.loop with active := false } } })
    | none, none =>
      if c.regs.loop.active ∧ i.pc + 64 = c.regs.loop.endPc then
        let (c, pc) := loopAdvance c
        setMe s { c with pc }
      else setMe s { c with pc := i.pc + 64 }

/-- R152, R277: complete the region at the boundary the context stands at, with the pin depth FPIN or FUNPIN leaves. -/
def markHere (s : State) : State :=
  let c := me s
  let c := { c with nextMark := some (markOf c), nextRegion := { seq := c.region.seq + 1 }, ownMark := true }
  let s := tryAfterMark (setMe s c) s.at_
  if (me s).markWait then moveSelector (updMe s fun c => { c with st := .waiting }) (myCore s) else s

/-- R87: a byte that a drain of the same bundle has still to land is already overwritten. -/
def dropDrained (seq : Nat) (os : List Nat) (f : Flight) : Flight :=
  match f.src with
  | .stores chunk bs => if f.bseq = seq then { f with src := .stores chunk (bs.filter fun b => !os.contains b.1) } else f
  | _ => f

/-- R87, R88: the bundle's scratchpad stores perform, in slot order; they come after the drain of its M slot. -/
def commitStores (s : State) : State :=
  let os := s.iss.stores.map Prod.fst
  let s := if os.isEmpty then s else updMe s fun c => { c with flights := c.flights.map (dropDrained s.iss.bseq os) }
  let s' := s.iss.stores.foldl (fun s (o, b) => spStoreIn s s.iss.bseq o b) s
  { s' with iss := { s'.iss with stores := [] } }

/-- R356, R358, R359: system registers that change once every slot of the bundle has read: the level PRET returns to, a range register, the
partition word. -/
def commitSystem (i : Iss) (s : State) : State :=
  let s := match i.ret with
    | some pl => updMe s fun c => { c with pl }
    | none => s
  let s := match i.rng with
    | some (n, r) => updMe s fun c =>
      { mapSlips (fun e => { e with work := { e.work with rregs := some (e.work.rregs.getD c.rregs) } }) c with rregs := sins c.rregs n r }
    | none => s
  match i.ppw with
  | some x => setPartition s x
  | none => s

/-- R152, R277, R401: the marks that stand at a bundle's boundary: its own, or the after-mark of what it issued. -/
def boundaryMark (i : Iss) (s : State) : State :=
  let k := s.at_
  -- R33: a completing DONE comes before a drop of its own cycle
  let due := reclaimDue (me s) && !((me s).why == .done && (me s).reclaimAt == s.cyc)
  let s := match i.pin with
    | some p => updMe s fun c => { c with regs := { c.regs with pin := p } }
    | none => s
  if i.mark then
    (if due then stopForReclaim s k
     else
       let s := markHere s
       if reclaimDue (me s) && (me s).st == .ready then stopForReclaim s k else s)
  else if i.after then
    tryAfterMark (updMe s fun c => { c with nextMark := some (markOf c), nextRegion := { seq := c.region.seq + 1 } }) k
  else s

/-- After the last slot of a bundle: its stores perform, the next bundle is found, and marks, phases, yield checks and stops
that stand at its boundary take place, in that order. -/
def finishBundle (s : State) : State :=
  let s := commitStores s
  if s.iss.cut then { s with iss := {} }
  else if !s.iss.bundle then { s with iss := {} }
  else
    let i := s.iss
    let k := s.at_
    let s := { nextBundle (commitSystem i s) with iss := {} }
    let (c, iterates) := if i.done then endPhase (me s) else (me s, false)
    let s := boundaryMark i (setMe s c)
    let b : Boundary := if i.halt then .halt else if i.yield then .yield else if i.check || iterates then .check else .none
    let s :=
      if (me s).st ≠ .ready then
        (if (me s).markWait then updMe s fun c => { c with checkDue := b }
         else if i.done ∧ (me s).why = .done then addReady (moveSelector s (k / 4)) ⟨.taskComplete, subjOf k⟩
         else s)
      else atBoundary s k b
    -- R357: the bundle's own comparison was with the old limit
    match i.wdLim with
    | some v => if (ctxOf s k).st = .free then s else updCtx s k fun c => { c with cycLim := v }
    | none => s

/-- AFTER_MARK (R401): complete a mark whose bundle can no longer trap, or whose translations have come; what waited for
it at its boundary follows. -/
def execAfterMark (s : State) : Host.Outcome State Fault Refusal :=
  let k := keyOf s.subj
  let waited := (ctxOf s k).markWait
  let s := tryAfterMark s k
  let c := ctxOf s k
  if c.nextMark.isSome || !waited then .next s
  else if c.why = .done then .next (addReady (updCtx s k fun c => { c with st := .stopping }) ⟨.taskComplete, subjOf k⟩)
  else if c.st ≠ .waiting ∨ c.heldTrap.isSome then .next s
  else
    let s := makeReady (updCtx s k fun c => { c with checkDue := .none }) k
    .next (if reclaimDue c then stopForReclaim s k else atBoundary s k c.checkDue)

/-- TRAP_DELIVERY (R401, R406): a trap held until the after-mark completed is taken. -/
def execTrapDelivery (s : State) : Host.Outcome State Fault Refusal :=
  let k := keyOf s.subj
  match (ctxOf s k).heldTrap with
  | none => .next s
  | some t =>
    if (ctxOf s k).nextMark.isSome then .next s
    else
      let s := takeTrap (updCtx s k fun c => { c with heldTrap := none }) k t ((ctxOf s k).bseq + 1)
      .next { s with iss := {} }

end Sys2Proof.Machine
end

