-- ==== Sys2Proof/Machine/Tier.lean ====
section
/-!
DEFINITION. Tier misses and page-ins (R322 to R324, R396).
-/

namespace Sys2Proof.Machine

/-- R228: the leaf records the page in the CXL tier or demoted. -/
def leafAway (e : Nat) : Bool := fld e 11 10 != 0

/-- R324: the record of a page-in that has ended. -/
def tierRecord (p : PageIn) (fail : Bool) : List Byte :=
  toBytes 32 (p.ia / 2 ^ 16 * 2 ^ 16 + p.core * 2 ^ 64 + p.ctx * 2 ^ 76 + p.src * 2 ^ 78 + p.cyc * 2 ^ 128
    + fail.toNat * 2 ^ 192)

/-- R323: count one unit, or ERR, into the tier word of a context. -/
def countTier (fail : Bool) (s : State) (k : Nat) : State :=
  let w := (ctxOf s k).tword
  if w % 2 = 1 then arrive s (k / 4) (w / 2 * 16) (if fail then 0 else 1) false fail else s

/-- R228: the page's page-in has updated its translation in this cycle: a look-up still reports a miss. -/
def movedNow (s : State) (q ia : Nat) : Bool := s.moved.any fun m => m.1 == q && m.2.1 == ia / 2 ^ 16

/-- R228, R323, R348: a miss in the cycle in which the page's translation is updated: the tier word of its context counts the page-in that has
just ended, once. -/
def missMoved (s : State) (q ia k : Nat) : State :=
  let hit (m : Nat × Nat × List Nat) : Bool := m.1 == q && m.2.1 == ia / 2 ^ 16 && !m.2.2.contains k
  if s.moved.any hit then
    countTier false { s with moved := s.moved.map fun m => if hit m then (m.1, m.2.1, k :: m.2.2) else m } k
  else s

/-- R322, R349, R390, R396: a tier miss on a page: its page-in starts, or the miss joins the one under way, through whatever address space it was
raised; key names a context whose tier word counts it (R323). -/
def tierMiss (s : State) (q asn ia core ctx src : Nat) (key : Option Nat) : State :=
  match s.pageIns.find? (fun p => p.quarter == q && p.ia == ia / 2 ^ 16 * 2 ^ 16) with
  | some p =>
    { s with pageIns := s.pageIns.map fun x =>
        if x.id == p.id then { x with keys := x.keys ++ (key.toList.filter fun k => !x.keys.contains k) } else x }
  | none =>
    let s := match key with | some k => missMoved s q ia k | none => s
    match pageWalk s q asn ia with
    | .leaf entry e huge | .quarantined entry e huge =>
      if leafAway e && !bitAt e 12 && casHolds s entry e then
        let s := leafPut s q (ia / 2 ^ 16) entry (setBit e 12 true)
        let (frame, s) : Option Nat × State :=
          if huge then (none, s)
          else match popFrame s q true with
            | some (g, s) => (some g, s)
            | none => (none, s)
        let p : PageIn := { id := s.nextId, quarter := q, asn, ia := ia / 2 ^ 16 * 2 ^ 16, entry, huge, frame, core, ctx
                            src, cyc := s.cyc, keys := key.toList }
        { s with nextId := s.nextId + 1, pageIns := s.pageIns ++ [p] }
      else s
    | _ => s

/-- R396: the leaf of a page that comes in, as it stands; 0 where a cache that alone held it has dropped it. -/
def movingLeaf (s : State) (p : PageIn) : Nat :=
  if p.entry = noEntry then (match s.tlb.find? fun t => t.q == p.quarter && t.page == p.ia / 2 ^ 16 with | some t => t.leaf | none => 0)
  else paNum s p.entry 8

/-- R396: the page of a page-in copied, its leaf updated with the header's TIER, and the old frame given back. -/
def pageMoved (s : State) (p : PageIn) (g : Nat) : State :=
  let e := movingLeaf s p
  let f := fld e 51 16
  let s := copyFrame s f g
  let s := leafPut s p.quarter (p.ia / 2 ^ 16) p.entry (setBit (setFld (setFld e 51 16 g) 11 10 0) 12 false)
  let s := if bitAt e 7 then mput s (paAddr (g * 2 ^ 16 + 14)) (mget s (paAddr (g * 2 ^ 16 + 14)) &&& 0x0F) else s
  if creg s p.quarter .xlate 0x018 ≤ f ∨ frameCount s p.quarter f = 1 then pushFrame s p.quarter f
  else setFrameCount s p.quarter f (frameCount s p.quarter f - 1)

/-- R206, R347: suspended passes that wait for a page look at it again. -/
def notifyPasses (s : State) (page : Nat) : State :=
  (s.cores.flatMap fun (core, u) => (u.passes.filter fun p => p.st == .suspended && p.susp.ia / 2 ^ 16 == page).map fun p =>
    ({ ev := .passFaultServed, subj := { core, ctx := p.ctx, id := p.id } } : Event)).foldl addReady s

/-- The future handle of a context's task; 0 where it has none. -/
def futOf (c : Ctx) : Word := match c.task with | some t => t.record.fut | none => 0

/-- R280, R317: a page that a chain's walker made resident counts one unit into the sync word of its KVST. -/
def countChain (s : State) (e : Nat × Word × Nat) : State := arrive s (e.1 / 4) e.2.2 1 false false

/-- R317: a chain's page counts where it is resident; one away has its page-in started, and counts when one ends, or once it is found
resident where system software moves it.  DESIGN CHOICE (log 39): after a page-in of it that failed, its walker starts another only at the next
KVNX. -/
def countPage (s : State) (w : PageWait) : State :=
  match anyLeaf s w.quarter w.asn w.ia with
  | some (e, _) =>
    if leafAway e then
      let s := if w.idle then s else tierMiss s w.quarter w.asn w.ia w.core w.ctx 2 none
      let mine (p : PageIn) : Bool := p.quarter == w.quarter && p.ia == w.ia / 2 ^ 16 * 2 ^ 16
      if s.pageIns.any mine then
        { s with pageIns := s.pageIns.map fun p => if mine p then { p with counts := p.counts ++ [w.count] } else p }
      else { s with owed := s.owed ++ [w] }
    else countChain (bringPage s w.quarter (some w.count.1) (w.ia / 2 ^ 16 * 2 ^ 16) (2 ^ 16)) w.count
  | none => countChain s w.count

/-- R317: the pages that chains have still to count are looked at again. -/
def retryOwed (s : State) : State := s.owed.foldl countPage { s with owed := [] }

/-- PAGE_IN_COMPLETE (R323, R324, R396): a page-in ends, moved or failed. -/
def execPageInComplete (s : State) : Host.Outcome State Fault Refusal :=
  match s.pageIns.find? (fun p => p.id == s.subj.id) with
  | none => .next s
  | some p =>
    let s := { s with pageIns := s.pageIns.filter fun x => x.id != p.id }
    let e := movingLeaf s p
    let stay (s : State) : State := if bitAt e 12 then leafPut s p.quarter (p.ia / 2 ^ 16) p.entry (setBit e 12 false) else s
    let (s, fail) := match p.frame with
      | some g =>
        if bitAt e 0 && bitAt e 12 && !frameBad s p.quarter (fld e 51 16) then (pageMoved s p g, false) else (stay (pushFrame s p.quarter g), true)
      | none => (stay s, true)
    let s := p.keys.foldl (countTier fail) s
    let s := if fail then s else { s with moved := s.moved ++ [(p.quarter, p.ia / 2 ^ 16, p.keys)] }
    let again (c : Nat × Word × Nat) : PageWait :=
      { quarter := p.quarter, asn := p.asn, ia := p.ia, core := c.1 / 4, ctx := c.1 % 4, count := c, idle := true }
    let s := if fail then { s with owed := s.owed ++ p.counts.map again } else p.counts.foldl (fun s c => countChain (bringPage s p.quarter (some c.1) (p.ia / 2 ^ 16 * 2 ^ 16) (2 ^ 16)) c) s
    let s := p.cmds.foldl (fun s (n, c) => addReady s ⟨.serviceCommandDone, { id := n, val := c, flag := true, code := if fail then 4 else 1 }⟩) s
    let s := notifyPasses s (p.ia / 2 ^ 16)
    .next (ringAppend s (homeSlice s p.quarter p.ia / 64) tierRing (tierRecord p fail))

end Sys2Proof.Machine
end

