-- ==== Sys2Proof/Machine/Io.lean ====
section
/-!
DEFINITION. What a read of one byte at an intermediate address returns: scratchpads, paged memory, control registers (R440),
notify registers (R373) and slice control blocks (R370).
-/

namespace Sys2Proof.Machine

/-- R440: bytes of a register's slot. -/
def slotBytes (r : CtlReg) : Nat := if r.width ≤ 32 then 4 else 8

/-- R440: the register whose slot holds a byte of a block. -/
def regAt (b : CtlBlock) (q off : Nat) : Option CtlReg :=
  (ctlRegs b q).find? fun r => decide (r.off ≤ off) && decide (off < r.off + slotBytes r)

/-- R3, R440: a byte of a control block as a read returns it. -/
def ctlByte (s : State) (b : CtlBlock) (q off : Nat) : Byte :=
  match regAt b q off with
  | some r => if r.acc = .wo then 0 else BitVec.ofNat 8 (creg s q b r.off % 2 ^ r.width / 2 ^ (8 * (off - r.off)))
  | none => 0

/-- R372: the intermediate address of a queue's descriptor. -/
def queueDesc (s : State) (q queue : Nat) : Nat := creg s q .sched 0x000 + 64 * queue

/-- R373: the value a notify register reads as, in the partition of quarter q. -/
def notifyValue (s : State) (q queue : Nat) : Nat :=
  if queue < creg s q .sched 0x008 then sysNum s q (queueDesc s q queue + 16) 8 else 0

/-- R373, R441: the page that a read of a notify register looks at. -/
def notifyAsk (s : State) (q queue : Nat) : List PageAsk :=
  if queue < creg s q .sched 0x008 then sysAsk q (queueDesc s q queue) else []

/-- R370: a byte of a slice's control block. -/
def sliceByte (s : State) (n off : Nat) : Byte :=
  if off < 0x20000 then mget s (sliceAddr n off)
  else if off < 0x20400 then BitVec.ofNat 8 (sliceDesc s n ((off - 0x20000) / 8) / 2 ^ (8 * (off % 8)))
  else if off < 0x20404 then BitVec.ofNat 8 ((sget {} s.slices n).ovf / 2 ^ (8 * (off % 4)))
  else if off = 0x20408 then BitVec.ofNat 8 (sget {} s.slices n).chain.toNat
  else 0

/-- What a byte of an access answers: a value, a wait for its translation, or a trap code. -/
inductive ByteEnd where
  | ok (b : Byte)
  | wait
  | fail (code : Nat)
deriving DecidableEq, Repr

/-- R217, R218: the byte at an intermediate address, for a context of address space asn on a core. -/
def readIa (s : State) (core asn ia : Nat) : State × ByteEnd :=
  match windowOf core ia with
  | .scratch n off => (s, .ok (mget s (spAddr n off)))
  | .ctl b q off => (s, .ok (ctlByte s b q off))
  | .notify queue off =>
    match findPages (notifyAsk s (leadCore s core) queue) s with
    | (s, []) => (s, .ok (if off < 8 then BitVec.ofNat 8 (notifyValue s (leadCore s core) queue / 2 ^ (8 * off)) else 0))
    | (s, _) => (s, .wait)
  | .slice n off => (s, .ok (sliceByte s n off))
  | .memory | .cxl =>
    match resolvePage s (leadCore s core) asn ia false with
    | (s, .ok pa _) => (s, .ok (mget s (paAddr pa)))
    | (s, .wait) => (s, .wait)
    | (s, .range) => (s, .fail 0x09)
    | (s, .protection) => (s, .fail 0x0A)
    | (s, .pageFault) => (s, .fail 0x0C)
  | _ => (s, .fail 0x0B)

end Sys2Proof.Machine
end

