-- ==== Sys2Proof/Machine/Num.lean ====
section
/-!
DEFINITION. Number formats (R63 to R70), the exact values they stand for, rounding (R9, R10), conversion (R72, R81) and the
element add (R73).
-/

namespace Sys2Proof.Machine

/-- R8, R71: a decoded operand: an exact value (±m × 2^e, with the sign of a zero kept), an infinity, or a NaN. -/
inductive Num where
  | nan
  | inf (neg : Bool)
  | fin (neg : Bool) (m : Nat) (e : Int)
deriving DecidableEq, Repr

/-- The signed integer of a sign and a magnitude. -/
def signedInt (neg : Bool) (m : Nat) : Int := if neg then -(m : Int) else m

/-- An exact integer as a value. -/
def Num.ofInt (i : Int) : Num := .fin (decide (i < 0)) i.natAbs 0

/-- The integer a finite value is at a scale not above its exponent. -/
def scaled (neg : Bool) (m : Nat) (e k : Int) : Int := signedInt neg m * 2 ^ (e - k).toNat

/-- R66, R78: the sum of two values; a zero sum is −0 only where both terms are −0. -/
def Num.add : Num → Num → Num
  | .nan, _ | _, .nan => .nan
  | .inf a, .inf b => if a = b then .inf a else .nan
  | .inf a, _ => .inf a
  | _, .inf b => .inf b
  | .fin a m e, .fin b n f =>
    let k := min e f
    let i := scaled a m e k + scaled b n f k
    if i = 0 then .fin (a && b && m == 0 && n == 0) 0 0 else .fin (decide (i < 0)) i.natAbs k

/-- The value with its sign inverted. -/
def Num.neg : Num → Num
  | .nan => .nan
  | .inf a => .inf (!a)
  | .fin a m e => .fin (!a) m e

/-- R76: the magnitude. -/
def Num.abs : Num → Num
  | .nan => .nan
  | .inf _ => .inf false
  | .fin _ m e => .fin false m e

/-- The difference. -/
def Num.sub (x y : Num) : Num := x.add y.neg

/-- R78: the product; 0 × ∞ is NaN. -/
def Num.mul : Num → Num → Num
  | .nan, _ | _, .nan => .nan
  | .inf a, .inf b => .inf (a != b)
  | .inf a, .fin b n _ => if n = 0 then .nan else .inf (a != b)
  | .fin a m _, .inf b => if m = 0 then .nan else .inf (a != b)
  | .fin a m e, .fin b n f => .fin (a != b) (m * n) (e + f)

/-- R76: the value times 2^g. -/
def Num.scale (x : Num) (g : Int) : Num :=
  match x with
  | .fin a m e => .fin a m (e + g)
  | x => x

/-- IEEE order: x < y; false with a NaN; zeros are equal. -/
def Num.lt : Num → Num → Bool
  | .nan, _ | _, .nan => false
  | .inf a, .inf b => a && !b
  | .inf a, .fin .. => a
  | .fin .., .inf b => !b
  | .fin a m e, .fin b n f => decide (scaled a m e (min e f) < scaled b n f (min e f))

/-- IEEE equality: false with a NaN; zeros are equal. -/
def Num.eq : Num → Num → Bool
  | .nan, _ | _, .nan => false
  | x, y => !x.lt y && !y.lt x

/-- The value is negative zero. -/
def Num.isNegZero : Num → Bool
  | .fin true 0 _ => true
  | _ => false

/-- R66: the smaller value; a NaN where either is a NaN; −0 below +0. -/
def Num.min (x y : Num) : Num :=
  match x, y with
  | .nan, _ | _, .nan => .nan
  | x, y => if x.lt y then x else if y.lt x then y else if y.isNegZero then y else x

/-- R66: the larger value; a NaN where either is a NaN; −0 below +0. -/
def Num.max (x y : Num) : Num :=
  match x, y with
  | .nan, _ | _, .nan => .nan
  | x, y => if x.lt y then y else if y.lt x then x else if x.isNegZero then y else x

/-! ### IEEE formats -/

/-- R65: exponent and fraction bits of an IEEE format; none for the others. -/
def ieee : Fmt → Option (Nat × Nat)
  | .b64 => some (11, 52)
  | .b32 => some (8, 23)
  | .b16 => some (5, 10)
  | .bf16 => some (8, 7)
  | _ => none

/-- R63: bits of an element. -/
def fmtBits : Fmt → Nat
  | .b64 | .i64 => 64
  | .b32 | .i32 => 32
  | .b16 | .bf16 | .i16 => 16
  | .i8 | .t8 | .bx8 | .raw => 8
  | .t6 => 6

/-- R65: the exponent bias. -/
def bias (eb : Nat) : Nat := 2 ^ (eb - 1) - 1

/-- R65: the value of an IEEE encoding. -/
def ieeeDecode (eb fb x : Nat) : Num :=
  let neg := bitAt x (eb + fb)
  let ex := fld x (eb + fb - 1) fb
  let fr := x % 2 ^ fb
  if ex = 2 ^ eb - 1 then (if fr = 0 then .inf neg else .nan)
  else if ex = 0 then .fin neg fr (1 - (bias eb : Int) - fb)
  else .fin neg (2 ^ fb + fr) ((ex : Int) - bias eb - fb)

/-- R65: the canonical NaN. -/
def ieeeNan (eb fb : Nat) : Nat := (2 ^ eb - 1) * 2 ^ fb + 2 ^ (fb - 1)

/-- A sign bit before an encoding's magnitude. -/
def withSign (eb fb : Nat) (neg : Bool) (mag : Nat) : Nat := mag + neg.toNat * 2 ^ (eb + fb)

/-- m / 2^k rounded to an integer: toward zero, or to the nearest with ties to even. -/
def roundShift (rz : Bool) (m k : Nat) : Nat :=
  let q := m / 2 ^ k
  let r := m % 2 ^ k
  if rz then q
  else if 2 * r < 2 ^ k then q
  else if 2 ^ k < 2 * r then q + 1
  else q + q % 2

/-- R9: the encoding of a finite non-zero magnitude, by the format's lowest exponent of a last place. -/
def ieeeMag (eb fb : Nat) (rz : Bool) (m : Nat) (e : Int) : Nat :=
  let low : Int := 1 - (bias eb : Int) - fb
  let q := Max.max (e + Nat.log2 m - fb) low
  let n := if e ≥ q then m * 2 ^ (e - q).toNat else roundShift rz m (q - e).toNat
  let code := (q - low).toNat * 2 ^ fb + n
  let top := (2 ^ eb - 1) * 2 ^ fb
  if code < top then code else if rz then top - 1 else top

/-- R9, R72, R81: a value in an IEEE format.  A value that is not zero and rounds to zero gives the zero of its own sign, which the spec
leaves open: the zeros it settles are exact ones (DESIGN CHOICE, log 60). -/
def ieeeEncode (eb fb : Nat) (rz : Bool) : Num → Nat
  | .nan => ieeeNan eb fb
  | .inf a => withSign eb fb a ((2 ^ eb - 1) * 2 ^ fb)
  | .fin a m e => withSign eb fb a (if m = 0 then 0 else ieeeMag eb fb rz m e)

/-! ### Tapered formats -/

/-- R68: the length of the run of equal bits from bit i of a body downward, where the bit above was b. -/
def runLength (body : Nat) (b : Bool) : Nat → Nat
  | 0 => 0
  | i + 1 => if bitAt body i = b then runLength body b i + 1 else 0

/-- R68: the magnitude of a body of w bits, as a mantissa and an exponent; te says that the format has an exponent bit. -/
def taperMag (te : Bool) (w body : Nat) : Nat × Int :=
  let b := bitAt body (w - 1)
  let k := runLength body b w
  let rg : Int := if b then (k : Int) - 1 else -k
  let m := w - k - 1
  let tail := body % 2 ^ m
  let fb := if te && decide (0 < m) then m - 1 else m
  let x := if te && decide (0 < m) then tail / 2 ^ (m - 1) else 0
  let f := tail % 2 ^ fb
  (2 ^ fb + f, (if te then 2 * rg + x else rg) - fb)

/-- R68: the value of a tapered code; NaT decodes as a NaN. -/
def taperDecode (te : Bool) (w code : Nat) : Num :=
  let body := code % 2 ^ w
  let s := bitAt code w
  if body = 0 then (if s then .nan else .fin false 0 0)
  else
    let (m, e) := taperMag te w body
    .fin s m e

/-- The scale at which every tapered magnitude is an integer: 2^12 for taper-8, 2^4 for taper-6. -/
def taperScale (te : Bool) : Int := if te then -12 else -4

/-- A positive code's magnitude as an integer at the format's scale; code 0 has magnitude 0. -/
def taperInt (te : Bool) (w code : Nat) : Nat :=
  if code = 0 then 0
  else
    let (m, e) := taperMag te w code
    m * 2 ^ (e - taperScale te).toNat

/-- The largest code from n downward whose magnitude is not above m × 2^e. -/
def taperFloor (te : Bool) (w m : Nat) (e : Int) : Nat → Nat
  | 0 => 0
  | n + 1 =>
    let k := Min.min e (taperScale te)
    if (taperInt te w (n + 1) : Int) * 2 ^ (taperScale te - k).toNat ≤ m * 2 ^ (e - k).toNat then n + 1
    else taperFloor te w m e n

/-- R9: the code of a finite magnitude: the neighbour below, or the nearer one with ties to the even code. -/
def taperRound (te : Bool) (w : Nat) (rz : Bool) (m : Nat) (e : Int) : Nat :=
  let top := 2 ^ w - 1
  let c := taperFloor te w m e top
  if rz ∨ c = top then c
  else
    let k := Min.min e (taperScale te)
    let mid : Int := ((taperInt te w c + taperInt te w (c + 1) : Nat) : Int) * 2 ^ (taperScale te - k).toNat
    let x : Int := 2 * (m * 2 ^ (e - k).toNat)
    if x < mid then c else if mid < x then c + 1 else c + c % 2

/-- R72, R81: a value in a tapered format. -/
def taperEncode (te : Bool) (w : Nat) (rz : Bool) : Num → Nat
  | .nan => 2 ^ w
  | .inf a => 2 ^ w - 1 + a.toNat * 2 ^ w
  | .fin a m e =>
    let c := if m = 0 then 0 else taperRound te w rz m e
    if c = 0 then 0 else c + a.toNat * 2 ^ w

/-! ### Integers -/

/-- The integer a value rounds to under a mode. -/
def roundInt (rm : RMode) (neg : Bool) (m : Nat) (e : Int) : Int :=
  if 0 ≤ e then signedInt neg (m * 2 ^ e.toNat)
  else
    let k := (-e).toNat
    let q := m / 2 ^ k
    let r := m % 2 ^ k
    let away := match rm with
      | .rne => decide (2 ^ k < 2 * r) || (2 * r == 2 ^ k && q % 2 == 1)
      | .rz => false
      | .dn => neg && r != 0
      | .up => !neg && r != 0
    signedInt neg (if away then q + 1 else q)

/-- R72, R169: a value as an integer between bounds: NaN gives 0. -/
def Num.toInt (rm : RMode) (lo hi : Int) : Num → Int
  | .nan => 0
  | .inf a => if a then lo else hi
  | .fin a m e => satInt lo hi (roundInt rm a m e)

/-! ### Formats together -/

/-- R71: an element of a format as a value. -/
def decodeNum (f : Fmt) (x : Nat) : Num :=
  match f with
  | .b64 => ieeeDecode 11 52 x
  | .b32 => ieeeDecode 8 23 x
  | .b16 => ieeeDecode 5 10 x
  | .bf16 => ieeeDecode 8 7 x
  | .t8 => taperDecode true 7 x
  | .t6 => taperDecode false 5 x
  | .i8 | .bx8 => .ofInt (toSigned 8 x)
  | .i16 => .ofInt (toSigned 16 x)
  | .i32 => .ofInt (toSigned 32 x)
  | .i64 => .ofInt (toSigned 64 x)
  | .raw => .nan

/-- The signed integer bounds of n bits. -/
def intEncode (n : Nat) (rm : RMode) (x : Num) : Nat := ofSigned n (x.toInt rm (-(2 ^ (n - 1) : Int)) (2 ^ (n - 1) - 1))

/-- R9, R72, R81: a value in a format, rounded to nearest, or toward zero (rz). -/
def encodeNum (f : Fmt) (rz : Bool) (x : Num) : Nat :=
  let rm : RMode := if rz then .rz else .rne
  match f with
  | .b64 => ieeeEncode 11 52 rz x
  | .b32 => ieeeEncode 8 23 rz x
  | .b16 => ieeeEncode 5 10 rz x
  | .bf16 => ieeeEncode 8 7 rz x
  | .t8 => taperEncode true 7 rz x
  | .t6 => taperEncode false 5 rz x
  | .i8 | .bx8 => intEncode 8 rm x
  | .i16 => intEncode 16 rm x
  | .i32 => intEncode 32 rm x
  | .i64 => intEncode 64 rm x
  | .raw => 0

/-- R72: the conversion of an element; the same format keeps the encoding. -/
def convertNum (src dst : Fmt) (x : Nat) : Nat :=
  if src = dst then x % 2 ^ fmtBits src else encodeNum dst false (decodeNum src x)

/-- R81: the drain of an accumulator element. -/
def drainNum (src dst : Fmt) (x : Nat) : Nat :=
  if src = dst then x % 2 ^ fmtBits src else encodeNum dst true (decodeNum src x)

/-- R73: the element add of a format. -/
def addNum (f : Fmt) (d a : Nat) : Nat := encodeNum f false ((decodeNum f d).add (decodeNum f a))

/-- R51: the format is an integer format. -/
def isIntFmt : Fmt → Bool
  | .i8 | .i16 | .i32 | .i64 => true
  | _ => false

/-- R64, R71: element i of an array of a format held as bytes. -/
def arrayElem (f : Fmt) (bs : List Byte) (i : Nat) : Nat :=
  if f = .t6 then ofBytes ((bs.drop (3 * (i / 4))).take 3) / 2 ^ (6 * (i % 4)) % 64
  else ofBytes ((bs.drop (i * (fmtBits f / 8))).take (fmtBits f / 8))

/-- R64: one 3-byte group of taper-6 codes. -/
def packGroup (xs : List Nat) : List Byte :=
  toBytes 3 (xs.getD 0 0 % 64 + xs.getD 1 0 % 64 * 2 ^ 6 + xs.getD 2 0 % 64 * 2 ^ 12 + xs.getD 3 0 % 64 * 2 ^ 18)

/-- R64: elements of a format as the bytes of an array, taper-6 in whole groups. -/
def packArray (f : Fmt) (xs : List Nat) : List Byte :=
  if f = .t6 then
    (List.range ((xs.length + 3) / 4)).flatMap fun g => packGroup (xs.drop (4 * g))
  else xs.flatMap fun x => toBytes (fmtBits f / 8) x

end Sys2Proof.Machine
end

