-- ==== Sys2Proof/Machine/Flags.lean ====
section
/-!
DEFINITION. The conditions that compares and tests write to flags and masks (R161, R168, R180 to R182) and the class of a
value (R168).
-/

namespace Sys2Proof.Machine

/-- R161, R180: a condition on two w-bit values. -/
def condHolds (c : Cond) (w a b : Nat) : Bool :=
  match c with
  | .eq => a == b
  | .ne => a != b
  | .lt => decide (toSigned w a < toSigned w b)
  | .ge => decide (toSigned w b ≤ toSigned w a)
  | .ltu => decide (a < b)
  | .geu => decide (b ≤ a)
  | .tst => a &&& b != 0
  | .ntst => a &&& b == 0

/-- R168, R181: a condition on two values; −0 equals +0, and only .un and .ne hold of a NaN. -/
def fcondHolds (c : FCond) (x y : Num) : Bool :=
  match c with
  | .eq => x.eq y
  | .lt => x.lt y
  | .le => x.lt y || x.eq y
  | .un => x == .nan || y == .nan
  | .ne => !x.eq y

/-- R182: the test of VNF and VNFQ on a value. -/
def nfHolds (t : NfTest) (x : Num) : Bool :=
  match t, x with
  | .nf, .nan | .nf, .inf _ | .nan, .nan | .inf, .inf _ => true
  | _, _ => false

/-- R168: the class bit of an encoding. -/
def classOf (eb fb x : Nat) : Nat :=
  let neg := bitAt x (eb + fb)
  let ex := fld x (eb + fb - 1) fb
  match ieeeDecode eb fb x with
  | .nan => 8
  | .inf _ => if neg then 0 else 7
  | .fin _ m _ =>
    if m = 0 then (if neg then 3 else 4)
    else if ex = 0 then (if neg then 2 else 5)
    else if neg then 1 else 6

end Sys2Proof.Machine
end

