-- ==== Sys2Proof/Machine/Scalar.lean ====
section
/-!
DEFINITION. The scalar integer instructions of the S0 and S1 slots (R159 to R165) and the moves of system registers (R355).
-/

namespace Sys2Proof.Machine

/-- R162: the immediate of form RI, sign-extended. -/
def immS (imm : BitVec 32) : Word := imm.signExtend 64

/-- R162: the immediate of form RI, zero-extended. -/
def immZ (imm : BitVec 32) : Word := imm.zeroExtend 64

/-- R159: the amount of a shift: the low six bits of the second operand. -/
def shiftBy (b : Word) : Nat := b.toNat % 64

/-- R159: sD := a op b, with bound 1. -/
def scalar2 (f : Word → Word → Word) (d a b : Nat) (s : State) : Host.Outcome State Fault Refusal :=
  .next (writeS s 1 d (f (readS s a) (readS s b)))

/-- R160: sD := f a, with bound 1. -/
def scalar1 (f : Word → Word) (d a : Nat) (s : State) : Host.Outcome State Fault Refusal :=
  .next (writeS s 1 d (f (readS s a)))

/-- ADD (R159). -/
def execAdd (d a b : Nat) (s : State) : Host.Outcome State Fault Refusal := scalar2 (· + ·) d a b s

/-- SUB (R159). -/
def execSub (d a b : Nat) (s : State) : Host.Outcome State Fault Refusal := scalar2 (· - ·) d a b s

/-- AND (R159). -/
def execAnd (d a b : Nat) (s : State) : Host.Outcome State Fault Refusal := scalar2 (· &&& ·) d a b s

/-- OR (R159). -/
def execOr (d a b : Nat) (s : State) : Host.Outcome State Fault Refusal := scalar2 (· ||| ·) d a b s

/-- XOR (R159). -/
def execXor (d a b : Nat) (s : State) : Host.Outcome State Fault Refusal := scalar2 (· ^^^ ·) d a b s

/-- ANDN (R159). -/
def execAndn (d a b : Nat) (s : State) : Host.Outcome State Fault Refusal := scalar2 (fun x y => x &&& ~~~ y) d a b s

/-- SHL (R159). -/
def execShl (d a b : Nat) (s : State) : Host.Outcome State Fault Refusal := scalar2 (fun x y => x <<< shiftBy y) d a b s

/-- SHR (R159). -/
def execShr (d a b : Nat) (s : State) : Host.Outcome State Fault Refusal := scalar2 (fun x y => x >>> shiftBy y) d a b s

/-- SRA (R159). -/
def execSra (d a b : Nat) (s : State) : Host.Outcome State Fault Refusal :=
  scalar2 (fun x y => x.sshiftRight (shiftBy y)) d a b s

/-- ROL (R159). -/
def execRol (d a b : Nat) (s : State) : Host.Outcome State Fault Refusal :=
  scalar2 (fun x y => x.rotateLeft (shiftBy y)) d a b s

/-- ROR (R159). -/
def execRor (d a b : Nat) (s : State) : Host.Outcome State Fault Refusal :=
  scalar2 (fun x y => x.rotateRight (shiftBy y)) d a b s

/-- MIN (R159). -/
def execMin (d a b : Nat) (s : State) : Host.Outcome State Fault Refusal :=
  scalar2 (fun x y => if x.toInt ≤ y.toInt then x else y) d a b s

/-- MAX (R159). -/
def execMax (d a b : Nat) (s : State) : Host.Outcome State Fault Refusal :=
  scalar2 (fun x y => if x.toInt ≤ y.toInt then y else x) d a b s

/-- MINU (R159). -/
def execMinu (d a b : Nat) (s : State) : Host.Outcome State Fault Refusal :=
  scalar2 (fun x y => if x.toNat ≤ y.toNat then x else y) d a b s

/-- MAXU (R159). -/
def execMaxu (d a b : Nat) (s : State) : Host.Outcome State Fault Refusal :=
  scalar2 (fun x y => if x.toNat ≤ y.toNat then y else x) d a b s

/-! ### Bits -/

/-- Leading zero bits among the low n bits. -/
def leadingZeros (x : Nat) : Nat → Nat
  | 0 => 0
  | n + 1 => if bitAt x n then 0 else leadingZeros x n + 1

/-- Trailing zero bits among n bits from bit i on. -/
def trailingZeros (x : Nat) : Nat → Nat → Nat
  | 0, _ => 0
  | n + 1, i => if bitAt x i then 0 else trailingZeros x n (i + 1) + 1

/-- One bits among the low n bits. -/
def onesCount (x : Nat) : Nat → Nat
  | 0 => 0
  | n + 1 => (bitAt x n).toNat + onesCount x n

/-- R160: the width of a field that fits in 64 bits. -/
def fieldWidth (pos len : Nat) : Nat := Min.min len (64 - pos)

/-- R160: pos and len of a field operand. -/
def fieldOf (b : Word) : Nat × Nat := (b.toNat % 64, fld b.toNat 14 8)

/-- R160: the field of BFX. -/
def bfxValue (sg : Bool) (a b : Word) : Word :=
  let (pos, len) := fieldOf b
  let w := fieldWidth pos len
  if w = 0 then 0
  else if sg then sext w (a.toNat / 2 ^ pos) else BitVec.ofNat 64 (a.toNat / 2 ^ pos % 2 ^ w)

/-- R160: the result of BFI. -/
def bfiValue (a b c : Word) : Word :=
  let (pos, len) := fieldOf c
  let w := fieldWidth pos len
  if w = 0 then a else BitVec.ofNat 64 (setFld a.toNat (pos + w - 1) pos (b.toNat % 2 ^ w))

/-- CLZ (R160). -/
def execClz (d a : Nat) (s : State) : Host.Outcome State Fault Refusal :=
  scalar1 (fun x => BitVec.ofNat 64 (leadingZeros x.toNat 64)) d a s

/-- CTZ (R160). -/
def execCtz (d a : Nat) (s : State) : Host.Outcome State Fault Refusal :=
  scalar1 (fun x => BitVec.ofNat 64 (trailingZeros x.toNat 64 0)) d a s

/-- POPC (R160). -/
def execPopc (d a : Nat) (s : State) : Host.Outcome State Fault Refusal :=
  scalar1 (fun x => BitVec.ofNat 64 (onesCount x.toNat 64)) d a s

/-- BSWAP (R160). -/
def execBswap (d a : Nat) (s : State) : Host.Outcome State Fault Refusal :=
  scalar1 (fun x => BitVec.ofNat 64 (ofBytes (toBytes 8 x.toNat).reverse)) d a s

/-- SEXT (R160). -/
def execSext (d a p : Nat) (s : State) : Host.Outcome State Fault Refusal := scalar1 (fun x => sext (p + 1) x.toNat) d a s

/-- ZEXT (R160). -/
def execZext (d a p : Nat) (s : State) : Host.Outcome State Fault Refusal :=
  scalar1 (fun x => BitVec.ofNat 64 (x.toNat % 2 ^ (p + 1))) d a s

/-- BFX (R160). -/
def execBfx (d a b : Nat) (sg : Bool) (s : State) : Host.Outcome State Fault Refusal := scalar2 (bfxValue sg) d a b s

/-- BFI (R160). -/
def execBfi (d a b c : Nat) (s : State) : Host.Outcome State Fault Refusal :=
  .next (writeS s 1 d (bfiValue (readS s a) (readS s b) (readS s c)))

/-! ### Compares and selects -/

/-- CMP (R161). -/
def execCmp (d a b : Nat) (cc : Cond) (s : State) : Host.Outcome State Fault Refusal :=
  .next (writeF s 1 d (condHolds cc 64 (readS s a).toNat (readS s b).toNat))

/-- CMPI (R161). -/
def execCmpi (d a : Nat) (cc : Cond) (imm : BitVec 32) (s : State) : Host.Outcome State Fault Refusal :=
  .next (writeF s 1 d (condHolds cc 64 (readS s a).toNat (immS imm).toNat))

/-- SEL (R161). -/
def execSel (d a b c : Nat) (s : State) : Host.Outcome State Fault Refusal :=
  .next (writeS s 1 d (if readF s c then readS s a else readS s b))

/-- LEA (R161). -/
def execLea (d a b sh : Nat) (s : State) : Host.Outcome State Fault Refusal := scalar2 (fun x y => x + y <<< sh) d a b s

/-- FLAND (R161). -/
def execFland (d a b : Nat) (inv : Bool) (s : State) : Host.Outcome State Fault Refusal :=
  .next (writeF s 1 d (readF s a && (readF s b != inv)))

/-- FLOR (R161). -/
def execFlor (d a b : Nat) (inv : Bool) (s : State) : Host.Outcome State Fault Refusal :=
  .next (writeF s 1 d (readF s a || (readF s b != inv)))

/-- FLXOR (R161). -/
def execFlxor (d a b : Nat) (inv : Bool) (s : State) : Host.Outcome State Fault Refusal :=
  .next (writeF s 1 d (readF s a != (readF s b != inv)))

/-! ### Immediates -/

/-- ADDI (R162). -/
def execAddi (d a : Nat) (imm : BitVec 32) (s : State) : Host.Outcome State Fault Refusal :=
  scalar1 (fun x => x + immS imm) d a s

/-- ANDI (R162). -/
def execAndi (d a : Nat) (imm : BitVec 32) (s : State) : Host.Outcome State Fault Refusal :=
  scalar1 (fun x => x &&& immS imm) d a s

/-- ORI (R162). -/
def execOri (d a : Nat) (imm : BitVec 32) (s : State) : Host.Outcome State Fault Refusal :=
  scalar1 (fun x => x ||| immZ imm) d a s

/-- XORI (R162). -/
def execXori (d a : Nat) (imm : BitVec 32) (s : State) : Host.Outcome State Fault Refusal :=
  scalar1 (fun x => x ^^^ immZ imm) d a s

/-- SHLI (R162). -/
def execShli (d a : Nat) (imm : BitVec 32) (s : State) : Host.Outcome State Fault Refusal :=
  scalar1 (fun x => x <<< imm.toNat) d a s

/-- SHRI (R162). -/
def execShri (d a : Nat) (imm : BitVec 32) (s : State) : Host.Outcome State Fault Refusal :=
  scalar1 (fun x => x >>> imm.toNat) d a s

/-- SRAI (R162). -/
def execSrai (d a : Nat) (imm : BitVec 32) (s : State) : Host.Outcome State Fault Refusal :=
  scalar1 (fun x => x.sshiftRight imm.toNat) d a s

/-- MOVI (R163). -/
def execMovi (d : Nat) (imm : BitVec 45) (s : State) : Host.Outcome State Fault Refusal :=
  .next (writeS s 1 d (imm.signExtend 64))

/-- MOVHI (R163): the immediate above the low 19 bits of the destination as read at issue. -/
def execMovhi (d : Nat) (imm : BitVec 45) (s : State) : Host.Outcome State Fault Refusal :=
  .next (writeS s 1 d (imm ++ (readS s d).extractLsb' 0 19))

/-! ### Multiplies -/

/-- MUL (R164). -/
def execMul (d a b : Nat) (s : State) : Host.Outcome State Fault Refusal := .next (writeS s 3 d (readS s a * readS s b))

/-- MULH (R164). -/
def execMulh (d a b : Nat) (s : State) : Host.Outcome State Fault Refusal :=
  .next (writeS s 3 d (BitVec.ofNat 64 (ofSigned 128 ((readS s a).toInt * (readS s b).toInt) / 2 ^ 64)))

/-- MULHU (R164). -/
def execMulhu (d a b : Nat) (s : State) : Host.Outcome State Fault Refusal :=
  .next (writeS s 3 d (BitVec.ofNat 64 ((readS s a).toNat * (readS s b).toNat / 2 ^ 64)))

/-! ### Special registers -/

/-- R45: the context's identity word. -/
def cidOf (s : State) : Word :=
  let core := myCore s
  BitVec.ofNat 64 (s.at_ % 4 + core % 8 * 2 ^ 2 + core / 8 % 12 * 2 ^ 5 + core / 96 * 2 ^ 9 + core * 2 ^ 13
    + quarterOf core * 2 ^ 24 + s.pkg * 2 ^ 32)

/-- RDSP (R165): bound 1. -/
def execRdsp (d : Nat) (sp : Spr) (s : State) : Host.Outcome State Fault Refusal :=
  .next (writeS s 1 d (match sp with
    | .ppw => (me s).ppw
    | .cid => cidOf s
    | .cyc => BitVec.ofNat 64 s.cyc
    | .nrg => BitVec.ofNat 64 (match (me s).task with | some t => sget 0 s.nrg t.record.launch | none => 0)))

/-- LCRD (R165). -/
def execLcrd (d a : Nat) (s : State) : Host.Outcome State Fault Refusal :=
  .next (writeS s 1 d ((readLc s a).zeroExtend 64))

/-- LCWR (R165). -/
def execLcwr (d a : Nat) (s : State) : Host.Outcome State Fault Refusal :=
  .next (queueFixed s 1 [{ dst := .lc d, bits := (readS s a).toNat % 2 ^ 32 }])

/-- NRD (R165). -/
def execNrd (d a w : Nat) (s : State) : Host.Outcome State Fault Refusal := .next (writeS s 1 d (readN s a w))

/-- NWR (R165). -/
def execNwr (d a w : Nat) (s : State) : Host.Outcome State Fault Refusal :=
  .next (queueFixed s 1 [{ dst := .n d, word := w, bits := (readS s a).toNat }])

/-! ### System registers -/

/-- R354: the value of a system register. -/
def sysValue (s : State) (r : SysReg) : Nat :=
  let c := me s
  if undefNow s (.sys r) then Config.undefReg s.fresh (.sys r)
  else match r with
    | .plv => c.pl
    | .tvec => c.tvec.toNat
    | .xepc => c.xepc.toNat
    | .xepl => c.xepl
    | .trec => c.trec.toNat
    | .asn => c.asn
    | .lnum => c.lnum
    | .bud => (coreAt s (myCore s)).bud
    | .tword => c.tword
    | .pkg => s.pkg

/-- R354: the level a write of a system register needs; none where no level permits it. -/
def sysWriteLevel : SysReg → Option Nat
  | .plv | .asn | .lnum => none
  | .pkg => some 2
  | _ => some 1

/-- R355: the values a system register takes. -/
def sysAccepts (s : State) (r : SysReg) (v : Nat) : Bool :=
  match r with
  | .plv | .asn | .lnum => false
  | .tvec | .trec => v % 64 == 0
  | .xepc => true
  | .xepl => decide (v < 4)
  | .bud => v % 64 == 0 && decide (64 ≤ v) && decide (v ≤ 4096)
  | .tword => decide (v < 2 ^ 18) && decide (v / 2 < mySp s / 16)
  | .pkg => decide (v < 2 ^ 16)

/-- SYSR (R352, R355): a read below level 1 traps. -/
def execSysr (d : Nat) (reg : SysReg) (s : State) : Host.Outcome State Fault Refusal :=
  if (me s).pl < 1 then trap s 0x03 else .next (writeS s 1 d (BitVec.ofNat 64 (sysValue s reg)))

/-- SYSW (R352, R355). -/
def execSysw (a : Nat) (reg : SysReg) (s : State) : Host.Outcome State Fault Refusal :=
  match sysWriteLevel reg with
  | none => trap s 0x03
  | some l =>
    if (me s).pl < l then trap s 0x03
    else if sysAccepts s reg (readS s a).toNat then
      .next (queueFixed s 1 [{ dst := .sys reg, bits := (readS s a).toNat }])
    else trap s 0x04

end Sys2Proof.Machine
end

