-- ==== Sys2Proof/Machine/Control.lean ====
section
/-!
DEFINITION. The branches, nest loops, waits, marks, yields and task flow of the C slot (R139 to R157).
-/

namespace Sys2Proof.Machine

/-! ### Branches -/

/-- R141, R143: transfer to a target; a misaligned target traps. -/
def jump (s : State) (t : Word) : Host.Outcome State Fault Refusal :=
  if t.toNat % 64 = 0 then .next { s with iss := { s.iss with target := some t } } else trap s 0x05

/-- R142: base + 64 × off. -/
def bundleOff (base : Word) (off : BitVec 25) : Word := base + off.signExtend 64 * 64

/-- R142: a link, a scalar-integer result of bound 1. -/
def link (s : State) (a : Nat) : State := writeS s 1 a (curPc s + 64)

/-- R142: a conditional branch to PC + 64 × OFF. -/
def branchIf (c : Bool) (off : BitVec 25) (s : State) : Host.Outcome State Fault Refusal :=
  if c then jump s (bundleOff (curPc s) off) else .next s

/-- BR (R142). -/
def execBr (off : BitVec 25) (s : State) : Host.Outcome State Fault Refusal := jump s (bundleOff (curPc s) off)

/-- BRR (R142). -/
def execBrr (a : Nat) (off : BitVec 25) (s : State) : Host.Outcome State Fault Refusal := jump s (bundleOff (readS s a) off)

/-- CALL (R142). -/
def execCall (a : Nat) (off : BitVec 25) (s : State) : Host.Outcome State Fault Refusal :=
  jump (link s a) (bundleOff (curPc s) off)

/-- CALLR (R142): the target is read before the link is written. -/
def execCallr (a b : Nat) (off : BitVec 25) (s : State) : Host.Outcome State Fault Refusal :=
  jump (link s a) (bundleOff (readS s b) off)

/-- RET (R144). -/
def execRet (a : Nat) (s : State) : Host.Outcome State Fault Refusal := jump s (readS s a)

/-- BTAB (R142). -/
def execBtab (a b : Nat) (off : BitVec 25) (s : State) : Host.Outcome State Fault Refusal :=
  let i := if (readS s a).toNat ≤ (readS s b).toNat then readS s a else readS s b
  jump s (bundleOff (curPc s) off + i * 64)

/-- BEQ (R142). -/
def execBeq (a b : Nat) (off : BitVec 25) (s : State) : Host.Outcome State Fault Refusal :=
  branchIf (readS s a == readS s b) off s

/-- BNE (R142). -/
def execBne (a b : Nat) (off : BitVec 25) (s : State) : Host.Outcome State Fault Refusal :=
  branchIf (readS s a != readS s b) off s

/-- BLT (R142). -/
def execBlt (a b : Nat) (off : BitVec 25) (s : State) : Host.Outcome State Fault Refusal :=
  branchIf ((readS s a).slt (readS s b)) off s

/-- BGE (R142). -/
def execBge (a b : Nat) (off : BitVec 25) (s : State) : Host.Outcome State Fault Refusal :=
  branchIf (!(readS s a).slt (readS s b)) off s

/-- BLTU (R142). -/
def execBltu (a b : Nat) (off : BitVec 25) (s : State) : Host.Outcome State Fault Refusal :=
  branchIf ((readS s a).ult (readS s b)) off s

/-- BGEU (R142). -/
def execBgeu (a b : Nat) (off : BitVec 25) (s : State) : Host.Outcome State Fault Refusal :=
  branchIf (!(readS s a).ult (readS s b)) off s

/-! ### Nest loops -/

/-- R262: the sixteen words of a nest register. -/
def nestWords (s : State) (n : Nat) : List Word := (List.range 16).map fun w => readN s n w

/-- LOOPN (R145). -/
def execLoopn (n bl : Nat) (s : State) : Host.Outcome State Fault Refusal :=
  if (me s).regs.loop.active then trap s 0x07
  else
    let d := nestWords s n
    if nestMalformed d then trap s 0x08
    else
      let pc := curPc s
      let endPc := pc + BitVec.ofNat 64 (64 * (bl + 2))
      if (List.range 6).any fun i => nestCount d i == 0 then
        .next { s with iss := { s.iss with loopTo := some endPc } }
      else
        let base := (List.range 4).map fun j => readS s (nestReg d j)
        .next { s with iss := { s.iss with
          loopn := some { active := true, nest := n, body := pc + 64, endPc, desc := d, base } } }

/-- LOOPX (R147). -/
def execLoopx (n : Nat) (s : State) : Host.Outcome State Fault Refusal :=
  let l := (me s).regs.loop
  if l.active ∧ l.nest = n then .next { s with iss := { s.iss with loopTo := some l.endPc } } else trap s 0x07

/-! ### Waits -/

/-- R148: a WAIT that its bundle's issue did not hold back: the checks of its word, and the token it pops. -/
def waitOn (w : Nat) (s : State) : Host.Outcome State Fault Refusal :=
  if w % 16 ≠ 0 then trap s 0x04
  else if mySp s ≤ w then trapAddr s 0x0B 0 (spAddr (myCore s) w)
  else .next (updMe s fun c => popToken c (curSeq s) w)

/-- WAIT.g (R148): the generation has passed when the bundle issues. -/
def execWaitG (a _b : Nat) (sw : BitVec 17) (s : State) : Host.Outcome State Fault Refusal := waitOn (waitWord s a sw) s

/-- WAIT.t (R148): the token is there when the bundle issues. -/
def execWaitT (a : Nat) (sw : BitVec 17) (s : State) : Host.Outcome State Fault Refusal := waitOn (waitWord s a sw) s

/-- WAITR (R150): the entries named are ready when the bundle issues. -/
def execWaitr (_entries : BitVec 16) (s : State) : Host.Outcome State Fault Refusal := .next s

/-- WAITS (R151): no tile is busy when the bundle issues. -/
def execWaits (s : State) : Host.Outcome State Fault Refusal := .next s

/-! ### Regions, yields and task flow -/

/-- MARK (R152): the region is completed at the boundary after the bundle. -/
def execMark (s : State) : Host.Outcome State Fault Refusal := .next { s with iss := { s.iss with mark := true } }

/-- XABORT (R153): roll back, or be reclaimed; then the code to sD and the transfer. -/
def execXabort (d a : Nat) (imm : BitVec 32) (s : State) : Host.Outcome State Fault Refusal :=
  let t := readS s a
  if t.toNat % 64 ≠ 0 then trap s 0x05
  else
    let k := s.at_
    let due := (me s).reclaim && (me s).mark.regs.pin == 0
    let s := rollback { s with iss := { s.iss with cut := true, work := [], stores := [] } } k
    if due then
      .next (addReady (moveSelector (updCtx s k fun c => { c with st := .stopping, why := .reclaim }) (k / 4))
        ⟨.reclaimStop, subjOf k⟩)
    else
      .next (updCtx s k fun c =>
        let c := { c with regs := { c.regs with ep := 0, loop := { c.regs.loop with active := false } } }
        { boundaryS c d (immZ imm) with pc := t })

/-- TRAP (R154): the user trap, with the code and sA as its payload. -/
def execTrap (a : Nat) (imm : BitVec 32) (s : State) : Host.Outcome State Fault Refusal :=
  .next (takeTrap s s.at_ { trapOf s 0x10 with p0 := immZ imm, p1 := readS s a } (curSeq s))

/-- YIELD (R155): the yield check at the boundary after the bundle stops the context. -/
def execYield (s : State) : Host.Outcome State Fault Refusal := .next { s with iss := { s.iss with yield := true } }

/-- YCHK (R155): the yield check at the boundary after the bundle stops the context where a yield is requested. -/
def execYchk (s : State) : Host.Outcome State Fault Refusal := .next { s with iss := { s.iss with check := true } }

/-- DONE (R146, R156): the region is completed, and the phase ends. -/
def execDone (s : State) : Host.Outcome State Fault Refusal :=
  if (me s).regs.loop.active then trap s 0x07
  else .next { s with iss := { s.iss with done := true, mark := true } }

/-- ISYNC (R157): bundles fetched from now on come from memory as it stands. -/
def execIsync (s : State) : Host.Outcome State Fault Refusal := .next (updMe s fun c => { c with fetched := [], isync := some (s.mem, s.tlb) })

/-- NOP (R109). -/
def execNop (s : State) : Host.Outcome State Fault Refusal := .next s

/-- HINT (R109): executes as NOP. -/
def execHint (s : State) : Host.Outcome State Fault Refusal := .next s

end Sys2Proof.Machine
end

