-- ==== Sys2Proof/Machine/ScalarFloat.lean ====
section
/-!
DEFINITION. The scalar float instructions of the S0 and S1 slots (R166 to R169).
-/

namespace Sys2Proof.Machine

/-- R166: the format a suffix selects. -/
def ffFmt : FFmt → Fmt
  | .b64 => .b64
  | .b32 => .b32

/-- R65: exponent and fraction bits of a scalar float format. -/
def ffParts : FFmt → Nat × Nat
  | .b64 => (11, 52)
  | .b32 => (8, 23)

/-- R166: a scalar operand decoded in the format. -/
def floatOf (ff : FFmt) (x : Word) : Num := decodeNum (ffFmt ff) (x.toNat % 2 ^ fmtBits (ffFmt ff))

/-- R166: a result rounded to nearest in the format, zero-extended. -/
def floatBits (ff : FFmt) (x : Num) : Word := BitVec.ofNat 64 (encodeNum (ffFmt ff) false x)

/-- R166: a float result, with bound 4. -/
def writeFloat (s : State) (d : Nat) (ff : FFmt) (x : Num) : Host.Outcome State Fault Refusal :=
  .next (writeS s 4 d (floatBits ff x))

/-- R167: an operation on two operands. -/
def float2 (f : Num → Num → Num) (d a b : Nat) (ff : FFmt) (s : State) : Host.Outcome State Fault Refusal :=
  writeFloat s d ff (f (floatOf ff (readS s a)) (floatOf ff (readS s b)))

/-- R167: an operation on three operands, rounded once. -/
def float3 (f : Num → Num → Num → Num) (d a b c : Nat) (ff : FFmt) (s : State) : Host.Outcome State Fault Refusal :=
  writeFloat s d ff (f (floatOf ff (readS s a)) (floatOf ff (readS s b)) (floatOf ff (readS s c)))

/-- R167: an operation that changes the sign bit alone; a NaN gives the canonical NaN. -/
def floatSign (ff : FFmt) (neg : Bool) (x : Word) : Word :=
  let (eb, fb) := ffParts ff
  match floatOf ff x with
  | .nan => BitVec.ofNat 64 (ieeeNan eb fb)
  | _ => BitVec.ofNat 64 (withSign eb fb neg (x.toNat % 2 ^ (eb + fb)))

/-- The sign bit of an encoding in the format. -/
def signOf (ff : FFmt) (x : Word) : Bool := bitAt x.toNat ((ffParts ff).1 + (ffParts ff).2)

/-! ### Roots and reciprocals -/

/-- The integer square root of n below 2^k × 2^k, bit by bit from bit k − 1 down, added to r. -/
def isqrt (n r : Nat) : Nat → Nat
  | 0 => r
  | k + 1 => if (r + 2 ^ k) * (r + 2 ^ k) ≤ n then isqrt n (r + 2 ^ k) k else isqrt n r k

/-- A truncated magnitude with a last bit that says whether anything was cut off: it rounds as the exact value does. -/
def sticky (neg : Bool) (q : Nat) (exact : Bool) (e : Int) : Num := .fin neg (2 * q + (!exact).toNat) (e - 1)

/-- R167: √x, exact enough to round once. -/
def Num.sqrt : Num → Num
  | .nan => .nan
  | .inf a => if a then .nan else .inf false
  | .fin a m e =>
    if m = 0 then .fin a 0 0
    else if a then .nan
    else
      let k := 130 + ((e + 130) % 2).toNat
      let n := m * 2 ^ k
      let r := isqrt n 0 100
      sticky false r (r * r == n) ((e - k) / 2)

/-- R167: 1 / x, exact enough to round once. -/
def Num.rcp : Num → Num
  | .nan => .nan
  | .inf a => .fin a 0 0
  | .fin a m e =>
    if m = 0 then .inf a
    else
      let k := Nat.log2 m + 130
      sticky a (2 ^ k / m) (2 ^ k % m == 0) (-(k : Int) - e)

/-- R167: 1 / √x, exact enough to round once. -/
def Num.rsq : Num → Num
  | .nan => .nan
  | .inf a => if a then .nan else .fin false 0 0
  | .fin a m e =>
    if m = 0 then .inf a
    else if a then .nan
    else
      let j := Nat.log2 m + 140
      let k := j + ((e + j) % 2).toNat
      let r := isqrt (2 ^ k / m) 0 100
      sticky false r (r * r * m == 2 ^ k) ((-(k : Int) - e) / 2)

/-! ### Arithmetic -/

/-- FADD (R167). -/
def execFadd (d a b : Nat) (ff : FFmt) (s : State) : Host.Outcome State Fault Refusal := float2 Num.add d a b ff s

/-- FSUB (R167). -/
def execFsub (d a b : Nat) (ff : FFmt) (s : State) : Host.Outcome State Fault Refusal := float2 Num.sub d a b ff s

/-- FMUL (R167). -/
def execFmul (d a b : Nat) (ff : FFmt) (s : State) : Host.Outcome State Fault Refusal := float2 Num.mul d a b ff s

/-- FMIN (R167). -/
def execFmin (d a b : Nat) (ff : FFmt) (s : State) : Host.Outcome State Fault Refusal := float2 Num.min d a b ff s

/-- FMAX (R167). -/
def execFmax (d a b : Nat) (ff : FFmt) (s : State) : Host.Outcome State Fault Refusal := float2 Num.max d a b ff s

/-- FCPYS (R167). -/
def execFcpys (d a b : Nat) (ff : FFmt) (s : State) : Host.Outcome State Fault Refusal :=
  .next (writeS s 4 d (floatSign ff (signOf ff (readS s b)) (readS s a)))

/-- FMA (R167). -/
def execFma (d a b c : Nat) (ff : FFmt) (s : State) : Host.Outcome State Fault Refusal :=
  float3 (fun x y z => (x.mul y).add z) d a b c ff s

/-- FMS (R167). -/
def execFms (d a b c : Nat) (ff : FFmt) (s : State) : Host.Outcome State Fault Refusal :=
  float3 (fun x y z => (x.mul y).sub z) d a b c ff s

/-- FNMA (R167). -/
def execFnma (d a b c : Nat) (ff : FFmt) (s : State) : Host.Outcome State Fault Refusal :=
  float3 (fun x y z => (x.mul y).neg.add z) d a b c ff s

/-- FABS (R167). -/
def execFabs (d a : Nat) (ff : FFmt) (s : State) : Host.Outcome State Fault Refusal :=
  .next (writeS s 4 d (floatSign ff false (readS s a)))

/-- FNEG (R167). -/
def execFneg (d a : Nat) (ff : FFmt) (s : State) : Host.Outcome State Fault Refusal :=
  .next (writeS s 4 d (floatSign ff (!signOf ff (readS s a)) (readS s a)))

/-- FSQRT (R167). -/
def execFsqrt (d a : Nat) (ff : FFmt) (s : State) : Host.Outcome State Fault Refusal :=
  writeFloat s d ff (floatOf ff (readS s a)).sqrt

/-- FRCP (R167). -/
def execFrcp (d a : Nat) (ff : FFmt) (s : State) : Host.Outcome State Fault Refusal :=
  writeFloat s d ff (floatOf ff (readS s a)).rcp

/-- FRSQ (R167). -/
def execFrsq (d a : Nat) (ff : FFmt) (s : State) : Host.Outcome State Fault Refusal :=
  writeFloat s d ff (floatOf ff (readS s a)).rsq

/-! ### Inspection and conversion -/

/-- FCLASS (R168). -/
def execFclass (d a : Nat) (ff : FFmt) (s : State) : Host.Outcome State Fault Refusal :=
  .next (writeS s 4 d (BitVec.ofNat 64 (2 ^ classOf (ffParts ff).1 (ffParts ff).2 ((readS s a).toNat % 2 ^ fmtBits (ffFmt ff)))))

/-- FCMP (R168). -/
def execFcmp (d a b : Nat) (cc : FCond) (ff : FFmt) (s : State) : Host.Outcome State Fault Refusal :=
  .next (writeF s 4 d (fcondHolds cc (floatOf ff (readS s a)) (floatOf ff (readS s b))))

/-- R169: the register image of a converted element: integers and bx8 sign-extended, the others zero-extended. -/
def convertedWord (dst : Fmt) (x : Nat) : Word :=
  if isIntFmt dst || dst = .bx8 then sext (fmtBits dst) x else BitVec.ofNat 64 x

/-- FCVT (R169). -/
def execFcvt (d a : Nat) (dst src : Fmt) (s : State) : Host.Outcome State Fault Refusal :=
  .next (writeS s 4 d (convertedWord dst (convertNum src dst ((readS s a).toNat % 2 ^ fmtBits src))))

/-- FTOI (R169). -/
def execFtoi (d a : Nat) (u : Bool) (rm : RMode) (ff : FFmt) (s : State) : Host.Outcome State Fault Refusal :=
  let x := floatOf ff (readS s a)
  let i := if u then x.toInt rm 0 (2 ^ 64 - 1) else x.toInt rm (-(2 ^ 63)) (2 ^ 63 - 1)
  .next (writeS s 4 d (BitVec.ofNat 64 (ofSigned 64 i)))

/-- ITOF (R169). -/
def execItof (d a : Nat) (u : Bool) (ff : FFmt) (s : State) : Host.Outcome State Fault Refusal :=
  writeFloat s d ff (Num.ofInt (if u then ((readS s a).toNat : Int) else (readS s a).toInt))

/-- R169: a value rounded to an integral one, with the sign of a zero kept. -/
def Num.integral (rm : RMode) : Num → Num
  | .fin a m e => .fin a (roundInt rm a m e).natAbs 0
  | x => x

/-- FRND (R169). -/
def execFrnd (d a : Nat) (rm : RMode) (ff : FFmt) (s : State) : Host.Outcome State Fault Refusal :=
  writeFloat s d ff ((floatOf ff (readS s a)).integral rm)

end Sys2Proof.Machine
end

