-- ==== Sys2Proof/Machine/Vector.lean ====
section
/-!
DEFINITION. The integer, compare, mask, permute, lane-access and integer reduction instructions of the V slot (R171 to R177,
R180, R182 to R190, R194).
-/

namespace Sys2Proof.Machine

/-- R171, R172: an image whose elements in selected lanes are new, the others kept. -/
def mergeElems (w : Nat) (mask : Word) (old : VecImage) (f : Nat → Nat) : VecImage :=
  BitVec.ofNat 2048 (buildElems w (2048 / w) fun j => if mask.getLsbD (j * w / 32) then f j else elem old.toNat w j)

/-- R172: a mask written bit by bit, with unselected bits 0. -/
def mergeMask (mask : Word) (f : Nat → Bool) : Word :=
  BitVec.ofNat 64 (buildElems 1 64 fun i => (mask.getLsbD i && f i).toNat)

/-- R171: lane i of an image. -/
def lane (v : VecImage) (i : Nat) : Nat := elem v.toNat 32 i

/-- R172, R173: vD receives new elements of width w in the lanes mK selects, with bound L. -/
def putElems (s : State) (L d k w : Nat) (f : Nat → Nat) : Host.Outcome State Fault Refusal :=
  .next (writeV s L d (mergeElems w (readM s k) (readV s d) f))

/-- R175: an operation on the elements of two registers, with bound 2. -/
def vec2 (op : Nat → Nat → Nat → Nat) (d a b k : Nat) (w : ElemWidth) (s : State) : Host.Outcome State Fault Refusal :=
  let x := (readV s a).toNat
  let y := (readV s b).toNat
  putElems s 2 d k w.bits fun j => op w.bits (elem x w.bits j) (elem y w.bits j)

/-- R175, R176: an operation on the elements of one register, with bound 2. -/
def vec1 (op : Nat → Nat → Nat) (d a k : Nat) (w : ElemWidth) (s : State) : Host.Outcome State Fault Refusal :=
  let x := (readV s a).toNat
  putElems s 2 d k w.bits fun j => op w.bits (elem x w.bits j)

/-- R175: a signed result from signed elements. -/
def onSigned (f : Int → Int → Int) (w a b : Nat) : Nat := ofSigned w (f (toSigned w a) (toSigned w b))

/-- R175: the limits of a saturating operation. -/
def satElem (u : Bool) (w : Nat) (i : Int) : Nat :=
  ofSigned w (if u then satInt 0 (2 ^ w - 1) i else satInt (-(2 ^ (w - 1))) (2 ^ (w - 1) - 1) i)

/-- R175: an element as the integer the unsigned selector says. -/
def elemInt (u : Bool) (w x : Nat) : Int := if u then (x : Int) else toSigned w x

/-! ### Integer arithmetic -/

/-- VADD (R175). -/
def execVadd (d a b k : Nat) (w : ElemWidth) (s : State) : Host.Outcome State Fault Refusal :=
  vec2 (fun _ x y => x + y) d a b k w s

/-- VSUB (R175). -/
def execVsub (d a b k : Nat) (w : ElemWidth) (s : State) : Host.Outcome State Fault Refusal :=
  vec2 (fun w x y => x + 2 ^ w - y) d a b k w s

/-- VMUL (R175). -/
def execVmul (d a b k : Nat) (w : ElemWidth) (s : State) : Host.Outcome State Fault Refusal :=
  vec2 (fun _ x y => x * y) d a b k w s

/-- VMULH (R175). -/
def execVmulh (d a b k : Nat) (u : Bool) (w : ElemWidth) (s : State) : Host.Outcome State Fault Refusal :=
  vec2 (fun w x y => ofSigned (2 * w) (elemInt u w x * elemInt u w y) / 2 ^ w) d a b k w s

/-- VAND (R175). -/
def execVand (d a b k : Nat) (w : ElemWidth) (s : State) : Host.Outcome State Fault Refusal :=
  vec2 (fun _ x y => x &&& y) d a b k w s

/-- VOR (R175). -/
def execVor (d a b k : Nat) (w : ElemWidth) (s : State) : Host.Outcome State Fault Refusal :=
  vec2 (fun _ x y => x ||| y) d a b k w s

/-- VXOR (R175). -/
def execVxor (d a b k : Nat) (w : ElemWidth) (s : State) : Host.Outcome State Fault Refusal :=
  vec2 (fun _ x y => x ^^^ y) d a b k w s

/-- VSHL (R175). -/
def execVshl (d a b k : Nat) (w : ElemWidth) (s : State) : Host.Outcome State Fault Refusal :=
  vec2 (fun w x y => x * 2 ^ (y % w)) d a b k w s

/-- VSHR (R175). -/
def execVshr (d a b k : Nat) (w : ElemWidth) (s : State) : Host.Outcome State Fault Refusal :=
  vec2 (fun w x y => x / 2 ^ (y % w)) d a b k w s

/-- VSRA (R175). -/
def execVsra (d a b k : Nat) (w : ElemWidth) (s : State) : Host.Outcome State Fault Refusal :=
  vec2 (fun w x y => ofSigned w (toSigned w x / 2 ^ (y % w))) d a b k w s

/-- VMIN (R175). -/
def execVmin (d a b k : Nat) (w : ElemWidth) (s : State) : Host.Outcome State Fault Refusal :=
  vec2 (onSigned min) d a b k w s

/-- VMAX (R175). -/
def execVmax (d a b k : Nat) (w : ElemWidth) (s : State) : Host.Outcome State Fault Refusal :=
  vec2 (onSigned max) d a b k w s

/-- VMINU (R175). -/
def execVminu (d a b k : Nat) (w : ElemWidth) (s : State) : Host.Outcome State Fault Refusal :=
  vec2 (fun _ x y => min x y) d a b k w s

/-- VMAXU (R175). -/
def execVmaxu (d a b k : Nat) (w : ElemWidth) (s : State) : Host.Outcome State Fault Refusal :=
  vec2 (fun _ x y => max x y) d a b k w s

/-- VABS (R175). -/
def execVabs (d a k : Nat) (w : ElemWidth) (s : State) : Host.Outcome State Fault Refusal :=
  vec1 (fun w x => (toSigned w x).natAbs) d a k w s

/-- VADDS (R175). -/
def execVadds (d a b k : Nat) (u : Bool) (w : ElemWidth) (s : State) : Host.Outcome State Fault Refusal :=
  vec2 (fun w x y => satElem u w (elemInt u w x + elemInt u w y)) d a b k w s

/-- VSUBS (R175). -/
def execVsubs (d a b k : Nat) (u : Bool) (w : ElemWidth) (s : State) : Host.Outcome State Fault Refusal :=
  vec2 (fun w x y => satElem u w (elemInt u w x - elemInt u w y)) d a b k w s

/-- VADDI (R176). -/
def execVaddi (d a k : Nat) (w : ElemWidth) (imm : BitVec 32) (s : State) : Host.Outcome State Fault Refusal :=
  vec1 (fun _ x => x + imm.toNat) d a k w s

/-- VSHLI (R176). -/
def execVshli (d a k : Nat) (w : ElemWidth) (imm : BitVec 32) (s : State) : Host.Outcome State Fault Refusal :=
  vec1 (fun _ x => x * 2 ^ imm.toNat) d a k w s

/-- VSHRI (R176). -/
def execVshri (d a k : Nat) (w : ElemWidth) (imm : BitVec 32) (s : State) : Host.Outcome State Fault Refusal :=
  vec1 (fun _ x => x / 2 ^ imm.toNat) d a k w s

/-- VSRAI (R176). -/
def execVsrai (d a k : Nat) (w : ElemWidth) (imm : BitVec 32) (s : State) : Host.Outcome State Fault Refusal :=
  vec1 (fun w x => ofSigned w (toSigned w x / 2 ^ imm.toNat)) d a k w s

/-- VMOVI (R176). -/
def execVmovi (d k : Nat) (w : ElemWidth) (imm : BitVec 32) (s : State) : Host.Outcome State Fault Refusal :=
  putElems s 2 d k w.bits fun _ => imm.toNat

/-- VBCAST (R177). -/
def execVbcast (d a k : Nat) (w : ElemWidth) (s : State) : Host.Outcome State Fault Refusal :=
  let x := (readS s a).toNat
  putElems s 2 d k w.bits fun _ => x

/-! ### Compares, tests and masks -/

/-- VCMP (R180). -/
def execVcmp (d a b k : Nat) (cc : Cond) (s : State) : Host.Outcome State Fault Refusal :=
  let x := readV s a
  let y := readV s b
  .next (writeM s d (mergeMask (readM s k) fun i => condHolds cc 32 (lane x i) (lane y i)))

/-- R182: the lanes of a register that pass a test. -/
def nfLanes (t : NfTest) (mask : Word) (x : VecImage) : Word :=
  mergeMask mask fun i => nfHolds t (decodeNum .b32 (lane x i))

/-- VNF (R182). -/
def execVnf (d a k : Nat) (t : NfTest) (s : State) : Host.Outcome State Fault Refusal :=
  .next (writeM s d (nfLanes t (readM s k) (readV s a)))

/-- R183: the KV page VNFQ.q quarantines: its virtual and intermediate address and its header's place. -/
def kvPageAt (s : State) (p : Word) : Option (Nat × Nat × Nat) :=
  match rangeFind (mapped s) p.toNat with
  | none => none
  | some r =>
    let ia := rangeMap r p.toNat
    if !rangeGrants r .read then none
    else match windowOf (myCore s) ia with
      | .memory | .cxl =>
        match anyLeaf s (myLead s) (me s).asn (ia / 2 ^ 16 * 2 ^ 16) with
        | some (e, pa) => if bitAt e 7 then some (p.toNat, ia, pa) else none
        | none => none
      | _ => none

/-- R183, R320: the trap VNFQ raises for lanes m. -/
def nfTrap (s : State) (m p : Word) (q : Bool) : Trap :=
  let t := trapOf s 0x0F
  let put (r : Word × Word × Word × Word) : Trap := { t with p0 := r.1, p1 := r.2.1, p2 := r.2.2.1, p3 := r.2.2.2 }
  if q then
    match kvPageAt s p with
    | some (va, ia, pa) => { put (quarRecord s pa va (va % 2 ^ 16) 1 m.toNat) with quar := some (va, ia) }
    | none => put (bareRecord 1 m.toNat)
  else put (bareRecord 2 m.toNat)

/-- VNFQ (R183). -/
def execVnfq (d a b k : Nat) (q : Bool) (t : NfTest) (s : State) : Host.Outcome State Fault Refusal :=
  let m := nfLanes t (readM s k) (readV s a)
  if m = 0 then .next (writeM s d 0) else .next (takeTrap s s.at_ (nfTrap s m (readS s b) q) (curSeq s))

/-- R184: the second mask operand, complemented where the form says so. -/
def maskArg (inv : Bool) (m : Word) : Word := if inv then ~~~ m else m

/-- MAND (R184). -/
def execMand (d a b : Nat) (inv : Bool) (s : State) : Host.Outcome State Fault Refusal :=
  .next (writeM s d (readM s a &&& maskArg inv (readM s b)))

/-- MOR (R184). -/
def execMor (d a b : Nat) (inv : Bool) (s : State) : Host.Outcome State Fault Refusal :=
  .next (writeM s d (readM s a ||| maskArg inv (readM s b)))

/-- MXOR (R184). -/
def execMxor (d a b : Nat) (inv : Bool) (s : State) : Host.Outcome State Fault Refusal :=
  .next (writeM s d (readM s a ^^^ maskArg inv (readM s b)))

/-- MNOT (R184). -/
def execMnot (d a : Nat) (s : State) : Host.Outcome State Fault Refusal := .next (writeM s d (~~~ readM s a))

/-- MPOP (R185): scoreboarded. -/
def execMpop (d a k : Nat) (s : State) : Host.Outcome State Fault Refusal :=
  .next (boardS s d (BitVec.ofNat 64 (onesCount (readM s a &&& readM s k).toNat 64)))

/-- MANY (R185): scoreboarded. -/
def execMany (d a k : Nat) (all : Bool) (s : State) : Host.Outcome State Fault Refusal :=
  let m := readM s a &&& readM s k
  let r := if all then m == readM s k else m != 0
  .next (queueBoard s [{ dst := .f d, bits := r.toNat }])

/-! ### Permutes and lane access -/

/-- VPERM (R186). -/
def execVperm (d a b k : Nat) (s : State) : Host.Outcome State Fault Refusal :=
  let x := readV s a
  let y := readV s b
  putElems s 2 d k 32 fun i => if lane y i < 64 then lane x (lane y i) else 0

/-- R187: lane i of a fixed pattern. -/
def shufLane (p : Shuf) (x y : VecImage) (i : Nat) : Nat :=
  match p with
  | .ziplo => if i % 2 = 0 then lane x (i / 2) else lane y (i / 2)
  | .ziphi => if i % 2 = 0 then lane x (32 + i / 2) else lane y (32 + i / 2)
  | .even => if i < 32 then lane x (2 * i) else lane y (2 * (i - 32))
  | .odd => if i < 32 then lane x (2 * i + 1) else lane y (2 * (i - 32) + 1)
  | .rev => lane x (63 - i)

/-- VSHUF (R187). -/
def execVshuf (d a b k : Nat) (pat : Shuf) (s : State) : Host.Outcome State Fault Refusal :=
  let x := readV s a
  let y := readV s b
  putElems s 2 d k 32 (shufLane pat x y)

/-- VROT (R188). -/
def execVrot (d a b k : Nat) (z : Bool) (s : State) : Host.Outcome State Fault Refusal :=
  let x := readV s a
  let n := (readS s b).toNat
  putElems s 2 d k 32 fun i =>
    if z then (if i + n < 64 then lane x (i + n) else 0) else lane x ((i + n) % 64)

/-- VSEL (R189). -/
def execVsel (d a b c k : Nat) (s : State) : Host.Outcome State Fault Refusal :=
  let x := readV s a
  let y := readV s b
  let m := readM s c
  putElems s 2 d k 32 fun i => if m.getLsbD i then lane x i else lane y i

/-- VEXT (R190): scoreboarded. -/
def execVext (d a b : Nat) (sg : Bool) (s : State) : Host.Outcome State Fault Refusal :=
  let x := lane (readV s a) ((readS s b).toNat % 64)
  .next (boardS s d (if sg then sext 32 x else BitVec.ofNat 64 x))

/-- VINS (R190). -/
def execVins (d a b : Nat) (s : State) : Host.Outcome State Fault Refusal :=
  let x := (readS s a).toNat
  .next (writeV s 2 d (mergeElems 32 (BitVec.twoPow 64 ((readS s b).toNat % 64)) (readV s d) fun _ => x))

/-! ### Integer reductions -/

/-- R194: the selected elements, as integers. -/
def selectedInts (u : Bool) (w : Nat) (mask : Word) (x : VecImage) : List Int :=
  ((List.range (2048 / w)).filter fun j => mask.getLsbD (j * w / 32)).map fun j => elemInt u w (elem x.toNat w j)

/-- R194: an integer reduction: the selected elements folded from the value for none. -/
def reduceInt (f : Int → Int → Int) (none : Bool → Nat → Int) (d a k : Nat) (u : Bool) (w : ElemWidth) (s : State) :
    Host.Outcome State Fault Refusal :=
  .next (boardS s d (BitVec.ofNat 64 (ofSigned 64
    ((selectedInts u w.bits (readM s k) (readV s a)).foldl f (none u w.bits)))))

/-- The largest element of a type. -/
def topElem (u : Bool) (w : Nat) : Int := if u then 2 ^ w - 1 else 2 ^ (w - 1) - 1

/-- The smallest element of a type. -/
def bottomElem (u : Bool) (w : Nat) : Int := if u then 0 else -(2 ^ (w - 1))

/-- VRADD (R194). -/
def execVradd (d a k : Nat) (u : Bool) (w : ElemWidth) (s : State) : Host.Outcome State Fault Refusal :=
  reduceInt (· + ·) (fun _ _ => 0) d a k u w s

/-- VRMIN (R194). -/
def execVrmin (d a k : Nat) (u : Bool) (w : ElemWidth) (s : State) : Host.Outcome State Fault Refusal :=
  reduceInt min topElem d a k u w s

/-- VRMAX (R194). -/
def execVrmax (d a k : Nat) (u : Bool) (w : ElemWidth) (s : State) : Host.Outcome State Fault Refusal :=
  reduceInt max bottomElem d a k u w s

end Sys2Proof.Machine
end

