-- ==== Sys2Proof/Machine/VectorFloat.lean ====
section
/-!
DEFINITION. The float, float compare, conversion and float reduction instructions of the V slot (R178, R179, R181, R191 to R193,
R195, R196).
-/

namespace Sys2Proof.Machine

/-- R71: lane i as a binary32 value. -/
def laneNum (v : VecImage) (i : Nat) : Num := decodeNum .b32 (lane v i)

/-- R178: a value as a binary32 encoding, rounded to nearest. -/
def b32Of (x : Num) : Nat := encodeNum .b32 false x

/-- R178: an operation on two binary32 registers, with bound 5. -/
def vfloat2 (f : Num → Num → Num) (d a b k : Nat) (s : State) : Host.Outcome State Fault Refusal :=
  let x := readV s a
  let y := readV s b
  putElems s 5 d k 32 fun i => b32Of (f (laneNum x i) (laneNum y i))

/-- R178: an operation on one binary32 register, with bound 5. -/
def vfloat1 (f : Num → Num) (d a k : Nat) (s : State) : Host.Outcome State Fault Refusal :=
  let x := readV s a
  putElems s 5 d k 32 fun i => b32Of (f (laneNum x i))

/-! ### 2^a -/

/-- Fixed point with 128 fraction bits: the factors 2^(2^−i) of 2^f for the bits of f = frac / 2^n, most significant first; r is
the last factor and acc the product so far. -/
def expFrac (frac : Nat) : Nat → Nat → Nat → Nat
  | 0, _, acc => acc
  | n + 1, r, acc =>
    let r := isqrt (r * 2 ^ 128) 0 130
    expFrac frac n r (if bitAt frac n then acc * r / 2 ^ 128 else acc)

/-- R178, R179: 2^x for a binary32 value x, exact enough to round once; a power that is not exact is never a tie. -/
def Num.exp2 : Num → Num
  | .nan => .nan
  | .inf a => if a then .fin false 0 0 else .inf false
  | .fin a m e =>
    if m = 0 then .fin false 1 0
    else
      let i := roundInt .dn a m e
      if 200 < i then .inf false
      else if i < -300 then .fin false 1 (-300)
      else if 0 ≤ e then .fin false 1 i
      else if (Nat.log2 m : Int) + e < -26 then .fin false 1 0
      else
        let n := (-e).toNat
        let frac := ((signedInt a m) % 2 ^ n).toNat
        if frac = 0 then .fin false 1 i else sticky false (expFrac frac n (2 * 2 ^ 128) (2 ^ 128)) false (i - 128)

/-! ### Arithmetic -/

/-- VFADD (R178). -/
def execVfadd (d a b k : Nat) (s : State) : Host.Outcome State Fault Refusal := vfloat2 Num.add d a b k s

/-- VFSUB (R178). -/
def execVfsub (d a b k : Nat) (s : State) : Host.Outcome State Fault Refusal := vfloat2 Num.sub d a b k s

/-- VFMUL (R178). -/
def execVfmul (d a b k : Nat) (s : State) : Host.Outcome State Fault Refusal := vfloat2 Num.mul d a b k s

/-- VFMIN (R178). -/
def execVfmin (d a b k : Nat) (s : State) : Host.Outcome State Fault Refusal := vfloat2 Num.min d a b k s

/-- VFMAX (R178). -/
def execVfmax (d a b k : Nat) (s : State) : Host.Outcome State Fault Refusal := vfloat2 Num.max d a b k s

/-- R178: an operation on three binary32 registers, rounded once, with bound 5. -/
def vfloat3 (f : Num → Num → Num → Num) (d a b c k : Nat) (s : State) : Host.Outcome State Fault Refusal :=
  let x := readV s a
  let y := readV s b
  let z := readV s c
  putElems s 5 d k 32 fun i => b32Of (f (laneNum x i) (laneNum y i) (laneNum z i))

/-- VFMA (R178). -/
def execVfma (d a b c k : Nat) (s : State) : Host.Outcome State Fault Refusal :=
  vfloat3 (fun x y z => (x.mul y).add z) d a b c k s

/-- VFMS (R178). -/
def execVfms (d a b c k : Nat) (s : State) : Host.Outcome State Fault Refusal :=
  vfloat3 (fun x y z => (x.mul y).sub z) d a b c k s

/-- VFABS (R178, R179). -/
def execVfabs (d a k : Nat) (s : State) : Host.Outcome State Fault Refusal := vfloat1 Num.abs d a k s

/-- VFNEG (R178, R179). -/
def execVfneg (d a k : Nat) (s : State) : Host.Outcome State Fault Refusal := vfloat1 Num.neg d a k s

/-- VFRCP (R178, R179). -/
def execVfrcp (d a k : Nat) (s : State) : Host.Outcome State Fault Refusal := vfloat1 Num.rcp d a k s

/-- VFRSQ (R178, R179). -/
def execVfrsq (d a k : Nat) (s : State) : Host.Outcome State Fault Refusal := vfloat1 Num.rsq d a k s

/-- VFEXP (R178, R179). -/
def execVfexp (d a k : Nat) (s : State) : Host.Outcome State Fault Refusal := vfloat1 Num.exp2 d a k s

/-- VFCMP (R181). -/
def execVfcmp (d a b k : Nat) (cc : FCond) (s : State) : Host.Outcome State Fault Refusal :=
  let x := readV s a
  let y := readV s b
  .next (writeM s d (mergeMask (readM s k) fun i => fcondHolds cc (laneNum x i) (laneNum y i)))

/-! ### Conversions -/

/-- R191: a converted element placed in its lane. -/
def laneFill (dst : Fmt) (x : Nat) : Nat :=
  if isIntFmt dst then ofSigned 32 (toSigned (fmtBits dst) x) else x

/-- VCVT (R191): bound 4. -/
def execVcvt (d a k : Nat) (dst src : Fmt) (s : State) : Host.Outcome State Fault Refusal :=
  let x := readV s a
  putElems s 4 d k 32 fun i => laneFill dst (convertNum src dst (lane x i % 2 ^ fmtBits src))

/-- R192: the image with its 64 lanes converted into one part. -/
def packImage (f : Fmt) (part : Nat) (mask : Word) (old : VecImage) (e : Nat → Nat) : Nat :=
  if f = .t6 then
    buildElems 24 86 fun g =>
      let i := 4 * g - 64 * part
      if 64 * part ≤ 4 * g ∧ 4 * g < 64 * part + 64 ∧ (fld mask.toNat (i + 3) i) ≠ 0 then
        packElems 6 ((List.range 4).map fun j => if mask.getLsbD (i + j) then e (i + j) else 0)
      else elem old.toNat 24 g
  else
    buildElems (fmtBits f) (2048 / fmtBits f) fun n =>
      if 64 * part ≤ n ∧ n < 64 * part + 64 ∧ mask.getLsbD (n - 64 * part) then e (n - 64 * part)
      else elem old.toNat (fmtBits f) n

/-- VPACK (R192): bound 4. -/
def execVpack (d a k : Nat) (s32 : Bool) (part : Nat) (dst : Fmt) (s : State) : Host.Outcome State Fault Refusal :=
  let x := readV s a
  .next (writeV s 4 d (BitVec.ofNat 2048 (packImage dst part (readM s k) (readV s d) fun i =>
    convertNum (if s32 then .i32 else .b32) dst (lane x i))))

/-- R193: an element as VUNPK puts it into a lane. -/
def unpackElem (f : Fmt) (x : Nat) : Nat :=
  if isIntFmt f || f = .bx8 then ofSigned 32 (toSigned (fmtBits f) x) else b32Of (decodeNum f x)

/-- VUNPK (R193): bound 4. -/
def execVunpk (d a k part : Nat) (src : Fmt) (s : State) : Host.Outcome State Fault Refusal :=
  let bs := toBytes 256 (readV s a).toNat
  putElems s 4 d k 32 fun i => unpackElem src (arrayElem src bs (64 * part + i))

/-! ### Reductions -/

/-- R195: the lane effect of VFADD on encodings. -/
def add32 (x y : Nat) : Nat := addNum .b32 x y

/-- R195: one level of the pairwise tree. -/
def pairSum : List Nat → List Nat
  | x :: y :: r => add32 x y :: pairSum r
  | r => r

/-- R195: the pairwise tree over n levels. -/
def treeSum : Nat → List Nat → Nat
  | 0, xs => xs.getD 0 0
  | n + 1, xs => treeSum n (pairSum xs)

/-- R195: negative zero in binary32. -/
def negZero : Nat := 2 ^ 31

/-- VRFADD (R195). -/
def execVrfadd (d a k : Nat) (seq : Bool) (s : State) : Host.Outcome State Fault Refusal :=
  let x := readV s a
  let m := readM s k
  let t := (List.range 64).map fun i => if m.getLsbD i then lane x i else negZero
  .next (boardS s d (BitVec.ofNat 64 (if seq then t.foldl add32 negZero else treeSum 6 t)))

/-- R196: the selected lanes folded by min or max, from the value for none. -/
def reduceFloat (f : Num → Num → Num) (none : Num) (d a k : Nat) (s : State) : Host.Outcome State Fault Refusal :=
  let x := readV s a
  .next (boardS s d (BitVec.ofNat 64 (b32Of (((lanesOf (readM s k)).map (laneNum x)).foldl f none))))

/-- VRFMIN (R196). -/
def execVrfmin (d a k : Nat) (s : State) : Host.Outcome State Fault Refusal := reduceFloat Num.min (.inf false) d a k s

/-- VRFMAX (R196). -/
def execVrfmax (d a k : Nat) (s : State) : Host.Outcome State Fault Refusal := reduceFloat Num.max (.inf true) d a k s

end Sys2Proof.Machine
end

