-- ==== Sys2Proof/Machine/Load.lean ====
section
/-!
DEFINITION. The checks of an L-slot access (R216), loads of scalars, vectors and tiles (R217 to R222), the tier-tolerant loads
(R228) and XLAT (R229, R230).
-/

namespace Sys2Proof.Machine

/-! ### Checks -/

/-- R216: what the check of an access answers: where its lowest address lies, or a trap with the addresses it names. -/
inductive SpanCheck where
  | ok (lo ia : Nat)
  | trap (code va ia : Nat)
deriving DecidableEq, Repr

/-- The intermediate address of an address of a checked access. -/
def SpanCheck.at (lo ia a : Nat) : Nat := ia + (a - lo)

/-- R59: the acting context may reach a byte of a window; mcast says that the instruction is MCAST. -/
def mayReach (s : State) (mcast : Bool) (ia : Nat) : Bool :=
  let w := windowOf (myCore s) ia
  windowOk s (quarterOf (myCore s)) (me s).pl w &&
  (match w with | .mcast .. => mcast | _ => !mcast)

/-- The first and last addresses of spans: no span is longer than a window or the gap between two windows. -/
def spanEnds (spans : List (Nat × Nat)) : List Nat := spans.flatMap fun (a, n) => [a, a + (n - 1)]

/-- R216: check the bytes an access touches: as scratchpad offsets (w), or through one range register that grants it. -/
def checkSpans (s : State) (w mcast : Bool) (perm : Perm) (spans : List (Nat × Nat)) : SpanCheck :=
  match spans with
  | [] => .ok 0 0
  | (a, _) :: _ =>
    if w then
      match spans.find? (fun p => decide (mySp s < p.1 + p.2)) with
      | some p => .trap 0x0B 0 (spAddr (myCore s) p.1)
      | none => .ok 0 0
    else
      let lo := spans.foldl (fun m p => min m p.1) a
      let hi := spans.foldl (fun m p => max m (p.1 + p.2)) 0
      match rangeCheck (mapped s) lo (hi - lo) perm with
      | .trap code va ia => .trap code va ia
      | .ok ia =>
        match (spanEnds spans).find? (fun b => !mayReach s mcast (ia + (b - lo))) with
        | some b => .trap 0x0B b (ia + (b - lo))
        | none => .ok lo ia

/-- A byte lies in the acting core's scratchpad: its offset. -/
def ownOffset (s : State) (ia : Nat) : Option Nat :=
  match windowOf (myCore s) ia with
  | .scratch n off => if n = myCore s then some off else none
  | _ => none

/-! ### Loads -/

/-- A byte of loaded bytes, by place; d where it was not loaded. -/
def byteFrom (bs : List (Nat × Byte)) (d : Nat) (i : Nat) : Nat :=
  match bs.find? (fun p => p.1 == i) with
  | some (_, b) => b.toNat
  | none => d

/-- R217 to R222: the bits of a destination from its loaded bytes. -/
def shapeBits (sh : LoadShape) (bs : List (Nat × Byte)) : Nat :=
  match sh with
  | .scalar sz => (extendSize sz (buildElems 8 (sizeBytes sz) (byteFrom bs 0))).toNat
  | .lanes old => buildElems 8 256 fun i => byteFrom bs (elem old.toNat 8 i) i
  | .bcast sz old sel =>
    let x := (extendSize sz (buildElems 8 (sizeBytes sz) (byteFrom bs 0))).toNat % 2 ^ 32
    (mergeElems 32 sel old fun _ => x).toNat
  | .tile => ofBytes (bs.map Prod.snd)

/-- R83, R89: a byte of the acting core's scratchpad as a load reads it: an older multicast of the context's own that has still to reach it comes
first. -/
def ownByte (s : State) (ia off : Nat) : Byte := (gateByte s ia).getD (mget s (spAddr (myCore s) off))

/-- A load of bytes (place in the result, address) into a register, after its check; L bounds a load from the own scratchpad
with W = 1, fixed where the result is not scoreboarded (R217). -/
def loadInto (s : State) (d : Reg) (w : Bool) (sh : LoadShape) (lo ia : Nat) (bs : List (Nat × Nat)) : State :=
  let at_ := bs.map fun (p, a) => (p, ia + (a - lo))
  if at_.all fun (_, a) => (ownOffset s a).isSome then
    let got := at_.map fun (p, a) => (p, ownByte s a ((ownOffset s a).getD 0))
    let r : List RegWrite := [{ dst := d, bits := shapeBits sh got }]
    match d with
    | .v _ => if w then queueFixed s 6 r else queueBoard s r
    | .s _ => if w then queue s [d] (.bits r) false 6 else queueBoard s r
    | _ => queueBoard s r
  else
    queue s [d] (.load d sh (BitVec.ofNat 64 lo) (at_.map fun (p, a) => ⟨p, a, gateByte s a⟩)) false 0

/-- R216, R217: a load: check, then fetch. -/
def load (s : State) (d : Reg) (w : Bool) (sh : LoadShape) (spans : List (Nat × Nat)) (bs : List (Nat × Nat)) :
    Host.Outcome State Fault Refusal :=
  match checkSpans s w false .read spans with
  | .trap code va ia => trapAddr s code va ia
  | .ok lo ia => .next (loadInto s d w sh lo ia bs)

/-- The bytes of an element at an address, in places from p on. -/
def elemBytes (p a n : Nat) : List (Nat × Nat) := (List.range n).map fun i => (p + i, a + i)

/-- R219: a scalar load. -/
def loadScalar (s : State) (d : Nat) (w : Bool) (sz : MSize) (ea : Word) : Host.Outcome State Fault Refusal :=
  load s (.s d) w (.scalar sz) [(ea.toNat, sizeBytes sz)] (elemBytes 0 ea.toNat (sizeBytes sz))

/-- R220: a load of selected lanes, each from its own address. -/
def loadLanes (s : State) (d k : Nat) (w : Bool) (addr : Nat → Nat) : Host.Outcome State Fault Refusal :=
  let ls := lanesOf (readM s k)
  load s (.v d) w (.lanes (readV s d)) (ls.map fun i => (addr i, 4)) (ls.flatMap fun i => elemBytes (4 * i) (addr i) 4)

/-- R220: the address of lane i of a contiguous access. -/
def laneFlat (ea : Word) (i : Nat) : Nat := (ea + BitVec.ofNat 64 (4 * i)).toNat

/-- LD (R219). -/
def execLd (t a : Nat) (sz : MSize) (w : Bool) (off : BitVec 27) (s : State) : Host.Outcome State Fault Refusal :=
  loadScalar s t w sz (eaOff s a off)

/-- LDX (R219). -/
def execLdx (d a b : Nat) (w : Bool) (sz : MSize) (s : State) : Host.Outcome State Fault Refusal :=
  loadScalar s d w sz (eaIndex s a b (sizeBytes sz))

/-- VLD (R220). -/
def execVld (t a k : Nat) (w : Bool) (off : BitVec 27) (s : State) : Host.Outcome State Fault Refusal :=
  loadLanes s t k w (laneFlat (eaOff s a off))

/-- VLDS (R220). -/
def execVlds (d a b k : Nat) (w : Bool) (s : State) : Host.Outcome State Fault Refusal :=
  loadLanes s d k w (laneStride (readS s a) (readS s b))

/-- VGTH (R220). -/
def execVgth (d a b k : Nat) (w : Bool) (sh : Nat) (s : State) : Host.Outcome State Fault Refusal :=
  loadLanes s d k w (laneIndex (readS s a) (readV s b) sh)

/-- VLDB (R220): one element for every selected lane. -/
def execVldb (t a k : Nat) (sz : MSize) (w : Bool) (off : BitVec 27) (s : State) : Host.Outcome State Fault Refusal :=
  let ea := (eaOff s a off).toNat
  let m := readM s k
  if m = 0 then .next (loadInto s (.v t) w (.lanes (readV s t)) 0 0 [])
  else load s (.v t) w (.bcast sz (readV s t) m) [(ea, sizeBytes sz)] (elemBytes 0 ea (sizeBytes sz))

/-! ### Tiles -/

/-- R117, R403: the image of a tile goes to its shadow before the region's first write of it, and to what is buffered of its own bundle. -/
def shadowTile (s : State) (n : Nat) : State :=
  updMe s fun c => updRegion (keepOlds c (curSeq s) (.q n)) (curSeq s) fun r =>
    if r.shadow.any (fun e => e.1 == n) then r else { r with shadow := sins r.shadow n (sget 0 c.q n) }

/-- R403: the shadows of a tile, or of a pair. -/
def shadowPair (s : State) (n : Nat) (p : Bool) : State := if p then shadowTile (shadowTile s n) (n + 1) else shadowTile s n

/-- QLD (R222): a tile image, or the two of a pair. -/
def execQld (t a : Nat) (p w : Bool) (off : BitVec 27) (s : State) : Host.Outcome State Fault Refusal :=
  let ea := (eaOff s a off).toNat
  if ea % 16 ≠ 0 then trap s 0x04
  else match checkSpans s w false .read [(ea, if p then 8192 else 4096)] with
    | .trap code va ia => trapAddr s code va ia
    | .ok lo ia =>
      let s := shadowPair s t p
      let s := loadInto s (.q t) w .tile lo ia (elemBytes 0 ea 4096)
      .next (if p then loadInto s (.q (t + 1)) w .tile lo ia (elemBytes 0 (ea + 4096) 4096) else s)

/-! ### Tier-tolerant loads and XLAT -/

/-- R228: a tier-tolerant load: its pages are looked at when it lands. -/
def tolerantLoad (s : State) (d : Reg) (f : Nat) (sh : LoadShape) (spans : List (Nat × Nat)) (bs : List (Nat × Nat)) :
    Host.Outcome State Fault Refusal :=
  match checkSpans s false false .read spans with
  | .trap code va ia => trapAddr s code va ia
  | .ok lo ia =>
    let at_ : List LoadByte := bs.map fun (p, a) => ⟨p, ia + (a - lo), gateByte s (ia + (a - lo))⟩
    .next (queue s [d, .f f] (.tolerant d f sh (BitVec.ofNat 64 lo) at_) false 0)

/-- LDT (R228). -/
def execLdt (t a : Nat) (sz : MSize) (f : Nat) (off : BitVec 27) (s : State) : Host.Outcome State Fault Refusal :=
  let ea := (eaOff s a off).toNat
  tolerantLoad s (.s t) f (.scalar sz) [(ea, sizeBytes sz)] (elemBytes 0 ea (sizeBytes sz))

/-- VLDT (R228). -/
def execVldt (t a k f : Nat) (off : BitVec 27) (s : State) : Host.Outcome State Fault Refusal :=
  let ls := lanesOf (readM s k)
  let ad := laneFlat (eaOff s a off)
  tolerantLoad s (.v t) f (.lanes (readV s t)) (ls.map fun i => (ad i, 4)) (ls.flatMap fun i => elemBytes (4 * i) (ad i) 4)

/-- R229: the fields of XLAT's result. -/
def xlatWord (st : Nat) (rd wr ms rng spw win cw : Bool) (ia : Nat) : Word :=
  BitVec.ofNat 64 (st + rd.toNat * 4 + wr.toNat * 8 + ms.toNat * 16 + rng.toNat * 32 + spw.toNat * 64 + win.toNat * 128
    + cw.toNat * 256 + ia / 2 ^ 16 * 2 ^ 16)

/-- R113, R230: a result of XLAT that needs no page lands when it is ready, within 640 cycles. -/
def boardSoon (s : State) (d : Nat) (v : Word) : State :=
  addTimer (boardS s d v) (s.cyc + 640) ⟨.scoreboardLand, { subjOf s.at_ with id := s.nextId }⟩

/-- XLAT (R229, R230): an answer that needs no page lands as a scoreboarded result; a look-up lands later, with ST = 3 once 640
cycles have gone by. -/
def execXlat (t a : Nat) (pi : Bool) (off : BitVec 27) (s : State) : Host.Outcome State Fault Refusal :=
  let va := eaOff s a off
  match rangeFind (mapped s) va.toNat with
  | none => .next (boardSoon s t (xlatWord 2 false false false true false false false 0))
  | some r =>
    let ia := rangeMap r va.toNat
    let rd := rangeGrants r .read
    let wr := rangeGrants r .write
    let win := windowOf (myCore s) ia
    if !windowOk s (quarterOf (myCore s)) (me s).pl win then
      .next (boardSoon s t (xlatWord 2 rd wr false false false true false ia))
    else match win with
      | .memory | .cxl =>
        let id := s.nextId
        let s := queue s [.s t] (.xlat (.s t) va ia rd wr pi) false 0
        .next (addTimer s (s.cyc + 640) ⟨.xlatTimeout, { subjOf s.at_ with id }⟩)
      | .ctl .. | .slice .. | .notify .. => .next (boardSoon s t (xlatWord 0 rd wr false false false false true ia))
      | _ => .next (boardSoon s t (xlatWord 0 rd wr false false true false false ia))

end Sys2Proof.Machine
end

