-- ==== Sys2Proof/Machine/Store.lean ====
section
/-!
DEFINITION. Stores of scalars, vectors and tiles (R219 to R222), MCAST (R232), the bank format (R52, R234), prefetches (R233), and
DRAIN (R91, R231).
-/

namespace Sys2Proof.Machine

/-- R87, R89, R216, R217: a store of bytes (address, value), later ones later in coherence order. -/
def storeOut (s : State) (lo ia : Nat) (bs : List (Nat × Byte)) : State :=
  let out := bs.map fun (a, b) => (ia + (a - lo), b)
  let own := out.filterMap fun (a, b) => (ownOffset s a).map fun o => (o, b)
  let far := out.filter fun (a, _) => (ownOffset s a).isNone
  let s := { s with iss := { s.iss with stores := s.iss.stores ++ own } }
  if far.isEmpty then s else gateStore s lo far

/-- R216: a store: check, then write. -/
def store (s : State) (w : Bool) (spans : List (Nat × Nat)) (bs : List (Nat × Byte)) : Host.Outcome State Fault Refusal :=
  match checkSpans s w false .write spans with
  | .trap code va ia => trapAddr s code va ia
  | .ok lo ia => .next (storeOut s lo ia bs)

/-- The bytes of a value from an address on. -/
def valueBytes (a n x : Nat) : List (Nat × Byte) := ((List.range n).map (a + ·)).zip (toBytes n x)

/-- R219: a scalar store of 2^sz bytes. -/
def storeScalar (s : State) (w : Bool) (sz : Nat) (ea v : Word) : Host.Outcome State Fault Refusal :=
  store s w [(ea.toNat, 2 ^ sz)] (valueBytes ea.toNat (2 ^ sz) v.toNat)

/-- R220: a store of selected lanes, each to its own address. -/
def storeLanes (s : State) (d k : Nat) (w : Bool) (addr : Nat → Nat) : Host.Outcome State Fault Refusal :=
  let ls := lanesOf (readM s k)
  let v := readV s d
  store s w (ls.map fun i => (addr i, 4)) (ls.flatMap fun i => valueBytes (addr i) 4 (lane v i))

/-- ST (R219). -/
def execSt (t a sz : Nat) (w : Bool) (off : BitVec 27) (s : State) : Host.Outcome State Fault Refusal :=
  storeScalar s w sz (eaOff s a off) (readS s t)

/-- STX (R219). -/
def execStx (d a b : Nat) (w : Bool) (sz : Nat) (s : State) : Host.Outcome State Fault Refusal :=
  storeScalar s w sz (eaIndex s a b (2 ^ sz)) (readS s d)

/-- STI (R219). -/
def execSti (d a : Nat) (w : Bool) (sz : Nat) (imm : BitVec 32) (s : State) : Host.Outcome State Fault Refusal :=
  storeScalar s w sz (readS s a + BitVec.ofNat 64 (d * 2 ^ sz)) (immS imm)

/-- VST (R220). -/
def execVst (t a k : Nat) (w : Bool) (off : BitVec 27) (s : State) : Host.Outcome State Fault Refusal :=
  storeLanes s t k w (laneFlat (eaOff s a off))

/-- VSTS (R220). -/
def execVsts (d a b k : Nat) (w : Bool) (s : State) : Host.Outcome State Fault Refusal :=
  storeLanes s d k w (laneStride (readS s a) (readS s b))

/-- VSCT (R220). -/
def execVsct (d a b k : Nat) (w : Bool) (sh : Nat) (s : State) : Host.Outcome State Fault Refusal :=
  storeLanes s d k w (laneIndex (readS s a) (readV s b) sh)

/-- QST (R222): a tile image, or the two of a pair. -/
def execQst (t a : Nat) (p w : Bool) (off : BitVec 27) (s : State) : Host.Outcome State Fault Refusal :=
  let ea := (eaOff s a off).toNat
  if ea % 16 ≠ 0 then trap s 0x04
  else
    let bs := valueBytes ea 4096 (readQ s t).toNat ++ (if p then valueBytes (ea + 4096) 4096 (readQ s (t + 1)).toNat else [])
    store s w [(ea, if p then 8192 else 4096)] bs

/-- R232: the multicast window a store lies in, with every core's SPSIZE above its last byte. -/
def mcastRoom (s : State) (ia : Nat) : Bool :=
  match windowOf (myCore s) ia with
  | .mcast c off => (List.range 8).all fun i => decide (off + 255 < spSize s (8 * c + i))
  | _ => false

/-- MCAST (R232). DESIGN CHOICE (log 26): with no lane selected, one byte at the effective address is checked as though it were written: R232 names
the checks, and R216 speaks of the bytes of selected lanes only. -/
def execMcast (t a k : Nat) (off : BitVec 27) (s : State) : Host.Outcome State Fault Refusal :=
  let ea := (eaOff s a off).toNat
  let ls := lanesOf (readM s k)
  let v := readV s t
  let spans := if ls.isEmpty then [(ea, 1)] else ls.map fun i => (ea + 4 * i, 4)
  match checkSpans s false true .write spans with
  | .trap code va ia => trapAddr s code va ia
  | .ok lo ia =>
    if mcastRoom s (ia - (lo - ea)) then
      .next (gateStore s lo ((ls.flatMap fun i => valueBytes (ea + 4 * i) 4 (lane v i)).map fun (x, b) => (ia + (x - lo), b)))
    else trapAddr s 0x0B ea (ia - (lo - ea))

/-! ### The bank format -/

/-- BFMT (R52, R234): the write is journalled, and later operations use the new format from the next cycle on; the bank is an exact sum
(R8). -/
def execBfmt (a : Nat) (code : BitVec 4) (imm : BitVec 32) (s : State) : Host.Outcome State Fault Refusal :=
  let b := (readS s a).toNat + imm.toNat
  let u := coreAt s (myCore s)
  if spBanks u.vreg u.tile ≤ b ∨ 0xB < code.toNat then trap s 0x04
  else
    let old := bankCode s (myCore s) b
    let s := updMe s fun c => updRegion c (curSeq s) fun r =>
      if r.journal.any (fun j => match j with | .bank n _ => n == b | _ => false) then r
      else { r with journal := r.journal ++ [.bank b old] }
    let s := updCore s (myCore s) fun u =>
      { u with fmtPend := u.fmtPend ++ [{ bank := b, code := code.toNat, ctx := s.at_ % 4, exec := s.cyc }] }
    .next (addTimer s (s.cyc + 1) ⟨.bankFormatTakesEffect, subjOf s.at_⟩)

/-! ### Prefetch and drain -/

/-- R233: bytes of a prefetch span, by its code. -/
def prefSpan (span : Nat) : Nat := [0x40, 0x100, 0x1000, 0x10000].getD span 0x40

/-- R233: a leaf whose lines a prefetch brings: of a page that is resident, and for ownership one that is written without a service. -/
def prefLeaf (write : Bool) (leaf : Nat) : Bool := !leafAway leaf && (!write || bitAt leaf 2)

/-- R233: a line of a prefetch is asked of its home slice, and the L1 takes it where it does not have to wait. -/
def prefetchLine (l1 write : Bool) (leaf : Nat) (s : State) (ia : Nat) : State :=
  match askLines s.at_ none l1 false [ia] s with
  | (s, true) => s
  | (s, false) => if l1 then l1Take s (myCore s) leaf ia write false else s

/-- R233: the L1 takes the lines of a span of the two short sizes; every other prefetch goes to a slice, and one that meets a fault or a
page that is away is dropped. -/
def prefetch (a span lvl : Nat) (off : BitVec 27) (write : Bool) (s : State) : State :=
  let n := prefSpan span
  let va := (eaOff s a off).toNat / n * n
  match rangeCheck (mapped s) va n (if write then .write else .read) with
  | .trap .. => s
  | .ok ia =>
    match windowOf (myCore s) ia, lookLeaf s (myLead s) (me s).asn ia with
    | .memory, some leaf | .cxl, some leaf =>
      if prefLeaf write leaf then (linesOf ia n).foldl (prefetchLine (lvl = 0 ∧ span < 2) write leaf) s else s
    | _, _ => s

/-- R233: the prefetch of the executing operation, whose operand field the decoder keeps with it. -/
def prefetchHere (write : Bool) (s : State) : State :=
  match s.iss.cur.bind fun w => prefOperands w.op.bits with
  | some (a, span, lvl, off) => prefetch a span lvl off write s
  | none => s

/-- PREF (R233): no architectural state changes but the L1's lines. -/
def execPref (s : State) : Host.Outcome State Fault Refusal := .next (prefetchHere false s)

/-- PREFW (R233): asks for ownership of the lines; no copy-on-write sharing is broken and no dirty bit set. -/
def execPrefw (s : State) : Host.Outcome State Fault Refusal := .next (prefetchHere true s)

/-- R85: a scope code that is reserved: the instruction traps as an illegal operand, before any other check. -/
def reservedScope (sc : Scope) : Bool := sc == .res6 || sc == .res7

/-- DRAIN (R91, R231): later bundles that access memory wait until what is open has performed. -/
def execDrain (sc : Scope) (s : State) : Host.Outcome State Fault Refusal :=
  if reservedScope sc then trap s 0x04
  else if sc = .ctx then .next s else .next (updMe s fun c => { c with drains := c.drains ++ (openOps s s.at_).map fun id => (curSeq s, id) })

end Sys2Proof.Machine
end

