-- ==== Sys2Proof/Machine/Atomic.lean ====
section
/-!
DEFINITION. The atomics AMO, CAS, VAMO and ALD (R92, R223 to R227).  One in the issuing core's scratchpad performs as it executes; one
beyond the core is a result in flight that performs, element by element, when it lands.
-/

namespace Sys2Proof.Machine

/-- R224: the new value of n bytes. -/
def atomValue (op : AtomOp) (n old b : Nat) : Nat :=
  let w := 8 * n
  let f : Fmt := if n = 4 then .b32 else .b64
  let flt (g : Num → Num → Num) : Nat := encodeNum f false (g (decodeNum f old) (decodeNum f b))
  match op with
  | .swap => b
  | .add => (old + b) % 2 ^ w
  | .and => old &&& b
  | .or => old ||| b
  | .xor => old ^^^ b
  | .min => if toSigned w old ≤ toSigned w b then old else b
  | .max => if toSigned w old ≤ toSigned w b then b else old
  | .minu => min old b
  | .maxu => max old b
  | .fadd => flt Num.add
  | .fmin => flt Num.min
  | .fmax => flt Num.max

/-- R224 to R227: what an atomic writes over an old value; none where it writes nothing.  CAS holds its two operands as
compare + 2^64 × new. -/
def atomNew (i : Instr) (old x : Nat) : Option Nat :=
  match i with
  | .amo _ _ _ _ _ sz op => some (atomValue op (2 ^ sz) old x)
  | .vamo _ _ _ _ _ _ _ op => some (atomValue op 4 old x)
  | .cas .. => if old = x % 2 ^ 64 then some (x / 2 ^ 64) else none
  | _ => none

/-- R92: the order of an atomic. -/
def atomOrder : Instr → MOrder
  | .amo _ _ _ _ ord _ _ | .cas _ _ _ _ ord _ _ | .vamo _ _ _ _ _ ord _ _ | .ald _ _ _ _ ord _ => ord
  | _ => .rlx

/-- R92: the atomic is an acquire. -/
def acquires (i : Instr) : Bool := atomOrder i == .acq || atomOrder i == .ar

/-- R226: the image of vD with the old values of the applied lanes. -/
def vamoImage (img : VecImage) (olds : List (Nat × Nat)) : VecImage :=
  BitVec.ofNat 2048 (buildElems 32 64 fun i =>
    match olds.find? (fun o => o.1 == i) with
    | some (_, v) => v
    | none => lane img i)

/-- The write of an atomic's result, once its elements have applied. -/
def atomWrites (img : VecImage) (i : Instr) (olds : List (Nat × Nat)) : List RegWrite :=
  let old := (olds.getD 0 (0, 0)).2
  match i with
  | .amo d .. | .cas d .. => [{ dst := .s d, bits := old }]
  | .ald t _ sz .. => [{ dst := .s t, bits := (extendSize sz old).toNat }]
  | .vamo d .. => [{ dst := .v d, bits := (vamoImage img olds).toNat }]
  | _ => []

/-- The register an atomic writes. -/
def atomDst : Instr → List Reg
  | .amo d .. | .cas d .. => [.s d]
  | .ald t .. => [.s t]
  | .vamo d .. => [.v d]
  | _ => []

/-- R226, R401: the last element of a context's VAMO has applied: EP clears, in the state its after-mark fixes too. -/
def clearProgress (i : Instr) (s : State) (k : Nat) : State :=
  match i with
  | .vamo .. => updCtx s k fun c =>
      { c with regs := { c.regs with ep := 0 }, nextMark := c.nextMark.map fun m => { m with regs := { m.regs with ep := 0 } } }
  | _ => s

/-- Elements in the issuing core's scratchpad apply as the instruction executes: the old values in order, with the bytes the later
elements see; writes go with the bundle's stores (R87). -/
def applyOwn (i : Instr) : List (Nat × Nat × Nat) → State → List (Nat × Nat) → State × List (Nat × Nat)
  | [], s, olds => (s, olds)
  | (l, off, x) :: es, s, olds =>
    let n := accessSize i
    let now := buildElems 8 n fun j =>
      match s.iss.stores.reverse.find? (fun p => p.1 == off + j) with
      | some (_, b) => b.toNat
      | none => (mget s (spAddr (myCore s) (off + j))).toNat
    let s := match atomNew i now x with
      | some v => { s with iss := { s.iss with stores := s.iss.stores ++ valueBytes off n v } }
      | none => s
    applyOwn i es s (olds ++ [(l, now)])

/-- R223: an atomic on its elements (lane, virtual address, operand), done of them applied before. -/
def atomic (s : State) (i : Instr) (elems : List (Nat × Nat × Nat)) (done : Nat) : Host.Outcome State Fault Refusal :=
  let n := accessSize i
  if elems.any fun e => e.2.1 % n != 0 then trap s 0x06
  else match checkSpans s false false .both (elems.map fun e => (e.2.1, n)) with
    | .trap code va ia => trapAddr s code va ia
    | .ok lo ia =>
      let es := elems.map fun (l, a, x) => (l, ia + (a - lo), x)
      if es.all fun e => (ownOffset s e.2.1).isSome then
        let (s, olds) := applyOwn i (es.map fun (l, a, x) => (l, (ownOffset s a).getD 0, x)) s []
        let ws := atomWrites (match i with | .vamo d .. => readV s d | _ => 0) i olds
        .next (queueBoard (clearProgress i s s.at_) ws)
      else
        let id := s.nextId
        let s := queue s (atomDst i) (.atomic i es (BitVec.ofNat 64 lo - BitVec.ofNat 64 ia) [] done) false 0
        .next (if acquires i then updMe s fun c => { c with drains := c.drains ++ [(curSeq s, id)] } else s)

/-- AMO (R224). -/
def execAmo (d a b : Nat) (sc : Scope) (ord : MOrder) (sz : Nat) (op : AtomOp) (s : State) :
    Host.Outcome State Fault Refusal :=
  if reservedScope sc then trap s 0x04 else
  atomic s (.amo d a b sc ord sz op) [(0, (readS s a).toNat, (readS s b).toNat % 2 ^ (8 * 2 ^ sz))] 0

/-- CAS (R225). -/
def execCas (d a b c : Nat) (ord : MOrder) (sz : Nat) (sc : Scope) (s : State) : Host.Outcome State Fault Refusal :=
  let m := 2 ^ (8 * 2 ^ sz)
  if reservedScope sc then trap s 0x04 else
  atomic s (.cas d a b c ord sz sc) [(0, (readS s a).toNat, (readS s b).toNat % m + (readS s c).toNat % m * 2 ^ 64)] 0

/-- R226: the element a VAMO starts at. -/
def startElement (s : State) : Nat := if (me s).regs.eppc = curPc s then (me s).regs.ep else 0

/-- VAMO (R226). -/
def execVamo (d a b : Nat) (sc : Scope) (k : Nat) (ord : MOrder) (x : Bool) (op : AtomOp) (s : State) :
    Host.Outcome State Fault Refusal :=
  if reservedScope sc then trap s 0x04 else
  let ep := startElement s
  let v := readV s d
  let ix := readV s b
  let addr (i : Nat) : Nat := if x then laneIndex (readS s a) ix 2 i else laneFlat (readS s a) i
  let s := updMe s fun c => { c with regs := { c.regs with ep := ep } }
  let es := ((lanesOf (readM s k)).drop ep).map fun i => (i, addr i, lane v i)
  if es.isEmpty then .next (queueBoard (clearProgress (.vamo d a b sc k ord x op) s s.at_) [{ dst := .v d, bits := v.toNat }])
  else atomic s (.vamo d a b sc k ord x op) es ep

/-- ALD (R227). -/
def execAld (t a : Nat) (sz : MSize) (sc : Scope) (ord : MOrder) (off : BitVec 27) (s : State) :
    Host.Outcome State Fault Refusal :=
  if reservedScope sc then trap s 0x04 else
  atomic s (.ald t a sz sc ord off) [(0, (eaOff s a off).toNat, 0)] 0

/-! ### Performing beyond the core -/

/-- What one element of an atomic answers. -/
inductive ElemEnd where
  | ok (old : Nat)
  | wait
  | fail (code : Nat)
deriving DecidableEq, Repr

/-- R83, R223: one element applied at a place in plain storage; older loads of the context that have still to read there come first. -/
def applyAt (s : State) (k seq : Nat) (i : Instr) (ia addr x : Nat) : State × Nat :=
  let n := accessSize i
  let old := ofBytes (mgets s addr n)
  let s := bindFlights s k seq ia addr false
  match atomNew i old x with
  | some v => (mputs s addr (toBytes n v), old)
  | none => (s, old)

/-- R204: a pass of the context older than an atomic of bundle seq has still to read bytes of an element that it may write. -/
def elemWaits (s : State) (k seq : Nat) (i : Instr) (ia : Nat) : Bool :=
  (match i with | .ald .. => false | _ => true) &&
  (unread s k).any fun (n, x) => decide (n ≤ seq) && spanMeets (ia, accessSize i, true) x

/-- R60, R223 to R225, R392: one element of an atomic beyond the core performs; only an element that writes sets D. -/
def performElem (s : State) (k seq : Nat) (i : Instr) (ia x : Nat) : State × ElemEnd :=
  let core := k / 4
  let asn := (ctxOf s k).asn
  let q := leadCore s core
  let n := accessSize i
  if elemWaits s k seq i ia then (s, .wait) else
  match windowOf core ia with
  | .scratch c off => let (s, old) := applyAt s k seq i ia (spAddr c off) x; (s, .ok old)
  | .memory | .cxl =>
    let wr := match i with | .ald .. => false | _ => true
    match reachLines s k asn true wr [ia] with
    | (s, true) => (s, .wait)
    | (s, false) =>
    match resolveAs s q asn ia wr false with
    | (s, .ok pa leaf) =>
      if (atomNew i (ofBytes (mgets s (paAddr pa) n)) x).isSome then
        match resolveAs s q asn ia true true with
        | (s, .ok pa leaf) => let (s, old) := applyAt s k seq i ia (paAddr pa) x; (touchChunks (soilLine (l1Access s core leaf ia true) q ia) k asn [ia], .ok old)
        | (s, .wait) => (s, .wait)
        | (s, .range) => (s, .fail 0x09)
        | (s, .protection) => (s, .fail 0x0A)
        | (s, .pageFault) => (s, .fail 0x0C)
      else let (s, old) := applyAt s k seq i ia (paAddr pa) x; (l1Access s core leaf ia false, .ok old)
    | (s, .wait) => (s, .wait)
    | (s, .range) => (s, .fail 0x09)
    | (s, .protection) => (s, .fail 0x0A)
    | (s, .pageFault) => (s, .fail 0x0C)
  | .ctl .. | .notify .. | .slice .. =>
    match if regPending s ia n then (s, .wait) else readIa s core asn ia with
    | (s, .wait) => (s, .wait)
    | (s, _) =>
    let old := buildElems 8 n fun j =>
      match (readIa s core asn (ia + j)).2 with
      | .ok b => b.toNat
      | _ => 0
    match atomNew i old x with
    | some v => (regWrite s { subjOf k with id := ia, val := (ctxOf s k).pl, data := toBytes n v, code := 1, ref := old }, .ok old)
    | none => (s, .ok old)
  | _ => (s, .fail 0x0B)

/-- The flight of an atomic brought up to date. -/
def atomFlight (s : State) (k : Nat) (f : Flight) (src : FlightSrc) : State :=
  updCtx s k fun c => { c with flights := c.flights.map fun g => if g.id = f.id then { g with src } else g }

/-- R226: the trap of an element; a VAMO keeps what its earlier elements returned. -/
def atomTrap (s : State) (k : Nat) (f : Flight) (i : Instr) (va : Word) (ia : Nat) (olds : List (Nat × Nat)) (n code : Nat) :
    State :=
  let c := ctxOf s k
  let img := sget 0 c.regs.v (match i with | .vamo d .. => d | _ => 0)
  let keep := match i with
    | .vamo d .. => some (d, vamoImage img olds, n, f.pc)
    | _ => none
  takeTrap s k { trapOf s code with
    slot := f.slot, buf := f.buf, pc := f.pc, pl := c.pl, ep := if keep.isSome then n else c.regs.ep
    p0 := va + BitVec.ofNat 64 ia, p1 := BitVec.ofNat 64 ia, keep } f.bseq

/-- R223 to R227: the elements still to apply perform in order; the result lands after the last, and the after-mark may
complete (R401). -/
def performElems (k : Nat) (f : Flight) (i : Instr) (va : Word) :
    List (Nat × Nat × Nat) → List (Nat × Nat) → Nat → State → State
  | [], olds, _, s =>
    let img := sget 0 (ctxOf s k).regs.v (match i with | .vamo d .. => d | _ => 0)
    addReady (landFlight (clearProgress i s k) k f (atomWrites img i olds)) ⟨.afterMark, subjOf k⟩
  | (l, ia, x) :: es, olds, n, s =>
    match performElem s k f.bseq i ia x with
    | (s, .wait) => atomFlight s k f (.atomic i ((l, ia, x) :: es) va olds n)
    | (s, .fail code) => atomTrap s k f i va ia olds n code
    | (s, .ok old) => performElems k f i va es (olds ++ [(l, old)]) (n + 1) s

/-- The step of an atomic in flight. -/
def performAtomic (s : State) (k : Nat) (f : Flight) (i : Instr) (va : Word) (es : List (Nat × Nat × Nat))
    (olds : List (Nat × Nat)) (n : Nat) : State :=
  performElems k f i va es olds n s

end Sys2Proof.Machine
end

