-- ==== Sys2Proof/Machine/Landing.lean ====
section
/-!
DEFINITION. The landing of results (R112 to R114, R217, R218, R228 to R230).
-/

namespace Sys2Proof.Machine

/-- What a landing answers: the loaded bytes by place, a wait, or a trap on an intermediate address. -/
inductive BytesEnd where
  | ok (bs : List (Nat × Byte))
  | wait
  | fail (code ia : Nat)
deriving DecidableEq, Repr

/-- R60, R217, R218: bind the bytes of a load, in order. -/
def bindBytes (core asn : Nat) : List LoadByte → State → State × BytesEnd
  | [], s => (s, .ok [])
  | b :: bs, s =>
    match b.fwd with
    | some v =>
      match bindBytes core asn bs s with
      | (s, .ok r) => (s, .ok ((b.place, v) :: r))
      | r => r
    | none =>
      match readIa s core asn b.ia with
      | (s, .wait) => (s, .wait)
      | (s, .fail code) => (s, .fail code b.ia)
      | (s, .ok v) =>
        match bindBytes core asn bs (l1Load s core asn b.ia) with
        | (s, .ok r) => (s, .ok ((b.place, v) :: r))
        | r => r

/-- R334: the lines that a load's bytes need from its core's L1 or from slices. -/
def loadLines (k : Nat) (bs : List LoadByte) : List Nat :=
  pagedOnly (k / 4) (((bs.filter fun b => b.fwd.isNone).map fun b => b.ia / 64 * 64).eraseDups)

/-- R334: the bytes of a load bind once no slice holds back a line of them. -/
def bindLoad (s : State) (k asn : Nat) (bs : List LoadByte) : State × BytesEnd :=
  match reachLines s k asn true false (loadLines k bs) with
  | (s, true) => (s, .wait)
  | (s, false) => bindBytes (k / 4) asn bs s

/-- R83: an older load in flight of the context reads a byte the younger one reads, or an older atomic has still to perform on it; it
comes first. -/
def readsBefore (c : Ctx) (f : Flight) (bs : List LoadByte) : Bool :=
  c.flights.any fun g => decide (g.bseq < f.bseq) &&
    (match g.src with
      | .load _ _ _ gs | .tolerant _ _ _ _ gs => gs.any fun x => x.fwd.isNone && bs.any fun y => y.ia == x.ia
      | .atomic i es _ _ _ => es.any fun e => bs.any fun y => y.fwd.isNone && decide (e.2.1 ≤ y.ia) && decide (y.ia < e.2.1 + accessSize i)
      | _ => false)

/-- R218: the trap of a load whose byte met a fault. -/
def loadTrap (s : State) (k : Nat) (f : Flight) (va : Word) (bs : List LoadByte) (code ia : Nat) : State :=
  let lo := match bs with | b :: _ => b.ia | [] => ia
  takeTrap s k { trapOf s code with
    slot := f.slot, buf := f.buf, pc := f.pc, pl := (ctxOf s k).pl, ep := (ctxOf s k).regs.ep
    p0 := va + BitVec.ofNat 64 (ia - lo), p1 := BitVec.ofNat 64 ia } f.bseq

/-- R228: the paged pages of a load, by their first addresses. -/
def loadPages (k : Nat) (bs : List LoadByte) : List Nat :=
  (bs.map fun b => b.ia / 2 ^ 16 * 2 ^ 16).eraseDups.filter fun p =>
    match windowOf (k / 4) p with
    | .memory | .cxl => true
    | _ => false

/-- R228: a look-up finds the page not resident, or meets the update that makes it so. -/
def pageAway (s : State) (q asn ia : Nat) : Bool :=
  match lookLeaf s q asn ia with
  | some e => leafAway e || movedNow s q ia
  | none => false

/-- R228: pages of a load that are not resident. -/
def awayPages (s : State) (k : Nat) (bs : List LoadByte) : List Nat :=
  (loadPages k bs).filter (pageAway s (leadCore s (k / 4)) (ctxOf s k).asn)

/-- R398: system software is asked for the pages that no table walk may find; what is known once it has answered. -/
def knowPages (q asn : Nat) : List Nat → State → State × BytesEnd
  | [], s => (s, .ok [])
  | p :: ps, s =>
    if asnAbsent s q asn then (s, .fail 0x09 p)
    else if unheld s q asn p then
      match askSoftware s q 1 0 0 asn p with
      | (s, .wait) => (s, .wait)
      | (s, _) => (s, .fail 0x0C p)
    else knowPages q asn ps s

/-- R229, R398: what XLAT finds of a page: a resident one is left warm; nothing while system software has not answered. -/
def xlatLook (s : State) (q asn ia : Nat) (rd wr : Bool) : State × Option Word :=
  let word (st : Nat) (ms : Bool) : Word := xlatWord st rd wr ms false false false false ia
  match knowPages q asn [ia / 2 ^ 16 * 2 ^ 16] s with
  | (s, .wait) => (s, none)
  | (s, .fail ..) => (s, some (word 2 false))
  | (s, .ok _) =>
    match lookLeaf s q asn ia with
    | some e =>
      if pageAway s q asn ia then (s, some (word 1 (bitAt e 6))) else ((resolvePage s q asn ia false).1, some (word 0 (bitAt e 6)))
    | none => (s, some (word 2 false))

/-- R113, R217, R218, R228, R229: a result of the context lands where it can.  DESIGN CHOICE (log 26): a tier-tolerant load with one page away
and another that meets a page-grain fault reports the miss, with flag 1, and takes no trap. -/
def landResult (s : State) (k : Nat) (f : Flight) : State :=
  let c := ctxOf s k
  let q := leadCore s (k / 4)
  match f.src with
  | .bits ws => landFlight s k f ws
  | .agent _ => s
  | .atomic ins elems va olds n => performAtomic s k f ins va elems olds n
  | .stores chunk bs => landStores s k f chunk bs
  | .load d sh va bs =>
    if readsBefore c f bs then s
    else match bindLoad s k c.asn bs with
      | (s, .ok r) => landFlight s k f [{ dst := d, bits := shapeBits sh r }]
      | (s, .wait) => s
      | (s, .fail code ia) => loadTrap s k f va bs code ia
  | .tolerant d fl sh va bs =>
    match knowPages q c.asn (loadPages k bs) s with
    | (s, .wait) => s
    | (s, .fail code p) =>
      loadTrap s k f va bs code (match bs.find? fun b => b.ia / 2 ^ 16 == p / 2 ^ 16 with | some b => b.ia | none => p)
    | (s, .ok _) =>
    match awayPages s k bs with
    | [] =>
      if readsBefore c f bs then s
      else match bindLoad s k c.asn bs with
        | (s, .ok r) => landFlight s k f [{ dst := d, bits := shapeBits sh r }, { dst := .f fl, bits := 0 }]
        | (s, .wait) => s
        | (s, .fail code ia) => loadTrap s k f va bs code ia
    | ps =>
      let s := ps.foldl (fun s ia => tierMiss s q c.asn ia (k / 4) (k % 4) 0 (some k)) s
      landFlight s k f [{ dst := .f fl, bits := 1 }]
  | .xlat d _ ia rd wr pageIn =>
    match xlatLook s q c.asn ia rd wr with
    | (s, none) => s
    | (s, some x) =>
      let s := if pageIn && x.toNat % 4 == 1 then tierMiss s q c.asn ia (k / 4) (k % 4) 1 (some k) else s
      landFlight s k f [{ dst := d, bits := x.toNat }]

/-- The step of a landing result. -/
def landById (s : State) : Host.Outcome State Fault Refusal :=
  let k := keyOf s.subj
  match flightOf (ctxOf s k) s.subj.id with
  | some f => .next (landResult s k f)
  | none => .next s

/-- RESULT_LAND (R112): a fixed-latency result lands. -/
def execResultLand (s : State) : Host.Outcome State Fault Refusal := landById s

/-- SCOREBOARD_LAND (R113): a scoreboarded result lands. -/
def execScoreboardLand (s : State) : Host.Outcome State Fault Refusal := landById s

/-- XLAT_TIMEOUT (R230): a look-up that has no answer lands with ST = 3; the walk it started completes and warms the translation, or goes on
being asked of system software. -/
def execXlatTimeout (s : State) : Host.Outcome State Fault Refusal :=
  let k := keyOf s.subj
  match flightOf (ctxOf s k) s.subj.id with
  | some f =>
    match f.src with
    | .xlat d _ ia rd wr _ =>
      .next (landFlight (xlatLook s (leadCore s (k / 4)) (ctxOf s k).asn ia rd wr).1 k f
        [{ dst := d, bits := (xlatWord 3 rd wr false false false false false ia).toNat }])
    | _ => .next s
  | none => .next s

/-- PAGE_FAULT_REPORT (R218): the memory side reports the fault that a load in flight meets; the load traps. -/
def execPageFaultReport (s : State) : Host.Outcome State Fault Refusal := landById s

end Sys2Proof.Machine
end

