-- ==== Sys2Proof/Machine/Matrix.lean ====
section
/-!
DEFINITION. The M-slot instructions (R197 to R215): MMA, SCX, the drains, the tile moves and waits, and the matrix special
registers.
-/

namespace Sys2Proof.Machine

/-! ### Checks of passes and drains -/

/-- R202: a base or a stride that is not a multiple of an element of 2, 4 or 8 bytes. -/
def misplaced (f : Fmt) (base stride : Word) : Bool :=
  let n := if f = .t6 then 1 else fmtBytes f
  base.toNat % n != 0 || stride.toNat % n != 0

/-- R202: the windows an operand or a drain may not touch. -/
def controlWindow (s : State) (ia : Nat) : Bool :=
  match windowOf (myCore s) ia with
  | .scratch .. | .memory | .cxl => false
  | _ => true

/-- R202: check the rows of an operand or a drain; none where they may be accessed. -/
def checkRows (s : State) (w : Bool) (perm : Perm) (rows : List (Nat × Nat)) : Option SpanCheck :=
  match checkSpans s w false perm rows with
  | .trap code va ia => some (.trap code va ia)
  | .ok lo ia =>
    if w then none
    else ((spanEnds rows).find? fun a => controlWindow s (ia + (a - lo))).map fun a => .trap 0x0B a (ia + (a - lo))

/-- R200: the format codes of the scratchpad banks that rows touch; none where a row lies outside every scratchpad. -/
def rowBanks (s : State) (w : Bool) (rows : List (Nat × Nat)) : List (Option Nat) :=
  ((spanEnds rows).map fun a => (placeScratch s ⟨w, a⟩).map fun (core, off) => bankCode s core (off / 32768)).eraseDups

/-- R200: the format checks of banks: bank says that the instruction names no format of its own. -/
def banksConflict (bank : Bool) (f : Fmt) (codes : List (Option Nat)) : Bool :=
  codes.any fun c =>
    match c with
    | none => bank
    | some c => if bank then bankFmt c != f || c == 0 else c != 0 && bankFmt c != f

/-- R63: the format is a matrix operand's. -/
def isOperandFmt (f : Fmt) : Bool := f.isOperandCode && f != .raw

/-! ### MMA -/

/-- R87, R204: bytes that older bundles of the context have stored beyond the core, and that have not performed yet, are read as of the MMA's
execution. -/
def gateOverlay (s : State) : Sparse Byte :=
  ((gated (me s)).filter fun g => decide (g.seq < curSeq s)).foldl (fun m g =>
    match windowOf (myCore s) g.ia with
    | .scratch n off => sins m (spAddr n off) g.byte
    | .mcast k off =>
      (List.range 8).foldl (fun m i => if g.own || 8 * k + i != myCore s then sins m (spAddr (8 * k + i) off) g.byte else m) m
    | _ => sins m (farKey g.ia) g.byte) []

/-- R203: every operand of the rows lies in the issuing core's scratchpad. -/
def ownRows (s : State) (w : Bool) (rows : List (Nat × Nat)) : Bool :=
  w || (spanEnds rows).all fun a =>
    match placeScratch s ⟨w, a⟩ with
    | some (core, _) => core == myCore s
    | none => false

/-- MMA (R198 to R203): the checks, then a pass entry of the context.  R202 gives the checks no order (DESIGN CHOICE, log 26): illegal operand comes
first, then range, protection and window of A, then those of B, then the format conflict. -/
def execMma (q aa as ba bs : Nat) (fmt : Fmt) (kb : Nat) (z wb wa : Bool) (s : State) : Host.Outcome State Fault Refusal :=
  let mcfg := (me s).regs.mcfg
  let a := readS s aa
  let b := readS s ba
  let f := resolveFmt s fmt ⟨wa, a.toNat⟩
  let rowsA := operandRows false mcfg a (readS s as) f (kb + 1)
  let rowsB := operandRows true mcfg b (readS s bs) f (kb + 1)
  let bank := fmt == .raw
  if misplaced f a (readS s as) || misplaced f b (readS s bs) then trap s 0x04
  else match (checkRows s wa .read rowsA).orElse fun _ => checkRows s wb .read rowsB with
    | some (.trap code va ia) => trapAddr s code va ia
    | some (.ok _ _) => .next s
    | none =>
      if (bank && (!isOperandFmt f || (f == .b64 && q % 2 == 1)))
          || banksConflict bank f (rowBanks s wa rowsA ++ rowBanks s wb rowsB) then trap s 0x0D
      else
        let s := shadowPair s q (f == .b64)
        let p : Pass :=
          { id := s.nextId, ctx := s.at_ % 4, q, pair := f == .b64, fmt := f, kb := kb + 1
            aBase := a, aStride := readS s as, bBase := b, bStride := readS s bs, wa, wb, z, mcfg, mpat := (me s).regs.mpat
            region := (regionOf (me s) (curSeq s)).seq, seq := curSeq s, exec := s.cyc
            paced := ownRows s wa rowsA && ownRows s wb rowsB, overlay := gateOverlay s, maps := (mapped s).rregs }
        let s := updCore s (myCore s) fun u => { u with passes := u.passes ++ [p] }
        .next (kickUnit { s with nextId := s.nextId + 1 } (myCore s))

/-! ### SCX -/

/-- The exponent SCX applies: a value far beyond every exponent of R76 acts as any value beyond it does. -/
def scxExponent (v : Word) : Int := satInt (-2000) 2000 (toSigned 64 v.toNat)

/-- SCX (R79, R210): the partial sum that stands on the tile's port in this cycle is scaled. -/
def execScx (d a : Nat) (s : State) : Host.Outcome State Fault Refusal :=
  let g := scxExponent (readS s a)
  .next (updCore s (myCore s) fun u =>
    { u with sums := u.sums.map fun p =>
        if p.ctx == s.at_ % 4 && p.at_ == s.cyc && u.passes.any (fun r => r.id == p.pass && r.q == d) then
          { p with scx := p.scx ++ [g] }
        else p })

/-! ### Drains -/

/-- R42: element (i, j) of a tile, or of a binary64 pair. -/
def tileElem (s : State) (q : Nat) (pair : Bool) (i j : Nat) : Nat :=
  if pair then elem (readQ s (q + i / 16)).toNat 64 (32 * (i % 16) + j) else elem (readQ s q).toNat 32 (32 * i + j)

/-- R211: the format of a drain's destination. -/
def drainFmt (s : State) (w : Bool) (fmt : Fmt) (b : Word) : Fmt := resolveFmt s fmt ⟨w, b.toNat⟩

/-- R211: the bytes a drain writes, with their addresses, row by row. -/
def drainBytes (s : State) (a : Nat) (pair : Bool) (f : Fmt) (rows : List (Nat × Nat)) : List (Nat × Byte) :=
  let src : Fmt := if pair then .b64 else .b32
  (rows.zip (List.range rows.length)).flatMap fun ((x, _), i) =>
    ((packArray f ((List.range (colsOf (me s).regs.mcfg)).map fun j => drainNum src f (tileElem s a pair i j))).zip
      (List.range 32768)).map fun (v, o) => (x + o, v)

/-- R58, R211: those of a drain's bytes that lie in the acting core's scratchpad, with their offsets. -/
def drainOwn (s : State) (w : Bool) (bytes : List (Nat × Byte)) : List (Nat × Byte) :=
  bytes.filterMap fun (x, v) =>
    match placeScratch s ⟨w, x⟩ with
    | some (core, off) => if core = myCore s then some (off, v) else none
    | none => none

/-- R211: the others, at their intermediate addresses in a range. -/
def drainFar (s : State) (w : Bool) (r : RangeReg) (bytes : List (Nat × Byte)) : List (Nat × Byte) :=
  (bytes.filter fun (x, _) => match placeScratch s ⟨w, x⟩ with | some (core, _) => core != myCore s | none => true).map
    fun (x, v) => (rangeMap r x, v)

/-- R211, R212: a drain, with its barker chunk. -/
def drainTile (s : State) (a b c : Nat) (p w : Bool) (fmt : Fmt) (chunk : Option Nat) : Host.Outcome State Fault Refusal :=
  let mcfg := (me s).regs.mcfg
  let base := readS s b
  let f := drainFmt s w fmt base
  let rows := drainRows mcfg base (readS s c) f
  let bank := fmt == .raw
  if misplaced f base (readS s c) then trap s 0x04
  else match checkRows s w .write rows with
    | some (.trap code va ia) => trapAddr s code va ia
    | some (.ok _ _) => .next s
    | none =>
      if (bank && !isOperandFmt f) || banksConflict bank f (rowBanks s w rows) then trap s 0x0D
      else
        let bytes := drainBytes s a p f rows
        let own := drainOwn s w bytes
        if own.length = bytes.length then
          if chunk.isSome then trap s 0x04 else .next (queue s [] (.stores none own) false 40)
        else
          match rangeFind (mapped s) base.toNat with
          | none => trapAddr s 0x09 base.toNat 0
          | some r =>
            let s := gateStore s base.toNat (drainFar s w r bytes)
            let s := if own.isEmpty then s else queue s [] (.stores none own) false 40
            .next (match chunk with
              | some h => updMe s fun c => updRegion c (curSeq s) fun g => { g with chunks := g.chunks ++ [h] }
              | none => s)

/-- MDRN (R211). -/
def execMdrn (a b c : Nat) (p w : Bool) (fmt : Fmt) (s : State) : Host.Outcome State Fault Refusal :=
  drainTile s a b c p w fmt none

/-- R212: a drain destination that lies in a scratchpad. -/
def drainsToScratch (s : State) (b c : Nat) (fmt : Fmt) : Bool :=
  ((spanEnds (drainRows (me s).regs.mcfg (readS s b) (readS s c) fmt)).any fun a => (placeScratch s ⟨false, a⟩).isSome)

/-- R299: the page of a chunk record is marked memory-side. -/
def memorySide (s : State) (ia : Nat) : Bool :=
  match lookLeaf s (myLead s) (me s).asn ia with
  | some e => bitAt e 6
  | none => false

/-- R299, R394: a store to the page of a chunk record would take a protection fault: it is neither writable nor to be copied. -/
def recordProtected (s : State) (ia : Nat) : Bool :=
  match lookLeaf s (myLead s) (me s).asn ia with
  | some e => !bitAt e 2 && !bitAt e 3
  | none => false

/-- MDRNB (R212, R299): a drain to memory that counts a tile of a barker chunk once its stores have performed. -/
def execMdrnb (d a b c : Nat) (p w : Bool) (fmt : Fmt) (s : State) : Host.Outcome State Fault Refusal :=
  let h := (readS s d).toNat
  if w || drainsToScratch s b c fmt || h % 64 != 0 then trap s 0x04
  else match rangeCheck (mapped s) h 64 .write with
    | .trap code va ia => trapAddr s code va ia
    | .ok ia =>
      if !memorySide s ia then trap s 0x04
      else if recordProtected s ia then trapAddr s 0x0A h ia
      else drainTile s a b c p w fmt (some ia)

/-! ### Tile moves -/

/-- R213: the writes of a tile or a pair whose elements are given. -/
def tileWrites (q : Nat) (pair : Bool) (f : Nat → Nat → Nat) : List RegWrite :=
  if pair then
    [{ dst := .q q, bits := buildElems 64 512 fun n => f (n / 32) (n % 32) },
     { dst := .q (q + 1), bits := buildElems 64 512 fun n => f (16 + n / 32) (n % 32) }]
  else [{ dst := .q q, bits := buildElems 32 1024 fun n => f (n / 32) (n % 32) }]

/-- R113, R403: tiles written by a scoreboarded M-slot instruction, with their shadows. -/
def writeTiles (s : State) (q : Nat) (pair : Bool) (f : Nat → Nat → Nat) : Host.Outcome State Fault Refusal :=
  let ws := tileWrites q pair f
  .next (queueBoard (shadowPair s q pair) ws)

/-- MZERO (R213): the covered elements become +0. -/
def execMzero (d : Nat) (p : Bool) (s : State) : Host.Outcome State Fault Refusal :=
  let mcfg := (me s).regs.mcfg
  writeTiles s d p fun i j => if i < rowsOf mcfg ∧ j < colsOf mcfg then 0 else tileElem s d p i j

/-- MMOV (R213). -/
def execMmov (d a : Nat) (p : Bool) (s : State) : Host.Outcome State Fault Refusal :=
  writeTiles s d p fun i j => tileElem s a p i j

/-- MTRN (R213). -/
def execMtrn (d a : Nat) (p : Bool) (s : State) : Host.Outcome State Fault Refusal :=
  writeTiles s d p fun i j => tileElem s a p j i

/-- MWRV (R213): selected lanes of a vector become a 256-byte piece of a tile. -/
def execMwrv (d a k h : Nat) (s : State) : Host.Outcome State Fault Refusal :=
  let m := readM s k
  let v := readV s a
  let q := (readQ s d).toNat
  .next (queueBoard (shadowTile s d)
    [{ dst := .q d, bits := buildElems 32 1024 fun n =>
        if n / 64 = h ∧ m.getLsbD (n % 64) then lane v (n % 64) else elem q 32 n }])

/-- MRDV (R213): a 256-byte piece of a tile to selected lanes. -/
def execMrdv (d a k h : Nat) (s : State) : Host.Outcome State Fault Refusal :=
  let m := readM s k
  let v := readV s d
  let q := (readQ s a).toNat
  .next (writeV s 40 d (mergeElems 32 m v fun i => elem q 32 (64 * h + i)))

/-- MQWAIT (R214): the wait is over when it executes. -/
def execMqwait (_a : Nat) (_all : Bool) (s : State) : Host.Outcome State Fault Refusal := .next s

/-! ### Matrix special registers -/

/-- MPSET (R215). -/
def execMpset (a : Nat) (s : State) : Host.Outcome State Fault Refusal :=
  .next (queueFixed s 1 [{ dst := .mpat, bits := (readS s a).toNat % 2 ^ 32 }])

/-- R197: the reserved bits of mcfg. -/
def mcfgReserved (v : Nat) : Bool := fld v 7 2 != 0 || fld v 15 13 != 0 || fld v 63 21 != 0

/-- MCSET (R215). -/
def execMcset (a : Nat) (s : State) : Host.Outcome State Fault Refusal :=
  let v := readS s a
  if mcfgReserved v.toNat then trap s 0x04 else .next (queueFixed s 1 [{ dst := .mcfg, bits := v.toNat }])

/-- R206, R208: the pass of a context that is suspended, or served and without a K-block issued since: a service that completes in the
cycle of an MRPWR comes after it. -/
def suspendedPass (s : State) (k : Nat) : Option Pass :=
  (coreAt s (k / 4)).passes.find? fun p => p.ctx == k % 4 && decide (p.kbn < p.kb) && (p.st == .suspended || p.susp.rdy)

/-- R208: the pass restarts from a written K-block, operand and row: rows that it has fetched of that K-block are kept. -/
def restartAt (p : Pass) (v : Nat) : Pass :=
  let kept := if p.kbn = fld v 11 6 then p.susp.kept else some ([], [])
  { p with kbn := fld v 11 6, st := .waiting, susp := { p.susp with op := bitAt v 12, row := fld v 17 13, rdy := true, kept } }

/-- R208: the written value with RDY and FC kept. -/
def mrpKept (old v : Nat) : Word := BitVec.ofNat 64 (setFld (setBit v 1 (bitAt old 1)) 21 18 (fld old 21 18))

/-- R206, R208: a pass goes behind the passes already waiting, to restart from a K-block and row. -/
def requeuePass (s : State) (core : Nat) (p : Pass) : State :=
  let s := updCore s core fun u => { u with passes := u.passes.filter (fun r => r.id != p.id) ++ [p] }
  kickUnit s core

/-- The core without a pass; what waited for its tile is tried again. -/
def dropPass (s : State) (core id : Nat) : State :=
  let k := match (coreAt s core).passes.find? (fun p => p.id == id) with | some p => 4 * core + p.ctx | none => 4 * core
  wake (kickUnit (updCore s core fun u => { u with passes := u.passes.filter fun p => p.id != id }) core) k

/-- R207, R208: an abandoned pass issues nothing more; the pass goes once the K-blocks it issued have folded. -/
def abandonPass (s : State) (core : Nat) (p : Pass) : State :=
  if p.folding = 0 then dropPass s core p.id
  else
    kickUnit (updCore s core fun u =>
      { u with passes := u.passes.map fun r => if r.id == p.id then { r with kb := r.kbn, st := .waiting, susp := {} } else r })
      core

/-- R208: mrp as an MRPWR finds it: a service that completes in its cycle comes after it. -/
def mrpBefore (s : State) : Nat :=
  let m := (me s).mrp.toNat
  if (suspendedPass s s.at_).any fun p => p.susp.served == some s.cyc then setBit m 1 false else m

/-- MRPWR (R208); the service of its own cycle then sets RDY where a pass remains to restart. -/
def execMrpwr (a : Nat) (s : State) : Host.Outcome State Fault Refusal :=
  let v := (readS s a).toNat
  let put (old : Nat) (s : State) : State := updMe s fun c => { c with mrp := mrpKept old v }
  if fld v 63 22 ≠ 0 then trap s 0x04
  else match suspendedPass s s.at_ with
    | none => if bitAt v 0 then trap s 0x04 else .next (put (mrpBefore s) s)
    | some p =>
      if !bitAt v 0 then .next (put (mrpBefore s) (abandonPass s (myCore s) p))
      else if fld v 5 2 ≠ p.q ∨ p.kb ≤ fld v 11 6 then trap s 0x04
      else .next (put (me s).mrp.toNat (requeuePass s (myCore s) (restartAt p v)))

/-- MSRD (R215). -/
def execMsrd (d : Nat) (sp : MSpr) (s : State) : Host.Outcome State Fault Refusal :=
  let c := me s
  .next (boardS s d (match sp with
    | .mcfg => c.regs.mcfg
    | .mpat => c.regs.mpat.setWidth 64
    | .mrp => c.mrp))

end Sys2Proof.Machine
end

