-- ==== Sys2Proof/Machine/MatrixUnit.lean ====
section
/-!
DEFINITION. The matrix unit of a core: starting passes (R198, R203), fetching and issuing K-blocks (R203, R204, R318), their folds
(R75 to R80), and suspension, service and abandonment (R205 to R207, R410).
-/

namespace Sys2Proof.Machine

/-- R75: cycles of a K-block. -/
def cpk : Fmt → Nat
  | .t6 => 1
  | .t8 => 2
  | .b16 | .bf16 => 8
  | .b32 => 32
  | .b64 => 256
  | _ => 1

/-- The pass with an id on a core. -/
def passOf (s : State) (core id : Nat) : Option Pass := (coreAt s core).passes.find? fun p => p.id == id

/-- The state with a pass of a core replaced. -/
def putPass (s : State) (core : Nat) (p : Pass) : State :=
  updCore s core fun u => { u with passes := u.passes.map fun r => if r.id == p.id then p else r }

/-- The subject of a step of a pass: its core, its context, its id and its next K-block. -/
def passSubj (core : Nat) (p : Pass) : Subject := { core, ctx := p.ctx, id := p.id, val := p.kbn }

/-- R203: the next K-block of a pass may issue from this cycle on; a paced pass issues it in that cycle. -/
def schedBlock (s : State) (core : Nat) (p : Pass) (due : Nat) : State :=
  let p := { p with due }
  let s := putPass s core p
  if p.paced then addTimer s due ⟨.kBlockIssue, passSubj core p⟩ else s

/-- PASS_START (R198, R203, R206): the unit starts the first waiting pass it may. -/
def execPassStart (s : State) : Host.Outcome State Fault Refusal :=
  let core := s.subj.core
  let u := coreAt s core
  if u.passes.any Pass.runs then .next s
  else match u.passes.find? (Pass.starts u.passes) with
    | none => .next s
    | some p =>
      let from_ := if p.susp.rdy then s.cyc + 2 else p.exec + 2
      .next (schedBlock s core { p with st := .running } (max from_ u.portFree))

/-! ### Fetching -/

/-- R201: the rows of an operand that a K-block reads, with their numbers. -/
def blockRows (op : Bool) (p : Pass) : List (Nat × Nat) :=
  let (base, stride) := if op then (p.bBase, p.bStride) else (p.aBase, p.aStride)
  let trans := if op then bitAt p.mcfg.toNat 1 else bitAt p.mcfg.toNat 0
  let n := if op then colsOf p.mcfg else rowsOf p.mcfg
  if op = trans then
    (List.range n).map fun i => ((rowSpan base stride p.fmt 32 i).1 + zOff p.fmt (32 * p.kbn), zLen p.fmt 32)
  else (List.range 32).map fun i => rowSpan base stride p.fmt n (32 * p.kbn + i)

/-- What fetching a row or an operand answers. -/
inductive FetchRow where
  | ok (bs : List Byte)
  /-- R334, R398: a handler holds the line, or system software has still to say where the page lies: the operands have not arrived -/
  | wait
  /-- R206: suspend, with this cause on this page -/
  | suspend (fc va ia : Nat) (op : Bool) (row : Nat)
  /-- R207: no valid translation -/
  | fail (va ia : Nat) (op : Bool) (row : Nat)
  /-- R318: a non-finite value of a KV page: its address, its page's header, the failing columns -/
  | bad (va ia header mask : Nat) (op : Bool) (row : Nat)
deriving DecidableEq, Repr

/-- R204: a byte kept for the pass, or the one that stands in storage. -/
def passByte (s : State) (p : Pass) (key a : Nat) : Byte :=
  match p.overlay.find? (fun e => e.1 == key) with
  | some (_, b) => b
  | none => mget s a

/-- R318: positions of the non-finite elements of a row of n elements. -/
def badElems (f : Fmt) (bs : List Byte) (n : Nat) : List Nat :=
  (List.range n).filter fun i =>
    match decodeNum f (arrayElem f bs i) with
    | .fin .. => false
    | _ => true

/-- R201: the bytes of a row's array that hold its element i, from the first on, and how many. -/
def elemSpan (f : Fmt) (i : Nat) : Nat × Nat :=
  if f = .t6 then (6 * i / 8, (6 * i + 5) / 8 - 6 * i / 8 + 1) else (zOff f i, zLen f 1)

/-- R318: columns of a row whose elements are not finite and have bytes in one of its pieces from KV pages. -/
def badColumns (f : Fmt) (bs : List Byte) (n : Nat) (kv : List (Nat × Nat)) : List Nat :=
  (badElems f bs n).filter fun i => kv.any fun r => decide (r.1 < (elemSpan f i).1 + (elemSpan f i).2) && decide ((elemSpan f i).1 < r.1 + r.2)

/-- R206, R228, R318, R334, R396, R398: fetch the pieces of a row beyond the scratchpads, page by page (fuel counts pages), from its byte o
on: the bytes, and the pieces that lie in KV pages. -/
def fetchPages (core asn q : Nat) (p : Pass) (op : Bool) (row : Nat) : Nat → Nat → Nat → Nat → Nat → State →
    State × (FetchRow × List (Nat × Nat))
  | 0, _, _, _, _, s => (s, .ok [], [])
  | fuel + 1, o, va, ia, n, s =>
    if n = 0 then (s, .ok [], [])
    else
      let m := min n (2 ^ 16 - ia % 2 ^ 16)
      if (lookLeaf s q asn ia).any leafAway then (s, .suspend 2 va ia op row, [])
      else match resolvePage s q asn ia false with
        | (s, .ok pa leaf) =>
          if leafAway leaf then (s, .suspend 2 va ia op row, [])
          else
            let here := (List.range m).map fun j => passByte s p (farKey (ia + j)) (paAddr (pa + j))
            match fetchPages core asn q p op row fuel (o + m) (va + m) (ia + m) (n - m) s with
            | (s, .ok bs, kv) => (s, .ok (here ++ bs), if bitAt leaf 7 then (o, m) :: kv else kv)
            | r => r
        | (s, .wait) => (s, if unheld s q asn ia then .wait else .suspend 1 va ia op row, [])
        | (s, _) => (s, .fail va ia op row, [])

/-- R203, R204, R206, R318: fetch one row of n elements. -/
def fetchRow (s : State) (k : Nat) (p : Pass) (op : Bool) (row a len n : Nat) : State × FetchRow :=
  let core := k / 4
  let c := ctxOf s k
  let w := if op then p.wb else p.wa
  let own (off : Nat) : FetchRow := .ok ((List.range len).map fun j => passByte s p (spAddr core (off + j)) (spAddr core (off + j)))
  if w then (s, own a)
  else match rangeFind { c with rregs := p.maps } a with
    | none => (s, .fail a 0 op row)
    | some r =>
      let ia := rangeMap r a
      match windowOf core ia with
      | .scratch n off => (s, .ok ((List.range len).map fun j => passByte s p (spAddr n (off + j)) (spAddr n (off + j))))
      | _ =>
        match askLines k (some c.asn) false false (pagedOnly core (linesOf ia len)) s with
        | (s, true) => (s, .wait)
        | (s, false) =>
        match fetchPages core c.asn (leadCore s core) p op row (len / 2 ^ 16 + 2) 0 a ia len s with
        | (s, .ok bs, kv) =>
          match badColumns p.fmt bs n kv with
          | [] => (s, .ok bs)
          | i :: is =>
            let e := (elemSpan p.fmt i).1
            let o := max e ((kv.find? fun r => decide (e < r.1 + r.2)).getD (e, 0)).1
            let pa := match anyLeaf s (leadCore s core) c.asn ((ia + o) / 2 ^ 16 * 2 ^ 16) with
              | some (_, pa) => pa
              | none => 0
            (s, .bad (a + o) (ia + o) pa ((i :: is).foldl (fun x j => x + 2 ^ j) 0) op row)
        | (s, r, _) => (s, r)

/-- R206, R346: fetch the rows of an operand in order, so that the lowest row that fails stops it: those that have come, and what stopped
the next one. -/
def fetchRows (k : Nat) (p : Pass) (op : Bool) (n : Nat) : List (Nat × Nat) → Nat → State → State × List (List Byte) × Option FetchRow
  | [], _, s => (s, [], none)
  | (a, len) :: rs, row, s =>
    match fetchRow s k p op row a len n with
    | (s, .ok bs) =>
      let (s, more, r) := fetchRows k p op n rs (row + 1) s
      (s, bs :: more, r)
    | (s, r) => (s, [], some r)

/-- Elements a row of an operand holds in a K-block. -/
def rowElems (op : Bool) (p : Pass) : Nat :=
  let trans := if op then bitAt p.mcfg.toNat 1 else bitAt p.mcfg.toNat 0
  if op = trans then 32 else if op then colsOf p.mcfg else rowsOf p.mcfg

/-- R206, R208: the rows of an operand that the next K-block takes as fetched; one whose fetch is not kept is a free value. -/
def keptRows (s : State) (op : Bool) (p : Pass) : State × List (List Byte) :=
  let rows := (blockRows op p).take (resumeRow op p)
  let kept := match p.susp.kept with | some (a, b) => if op then b else a | none => []
  let row (i len : Nat) : List Byte :=
    match kept[i]? with
    | some bs => bs
    | none => (List.range len).map fun j => Config.unfetched s.fresh (2 ^ 12 * (32 * op.toNat + i) + j)
  (if kept.length < rows.length then { s with fresh := s.fresh + 1 } else s,
   (rows.zip (List.range rows.length)).map fun ((_, len), i) => row i len)

/-- R206: the first n rows of an operand of the next K-block: those kept, and those fetched now. -/
def fetchOperand (s : State) (k : Nat) (p : Pass) (op : Bool) (n : Nat) : State × List (List Byte) × Option FetchRow :=
  let (s, old) := keptRows s op p
  let (s, more, r) := fetchRows k p op (rowElems op p) (((blockRows op p).take n).drop old.length) old.length s
  (s, old ++ more, r)

/-! ### Folding -/

/-- Element (i, k) of operand A, or (k, j) of operand B, of a K-block, from its fetched bytes. -/
def blockElem (op : Bool) (p : Pass) (bs : List Byte) (i k : Nat) : Num :=
  let len := zLen p.fmt (rowElems op p)
  let trans := if op then bitAt p.mcfg.toNat 1 else bitAt p.mcfg.toNat 0
  let (row, col) := if op = trans then (i, k) else (k, i)
  decodeNum p.fmt (arrayElem p.fmt ((bs.drop (len * row)).take len) col)

/-- R75: the cell operation of k-value k of K-block b. -/
def cellOp (p : Pass) (b k : Nat) : Nat :=
  fld p.mpat.toNat (2 * ((b * cpk p.fmt + k * cpk p.fmt / 32) % 16) + 1) (2 * ((b * cpk p.fmt + k * cpk p.fmt / 32) % 16))

/-- R76: the partial sums P, hi and lo of an element. -/
structure Partial where
  p : Num := .fin false 0 0
  hi : Option Num := none
  lo : Option Num := none
deriving DecidableEq, Repr

/-- R76: one term of a partial sum. -/
def partialStep (op : Nat) (x y : Num) (a : Partial) : Partial :=
  if op = 0 then { a with p := a.p.add (x.mul y) }
  else if op = 1 then { a with p := a.p.add (x.sub y).abs }
  else if op = 2 then { a with hi := some (match a.hi with | some h => h.max (x.add y) | none => x.add y) }
  else { a with lo := some (match a.lo with | some h => h.min (x.add y) | none => x.add y) }

/-- R76: the fold of a partial sum into an element, scaled by 2^g. -/
def foldPartial (a : Partial) (g : Int) (c : Nat) : Nat :=
  let c := encodeNum .b32 false ((decodeNum .b32 c).add (a.p.scale g))
  let c := match a.hi with
    | some h => encodeNum .b32 false ((decodeNum .b32 c).max (decodeNum .b32 (encodeNum .b32 false (h.scale g))))
    | none => c
  match a.lo with
  | some h => encodeNum .b32 false ((decodeNum .b32 c).min (decodeNum .b32 (encodeNum .b32 false (h.scale g))))
  | none => c

/-- R77: one step of a binary32 or binary64 pass. -/
def accStep (f : Fmt) (op : Nat) (x y : Num) (c : Nat) : Nat :=
  let v := decodeNum f c
  let r (z : Num) : Num := decodeNum f (encodeNum f false z)
  encodeNum f false
    (if op = 0 then v.add (x.mul y)
     else if op = 1 then v.add (x.sub y).abs
     else if op = 2 then v.max (r (x.add y))
     else v.min (r (x.add y)))

/-- R76, R77: an element after K-block b. -/
def foldElem (p : Pass) (m : PortSum) (i j c : Nat) : Nat :=
  let x := blockElem false p m.bytesA i
  let y := blockElem true p m.bytesB j
  if p.fmt = .b32 ∨ p.fmt = .b64 then
    (List.range 32).foldl (fun c k => accStep p.fmt (cellOp p m.kb k) (x k) (y k) c) c
  else
    let a := (List.range 32).foldl (fun a k => partialStep (cellOp p m.kb k) (x k) (y k) a) {}
    foldPartial a m.scx.sum c

/-- The images of a pass's tile or pair with its covered elements changed. -/
def mapTile (s : State) (k : Nat) (p : Pass) (f : Nat → Nat → Nat → Nat) : State :=
  let s' := { s with at_ := k }
  let ws := tileWrites p.q p.pair fun i j =>
    let c := tileElem s' p.q p.pair i j
    if i < rowsOf p.mcfg ∧ j < colsOf p.mcfg then f i j c else c
  updCtx s k fun c => ws.foldl putCtxReg c

/-- K_BLOCK_FOLD (R79): a K-block's sums fold into the tile; after the last the tile is not busy. -/
def execKBlockFold (s : State) : Host.Outcome State Fault Refusal :=
  let core := s.subj.core
  match (coreAt s core).sums.find? (fun m => m.id == s.subj.id) with
  | none => .next s
  | some m =>
    let s := updCore s core fun u => { u with sums := u.sums.filter fun x => x.id != m.id }
    match passOf s core m.pass with
    | none => .next s
    | some p =>
      let s := mapTile s (4 * core + p.ctx) p (foldElem p m)
      let p := { p with folding := p.folding - 1 }
      .next (if p.folding = 0 ∧ p.kb ≤ p.kbn then dropPass (putPass s core p) core p.id else putPass s core p)

/-! ### Issuing -/

/-- R75, R79: the cycle at whose end a K-block issued now has folded. -/
def foldCycle (f : Fmt) (t : Nat) : Nat :=
  match f with
  | .b32 | .b64 => t + 31 * (cpk f / 32) + 8
  | _ => t + 9

/-- R206, R322: suspend the pass at its next K-block, with the rows fetched so far kept: mrp shows it, and a page away has its page-in
started. -/
def suspendPass (s : State) (core : Nat) (p : Pass) (fc va ia : Nat) (op : Bool) (row : Nat) (kept : List (List Byte) × List (List Byte)) :
    State :=
  let k := 4 * core + p.ctx
  let s := putPass s core { p with st := .suspended, susp := { fc, op, row, rdy := false, ia, va, kept := some kept, since := s.cyc } }
  let s := if fc = 2 then tierMiss s (leadCore s core) (ctxOf s k).asn ia core p.ctx 4 none else s
  let s := updCtx s k fun c => { c with
    mrp := BitVec.ofNat 64 (1 + p.q * 2 ^ 2 + p.kbn * 2 ^ 6 + op.toNat * 2 ^ 12 + row * 2 ^ 13 + fc * 2 ^ 18) }
  kickUnit s core

/-- R207, R318, R405: the pass is abandoned with FC = 4, and its context takes a trap at its next issue. -/
def failPass (s : State) (core : Nat) (p : Pass) (op : Bool) (row : Nat) (t : Word → Trap) : State :=
  let k := 4 * core + p.ctx
  let mrp := BitVec.ofNat 64 (p.q * 2 ^ 2 + p.kbn * 2 ^ 6 + op.toNat * 2 ^ 12 + row * 2 ^ 13 + 4 * 2 ^ 18)
  let s := abandonPass s core p
  pendTrap (updCtx s k fun c => { c with mrp }) k (t mrp)

/-- R207: the matrix operand fault. -/
def operandFault (va ia : Nat) (mrp : Word) : Trap := { code := 0x0E, p0 := BitVec.ofNat 64 va, p1 := BitVec.ofNat 64 ia, p2 := mrp }

/-- R206, R207, R318: what a fetch that did not end well does to its pass. -/
def fetchFailed (s : State) (core : Nat) (p : Pass) (kept : List (List Byte) × List (List Byte)) (r : FetchRow) : State :=
  match r with
  | .ok _ | .wait => s
  | .suspend fc va ia op row => suspendPass s core p fc va ia op row kept
  | .fail va ia op row => failPass s core p op row (operandFault va ia)
  | .bad va ia header mask op row =>
    let (a, b, c, d) := quarRecord s header va (va % 2 ^ 16) 0 mask
    failPass s core p op row fun _ => { code := 0x0F, p0 := a, p1 := b, p2 := c, p3 := d, quar := some (va, ia) }

/-- R203, R206: a K-block whose operands have arrived issues. -/
def issueBlock (s : State) (core : Nat) (p : Pass) (bytesA bytesB : List Byte) : State :=
  let k := 4 * core + p.ctx
  let s := if p.z then mapTile s k p fun _ _ _ => 0 else s
  let t := foldCycle p.fmt s.cyc
  let m : PortSum :=
    { id := s.nextId, ctx := p.ctx, pass := p.id, at_ := if p.fmt = .b32 ∨ p.fmt = .b64 then 0 else t, kb := p.kbn, bytesA, bytesB }
  let s := addTimer { s with nextId := s.nextId + 1 } (t + 1) ⟨.kBlockFold, { core, ctx := p.ctx, id := m.id }⟩
  let s := updCore s core fun u => { u with sums := u.sums ++ [m], portFree := s.cyc + cpk p.fmt }
  let s := if p.susp.rdy then updCtx s k fun c => { c with mrp := 0 } else s
  let p := { p with kbn := p.kbn + 1, z := false, folding := p.folding + 1, susp := {} }
  if p.kbn < p.kb then schedBlock s core p (s.cyc + cpk p.fmt)
  else wake (kickUnit (putPass s core p) core) k

/-- K_BLOCK_ISSUE (R203): the next K-block of the running pass fetches its operands and issues. -/
def execKBlockIssue (s : State) : Host.Outcome State Fault Refusal :=
  let core := s.subj.core
  match passOf s core s.subj.id with
  | none => .next s
  | some p =>
    if !p.runs || p.stop || p.kbn != s.subj.val || decide (s.cyc < p.due) then .next s
    else
      let k := 4 * core + p.ctx
      match fetchOperand s k p false 32 with
      | (s, a, some r) => .next (fetchFailed s core p (a, []) r)
      | (s, a, none) =>
        match fetchOperand s k p true 32 with
        | (s, b, some r) => .next (fetchFailed s core p (a, b) r)
        | (s, b, none) => .next (issueBlock (takeGiven s k) core p (a.flatMap fun r => r) (b.flatMap fun r => r))

/-! ### Suspension and service -/

/-- The suspension code of a cause. -/
def causeCode : SuspendCause → Nat
  | .notPresent => 1
  | .cxlTier => 2
  | .uncorrectable => 3

/-- PASS_SUSPEND (R206): a load pipe meets a fault on a row of the next K-block of the running pass; the rows before it have been
fetched, unless one of them meets a fault itself. -/
def execPassSuspend (s : State) : Host.Outcome State Fault Refusal :=
  let core := s.subj.core
  let row := s.subj.val
  let op := s.subj.flag
  match passOf s core s.subj.id with
  | none => .next s
  | some p =>
    if !p.runs then .next s
    else
      let k := 4 * core + p.ctx
      match fetchOperand s k p false (if op then 32 else row) with
      | (s, a, some r) => .next (fetchFailed s core p (a, []) r)
      | (s, a, none) =>
        match fetchOperand s k p true (if op then row else 0) with
        | (s, b, some r) => .next (fetchFailed s core p (a, b) r)
        | (s, b, none) =>
          let (va, _) := (blockRows op p).getD row (0, 0)
          let ia := match rangeFind { ctxOf s k with rregs := p.maps } va with | some r => rangeMap r va | none => 0
          .next (suspendPass s core p (causeCode s.subj.cause) va ia op row (if op then (a, b) else (a, [])))

/-- R206, R347: RDY is set and the pass waits to be started again. -/
def passReady (s : State) (core : Nat) (p : Pass) : State :=
  let k := 4 * core + p.ctx
  let s := updCtx s k fun c => { c with mrp := c.mrp ||| 2 }
  requeuePass s core { p with st := .waiting, susp := { p.susp with rdy := true, served := some s.cyc } }

/-- PASS_FAULT_SERVED (R206, R347): the page of a suspended pass is looked at again, from the cycle after its suspension on: served, still waited
for, or failed. -/
def execPassFaultServed (s : State) : Host.Outcome State Fault Refusal :=
  let core := s.subj.core
  match passOf s core s.subj.id with
  | none => .next s
  | some p =>
    if p.st ≠ .suspended then .next s
    else if p.susp.since = s.cyc then .next (addTimer s (s.cyc + 1) ⟨.passFaultServed, s.subj⟩)
    else if p.susp.fc = 3 then .next (passReady s core p)
    else
      let k := 4 * core + p.ctx
      let q := leadCore s core
      let asn := (ctxOf s k).asn
      let moving := s.pageIns.any fun x => x.quarter == q && x.ia == p.susp.ia / 2 ^ 16 * 2 ^ 16
      if p.susp.fc = 2 ∧ moving then .next s
      else match resolvePage s q asn p.susp.ia false with
        | (s, .ok _ _) => .next (passReady s core p)
        | (s, .wait) => .next s
        | (s, _) => .next (failPass s core p p.susp.op p.susp.row (operandFault p.susp.va p.susp.ia))

/-- PASS_ABANDON (R207): the service of a suspended pass fails. -/
def execPassAbandon (s : State) : Host.Outcome State Fault Refusal :=
  let core := s.subj.core
  match passOf s core s.subj.id with
  | none => .next s
  | some p =>
    if p.st = .suspended then
      .next (failPass s core p p.susp.op p.susp.row (operandFault p.susp.va p.susp.ia))
    else .next s

end Sys2Proof.Machine
end

