-- ==== Sys2Proof/Machine/Request.lean ====
section
/-!
DEFINITION. Requests handed to agents (R236, R259): how an instruction makes one, how it is found and changed, how it ends (R237),
and the records of the engine fault ring (R409).
-/

namespace Sys2Proof.Machine

/-! ### Making requests -/

/-- R236, R259: the executing instruction makes a request, accepted after lat cycles. -/
def request (s : State) (i : Instr) (lat : Nat) (word : Option (BitVec 17)) (args : List Nat) (job : Job) : State :=
  let c := me s
  let r : Req :=
    { id := s.nextId, key := s.at_, ins := i, pc := curPc s, slot := curSlot s, bseq := curSeq s, pl := c.pl
      word := word.map fun w => 16 * w.toNat, swo := (word.map BitVec.toNat).getD 0, args, job, exec := s.cyc
      fut := futOf c, asn := c.asn }
  addTimer { s with nextId := s.nextId + 1, reqs := s.reqs ++ [r] } (s.cyc + lat)
    ⟨.engineAcceptance, { subjOf s.at_ with id := r.id }⟩

/-- R56: a request whose agent translates virtual addresses through the range registers it was issued under. -/
def requestMapped (s : State) (i : Instr) (lat : Nat) (word : Option (BitVec 17)) (args : List Nat) : State :=
  let s' := request s i lat word args .none
  { s' with reqs := s'.reqs.map fun r => if r.id = s.nextId then { r with maps := (me s).rregs } else r }

/-- R56, R59: the intermediate address of n bytes for an engine that acts for a request, or the code of the trap its issuing unit would
raise: they lie in one range register that grants the access, and in one window that the request's level reaches. -/
def reqRange (s : State) (r : Req) (va n : Nat) (p : Perm) : Nat ⊕ Nat :=
  match rangeCheck { rregs := r.maps } va n p with
  | .trap code _ _ => .inr code
  | .ok ia => if blockOk s (r.key / 4) r.pl ia (ia + n - 1) then .inl ia else .inr 0x0B

/-- The request of the executing instruction that answers in a register: a scoreboarded result that waits for it. -/
def requestFor (s : State) (i : Instr) (lat : Nat) (word : Option (BitVec 17)) (args : List Nat) (dsts : List Reg) : State :=
  let id := s.nextId
  queue (request s i lat word args .none) dsts (.agent id) false 0

/-- R59: a request whose sync word lies outside the scratchpad. -/
def wordOutside (s : State) (sw : BitVec 17) : Bool := decide (mySp s ≤ 16 * sw.toNat)

/-! ### Finding and changing them -/

/-- The request with an id. -/
def reqOf (s : State) (id : Nat) : Option Req := s.reqs.find? fun r => r.id == id

/-- The state with a request replaced. -/
def putReq (s : State) (r : Req) : State := { s with reqs := s.reqs.map fun x => if x.id == r.id then r else x }

/-- The state with a request's job replaced. -/
def putJob (s : State) (r : Req) (j : Job) : State := putReq s { r with job := j }

/-- The task's context, wherever it stands: on its place or saved. -/
def updTask (s : State) (key : Nat) (fut : Word) (f : Ctx → Ctx) : State :=
  if futOf (ctxOf s key) = fut then updCtx s key f
  else { s with saved := s.saved.map fun (p : Nat × Ctx) => if p.1 = key ∧ futOf p.2 = fut then (p.1, f p.2) else p }

/-- The task is still live on its place or saved. -/
def taskLive (s : State) (key : Nat) (fut : Word) : Bool :=
  (futOf (ctxOf s key) == fut && (ctxOf s key).st != .free) || s.saved.any fun p => p.1 == key && futOf p.2 == fut

/-- R101: bytes read at an intermediate address for a request, with those of its context's own scratchpad that the context has stored to since as
its issue found them. -/
def asIssued (r : Req) (ia : Nat) (bs : List Byte) : List Byte :=
  if r.kept.isEmpty then bs else ((List.range bs.length).zip bs).map fun (i, b) => sget b r.kept (coreForm (r.key / 4) (ia + i))

/-! ### Ends -/

/-- What waits for a request of a context that has ended: its bundle, a task's completion, a SHOOT or HALT's save. -/
def requestGone (s : State) (k : Nat) : State :=
  let s := wake s k
  if (ctxOf s k).why = .done then addReady s ⟨.taskComplete, subjOf k⟩ else s

/-- The state without a request. -/
def dropReq (s : State) (r : Req) : State := requestGone { s with reqs := s.reqs.filter fun x => x.id != r.id } r.key

/-- R237: codes whose flag is SHORT; the others set ERR. -/
def shortCode (code : Nat) : Bool := code == 1 || code == 2 || code == 5

/-- R237: the X opcode of a request. -/
def xOpcode : Instr → Nat
  | .note .. => 0x01
  | .pull .. | .pullRank .. => 0x02
  | .pulladd .. => 0x03
  | .decl .. => 0x04
  | .wdraw .. => 0x05
  | .rcont .. => 0x10
  | .rroot .. => 0x11
  | .agload .. => 0x18
  | .agrel .. => 0x19
  | .agrun .. => 0x1A
  | .agwait .. => 0x1B
  | .rget .. => 0x20
  | .rput .. => 0x21
  | .rflush .. => 0x22
  | _ => 0

/-- R237: xst after an abnormal end. -/
def xstWord (op code ent peer swo : Nat) : Word :=
  BitVec.ofNat 64 (code + op * 2 ^ 8 + ent % 64 * 2 ^ 16 + peer % 2 ^ 12 * 2 ^ 24 + swo * 2 ^ 36)

/-- R237: the exchange status of an abnormal end; of two ends in one cycle the request accepted later keeps it. -/
def setXst (s : State) (key : Nat) (fut : Word) (acc : Nat) (w : Word) : State :=
  updTask s key fut fun c =>
    if c.xstAt.1 = s.cyc ∧ acc < c.xstAt.2 then c else { c with xst := w, xstAt := (s.cyc, acc) }

/-- R99, R237: the flag of an end's sync word. -/
def flagWord (s : State) (r : Req) (code : Nat) : State :=
  match r.word with
  | some w => if code = 0 then s else arrive s (r.key / 4) w 0 (shortCode code) (!shortCode code)
  | none => s

/-- R237: an exchange request ends with a code; ent and peer are what xst names. -/
def endX (s : State) (r : Req) (code ent peer : Nat) : State :=
  let s := if code = 0 then s else setXst (flagWord s r code) r.key r.fut r.acc (xstWord (xOpcode r.ins) code ent peer r.swo)
  dropReq s r

/-- R99: bytes counted into a request's sync word. -/
def countReq (s : State) (r : Req) (n : Nat) : State :=
  match r.word with
  | some w => arrive s (r.key / 4) w n false false
  | none => s

/-- R113, R259: an agent answers: the results of a request land. -/
def answer (s : State) (r : Req) (ws : List RegWrite) : State :=
  match (ctxOf s r.key).flights.find? (fun f => f.src == .agent r.id) with
  | some f => landFlight s r.key f ws
  | none =>
    updTask s r.key r.fut fun c =>
      match c.flights.find? (fun f => f.src == .agent r.id) with
      | some f => dropFlight (landWrites c f ws) f.id
      | none => c

/-- An agent answers with a scalar. -/
def answerS (s : State) (r : Req) (d v : Nat) : State := answer s r [{ dst := .s d, bits := v % 2 ^ 64 }]

/-- R273: a request whose check at its agent fails traps as its own instruction. -/
def reqTrap (s : State) (r : Req) (code : Nat) : State :=
  takeTrap { s with at_ := r.key } r.key
    { code, slot := r.slot, pc := r.pc, pl := r.pl, ep := (ctxOf s r.key).regs.ep, cyc := s.cyc } r.bseq

/-! ### Fault records -/

/-- R409: a record of the engine fault ring. -/
def efRecord (s : State) (cause sub core ctx addr info : Nat) : List Byte :=
  toBytes 32 (cause + sub * 2 ^ 8 + core % 2 ^ 12 * 2 ^ 16 + ctx % 4 * 2 ^ 28 + addr % 2 ^ 64 * 2 ^ 64 + info % 2 ^ 64 * 2 ^ 128
    + s.cyc % 2 ^ 64 * 2 ^ 192)

/-- R408, R429: log an engine fault in a quarter's ring. -/
def logFault (s : State) (q cause sub core ctx addr info : Nat) : State :=
  ringAppend s q efRing (efRecord s cause sub core ctx addr info)

end Sys2Proof.Machine
end

