-- ==== Sys2Proof/Machine/PortEngine.lean ====
section
/-!
DEFINITION. The port engine of a core: notices and boards (R238, R248, R249, R282 to R288), pulls (R239 to R245, R290 to R293), the
pull window and ranked admission (R241, R246, R247, R289, R383), consumer groups (R250) and XSTAT (R251).
-/

namespace Sys2Proof.Machine

/-- A step whose time the spec leaves open is enabled at once where no schedule is given. -/
def eager (s : State) (e : Event) : State := if s.schedule.isEmpty then addReady s e else s

/-! ### Boards -/

/-- R248: an entry of a core's board. -/
def boardAt (s : State) (core ent : Nat) : BoardEntry := sget {} (coreAt s core).board ent

/-- The state with a board entry changed. -/
def putBoard (s : State) (core ent : Nat) (e : BoardEntry) : State :=
  updCore s core fun u => { u with board := sins u.board ent e }

/-- R239: a freed entry's sequence number advances, and a notice held back may take it. -/
def freeEntry (s : State) (core ent : Nat) : State :=
  let e := boardAt s core ent
  eager (putBoard s core ent { seq := (e.seq + 1) % 256 }) ⟨.noticeOffer, { core }⟩

/-- The notice with an id. -/
def noticeOf (s : State) (id : Nat) : Option Notice := s.notices.find? fun n => n.id == id

/-- The state with a notice replaced. -/
def putNotice (s : State) (n : Notice) : State := { s with notices := s.notices.map fun x => if x.id == n.id then n else x }

/-- The pulls that are open: requests with their jobs. -/
def pullsOf (s : State) : List (Req × PullJob) :=
  s.reqs.filterMap fun r => match r.job with | .pull p => some (r, p) | _ => none

/-- R282: the producer a notice names. -/
def imgProd (img : Nat) : Nat := fld img 139 128

/-- Retry what the contexts of a core wait for. -/
def wakeCore (s : State) (core : Nat) : State := [0, 1, 2, 3].foldl (fun s i => wake s (4 * core + i)) s

/-- R286: a released notice leaves the outbox once its last pull has ended. -/
def sweepNotice (s : State) (id : Nat) : State :=
  match noticeOf s id with
  | some n =>
    if n.released && !n.out && !(pullsOf s).any (fun p => p.2.notice == id) then
      wakeCore { s with notices := s.notices.filter fun x => x.id != id } (n.key / 4)
    else s
  | none => s

/-- Boards that hold a notice as offered: core and entry. -/
def offeredOn (s : State) (id : Nat) : List (Nat × Nat) :=
  s.cores.flatMap fun (core, u) => (u.board.filter fun e => e.2.st == 1 && e.2.notice == id).map fun e => (core, e.1)

/-- R286: the consumers that must be served. -/
def mustServe (n : Notice) : Nat := if fld n.img 63 56 = 0 then n.members.length else fld n.img 63 56

/-- R299, R334, R335: one more consumer served is counted into the chunk record at an address of an address space, whose home slice is one
of quarter q; a record that a handler or a service of its page holds back is counted into in a later cycle. -/
def countServedAt (s : State) (q asn ia : Nat) : State :=
  let again (s : State) : State := addTimer s (s.cyc + 1) ⟨.chunkTileCount, { id := ia, val := asn, code := q, flag := true }⟩
  if lineHeld s q ia true then again s
  else match resolvePage s q asn ia true with
  | (s, .ok pa _) => soilLine (mputs s (paAddr (pa + 16)) (toBytes 16 (ofBytes (mgets s (paAddr (pa + 16)) 16) + 1))) q ia
  | (s, .wait) => again s
  | (s, _) => s

/-- R299: count one consumer served into a chunk record. -/
def countServed (s : State) (n : Notice) (ia : Nat) : State := countServedAt s (leadOf s (n.slice / 64)) n.asn ia

/-- R24, R286: bytes and a flag counted into the retention word of a notice; one whose team is out has them counted once it is back. -/
def retain (s : State) (n : Notice) (bytes : Nat) (short : Bool) : State :=
  if n.out then
    { s with notices := s.notices.map fun x => if x.id == n.id then { x with late := x.late ++ [(bytes, short)] } else x }
  else arrive s (n.key / 4) n.word bytes short false

/-- R286: a consumer is served; the serve that completes the count releases the notice. -/
def serve (s : State) (id core : Nat) : State :=
  match noticeOf s id with
  | none => s
  | some n =>
    let pos := n.members.findIdx (· == core)
    if n.served.contains pos || n.members.length ≤ pos then s
    else
      let done := !n.released && decide (mustServe n ≤ n.served.length + 1)
      let n := { n with served := n.served ++ [pos], released := n.released || done }
      let s := putNotice s n
      let s := match n.chunk with
        | some ia => countServed s n ia
        | none => if n.posted then s else retain s n (imgSize n.img) false
      if done then sweepNotice ((offeredOn s id).foldl (fun s e => freeEntry s e.1 e.2) s) id else s

/-- R242: a claimed entry is freed when the claiming request and every earlier pull on it have ended. -/
def sweepEntry (s : State) (core ent : Nat) : State :=
  let e := boardAt s core ent
  if e.st = 2 && !(pullsOf s).any (fun p => p.1.key / 4 == core && p.2.ent == ent && p.2.notice == e.notice) then
    freeEntry s core ent
  else s

/-! ### The window -/

/-- R246: admissions assigned in a core's window that have not landed. -/
def windowBusy (s : State) (core : Nat) : Bool := (pullsOf s).any fun p => p.1.key / 4 == core && p.2.assigned

/-- R246, R341: as a cycle ends, a PWIN takes effect where no admission is assigned any longer, and the next cycle is the first that uses it.
DESIGN CHOICE (log 53): base and length wait with the allocation point, so that XSTAT.win and NBCNT.elig see the old window until then. -/
def settleWindow (s : State) (core : Nat) : State :=
  match (coreAt s core).winNext with
  | some (b, n) =>
    if windowBusy s core then s
    else updCore s core fun u => { u with winBase := b, winLen := n, winAlloc := b, winNext := none, winSeen := none }
  | none => s

/-- R246: free bytes of a core's window. -/
def windowFree (u : CoreSt) : Nat := u.winBase + u.winLen - u.winAlloc

/-- R289: a core as the scheduler and the instructions of a cycle see its window: an admission changes it for the next cycle. -/
def atStart (cyc : Nat) (u : CoreSt) : CoreSt :=
  match u.winSeen with
  | some (c, a) => if c = cyc then { u with winAlloc := a } else u
  | none => u

/-- R246, R289: a core's window with n bytes given away in a cycle. -/
def allocWindow (cyc n : Nat) (u : CoreSt) : CoreSt :=
  { u with winAlloc := u.winAlloc + n, winSeen := some (cyc, (atStart cyc u).winAlloc) }

/-- PWIN.set (R246). -/
def execPwinSet (a b : Nat) (s : State) : Host.Outcome State Fault Refusal :=
  let x := (readS s a).toNat
  let n := (readS s b).toNat
  if x % 64 ≠ 0 ∨ n % 64 ≠ 0 ∨ mySp s < x + n then trap s 0x04
  else .next (updCore s (myCore s) fun u => { u with winNext := some (x, n) })

/-- PWIN.reset (R246). -/
def execPwinReset (s : State) : Host.Outcome State Fault Refusal :=
  let u := coreAt s (myCore s)
  let w := match u.winNext with | some w => w | none => (u.winBase, u.winLen)
  .next (updCore s (myCore s) fun u => { u with winNext := some w })

/-! ### Ends of pulls -/

/-- R237, R242, R286: a pull ends with a code. -/
def endPull (s : State) (r : Req) (p : PullJob) (code : Nat) : State :=
  let core := r.key / 4
  let s := updCore s core fun u => { u with flits := u.flits.filter fun f => f.pull != r.id }
  let peer := match r.ins with
    | .rget .. => r.args.getD 0 0
    | _ => match noticeOf s p.notice with | some n => imgProd n.img | none => 0
  let s := endX s r code p.ent peer
  let s := if p.claim && code != 1 then serve s p.notice core else s
  sweepNotice (sweepEntry s core p.ent) p.notice

/-- R237, R242, R288: a pull ends because its notice is withdrawn; one accepted in the same cycle, but for a ranked admission, finds no notice
and claims nothing: its entry is freed as an offered one. -/
def withdrawPull (s : State) (p : Req × PullJob) : State :=
  let core := p.1.key / 4
  if decide (p.1.accAt = s.cyc) && (match p.1.ins with | .pullRank .. => false | _ => true) then
    let s := endX s p.1 2 p.2.ent 0
    if p.2.claim ∧ (boardAt s core p.2.ent).claim = p.1.id then freeEntry s core p.2.ent else sweepEntry s core p.2.ent
  else endPull s p.1 p.2 1

/-- R245, R286: a notice is withdrawn: it leaves the boards, its pulls end, and the retention word receives SHORT. -/
def withdraw (s : State) (n : Notice) : State :=
  let on := offeredOn s n.id
  let pulls := (pullsOf s).filter fun p => p.2.notice == n.id
  let s := pulls.foldl withdrawPull (putNotice s { n with released := true })
  let s := if n.out then s else { s with notices := s.notices.filter fun x => x.id != n.id }
  let s := on.foldl (fun s e => freeEntry s e.1 e.2) s
  let s := if n.chunk.isSome || n.posted then s else retain s n 0 true
  wakeCore s (n.key / 4)

/-! ### NOTE, DECL and WDRAW -/

/-- NOTE (R238). -/
def execNote (a : Nat) (sw : BitVec 17) (v : Bool) (s : State) : Host.Outcome State Fault Refusal :=
  match noteCheck s a v with
  | .trap code va ia => trapAddr s code va ia
  | .ok args => if wordOutside s sw then trapAddr s 0x0B 0 (16 * sw.toNat) else .next (request s (.note a sw v) 3 (some sw) args .none)

/-- R287: the cycle in which a notice's timeout expires. -/
def noticeEnd (n : Notice) : Nat := n.since + 2 ^ fld n.img 151 148 * 1024

/-- R285, R287: a notice is published: it is live in its outbox, its timeout runs, and its consumers are offered it. -/
def publish (s : State) (n : Notice) : State :=
  let n := { n with id := s.nextId, since := s.cyc }
  let s := { s with nextId := s.nextId + 1, notices := s.notices ++ [n] }
  let s := addTimer s (noticeEnd n) ⟨.noticeTimeout, { core := n.key / 4, id := n.id }⟩
  n.members.foldl (fun s m => eager s ⟨.noticeOffer, { core := m, id := n.id }⟩) s

/-- R238: an accepted NOTE. -/
def acceptNote (s : State) (r : Req) : State :=
  let s := dropReq s r
  publish s { id := 0, img := r.args.getD 0 0, key := r.key, fut := r.fut, asn := r.asn, word := r.word.getD 0, members := r.args.drop 1 }

/-- R285: the consumer is named and its board has not had the notice. -/
def awaits (n : Notice) (core : Nat) : Bool :=
  !n.released && n.members.contains core && !n.seen.contains (n.members.findIdx (· == core))

/-- R285: the notice a board takes next: the one accepted first, then the lower PROD. -/
def nextNotice (s : State) (core : Nat) : Option Notice :=
  ((s.notices.filter fun n => awaits n core).mergeSort fun a b =>
    decide (a.since < b.since) || (a.since == b.since && decide (imgProd a.img ≤ imgProd b.img))).head?

/-- NOTICE_OFFER (R285, R340): a notice that finds a free entry of a consumer's board is written there. -/
def execNoticeOffer (s : State) : Host.Outcome State Fault Refusal :=
  let core := s.subj.core
  match nextNotice s core, (List.range 64).find? (fun i => (boardAt s core i).st == 0) with
  | some n, some ent =>
    let s := putBoard s core ent { boardAt s core ent with st := 1, rk := false, dst := 0, since := s.cyc, notice := n.id, claim := 0 }
    .next (putNotice s { n with seen := n.seen ++ [n.members.findIdx (· == core)] })
  | _, _ => .next s

/-- R287: the mask of consumer positions not served. -/
def unservedMask (n : Notice) : Nat :=
  ((List.range n.members.length).filter fun p => !n.served.contains p).foldl (fun m p => m ||| 2 ^ min p 63) 0

/-- NOTICE_TIMEOUT (R287, R288). -/
def execNoticeTimeout (s : State) : Host.Outcome State Fault Refusal :=
  match noticeOf s s.subj.id with
  | none => .next s
  | some n =>
    if n.released then .next s
    else
      let left := n.members.length - n.served.length
      let s := withdraw s n
      let prod := imgProd n.img
      match n.chunk with
      | some ia =>
        let s := match resolvePage s (leadOf s (n.slice / 64)) n.asn ia true with
          | (s, .ok pa _) => paPut s (pa + 4) 1 (paNum s (pa + 4) 1 ||| 8)
          | (s, _) => s
        .next (logFault s (n.slice / 64) 0x21 0 0xFFF 0 ia (imgTag n.img))
      | none =>
        if n.posted then .next (logFault s (n.slice / 64) 0x21 0 0xFFF 0 (fld n.img 119 64) (imgTag n.img))
        else if taskLive s n.key n.fut then
          let t : Trap := { code := 0x1A, p0 := BitVec.ofNat 64 (imgTag n.img), p1 := BitVec.ofNat 64 left
                            p2 := BitVec.ofNat 64 (unservedMask n) }
          .next (wake (updTask s n.key n.fut fun c => { c with async := asyncIns t c.async }) n.key)
        else .next (logFault s (quarterOf (n.key / 4)) 0x21 0 prod (n.key % 4) (fld n.img 119 64) (imgTag n.img))

/-- DECL (R244). -/
def execDecl (b : Nat) (s : State) : Host.Outcome State Fault Refusal :=
  let d := (readS s b).toNat
  if fld d 7 6 ≠ 0 then trap s 0x04 else .next (request s (.decl b) 2 none [d] .none)

/-- R288: the notice's timeout expires in this cycle, and one more serve does not complete its release: the timeout comes first. -/
def timeoutFirst (s : State) (id : Nat) : Bool :=
  match noticeOf s id with
  | some n => decide (noticeEnd n ≤ s.cyc) && decide (n.served.length + 1 < mustServe n)
  | none => false

/-- R244: an accepted DECL claims its entry, and its core counts as served. -/
def acceptDecl (s : State) (r : Req) : State :=
  let core := r.key / 4
  let ent := r.args.getD 0 0 % 64
  let e := boardAt s core ent
  if e.st ≠ 1 ∨ e.seq ≠ fld (r.args.getD 0 0) 15 8 ∨ timeoutFirst s e.notice then endX s r 2 ent 0
  else
    let s := dropReq s r
    let s := putBoard s core ent { e with st := 2, claim := r.id }
    sweepEntry (serve s e.notice core) core ent

/-- WDRAW (R245). -/
def execWdraw (b : Nat) (s : State) : Host.Outcome State Fault Refusal :=
  let d := (readS s b).toNat
  if fld d 63 32 ≠ 0 then trap s 0x04 else .next (request s (.wdraw b) 2 none [d] .none)

/-- R245: an accepted WDRAW; a released notice is none that it finds (DESIGN CHOICE, log 30). -/
def acceptWdraw (s : State) (r : Req) : State :=
  match s.notices.find? (fun n => n.key / 4 == r.key / 4 && n.chunk.isNone && !n.released && imgTag n.img == r.args.getD 0 0) with
  | some n => dropReq (withdraw s n) r
  | none => endX s r 2 0 0

/-! ### Pulls -/

/-- R74: elements in n bytes of a format, where they are whole. -/
def wholeElems (f : Fmt) (n : Nat) : Option Nat :=
  let g := fmtBytes f
  if n % g = 0 then some (if f = .t6 then n / 3 * 4 else n / g) else none

/-- R240: a conversion between two formats is called for. -/
def converts (a b : Fmt) : Bool := a != .raw && b != .raw && a != b

/-- R74: the bytes n source bytes become. -/
def convBytes (a b : Fmt) (n : Nat) : Nat :=
  match wholeElems a n with
  | some k => zLen b k
  | none => n

/-- R74: the conversion is forbidden. -/
def convForbidden (a b : Fmt) (n : Nat) : Bool := (wholeElems a n).isNone || a == .bx8 || b == .bx8

/-- R290: the row and column of a core on its die. -/
def meshAt (core : Nat) : Nat × Nat := (core % 8, core / 8 % 12)

/-- R290: the ingress link of a block: 0 local, 1 N, 2 E, 3 S, 4 W. -/
def linkOf (core ia : Nat) : Nat :=
  match windowOf core ia with
  | .scratch q _ =>
    if q = core then 0
    else if dieOf q ≠ dieOf core then 1
    else
      let (r, c) := meshAt core
      let (r', c') := meshAt q
      if r' < r then 1 else if r < r' then 3 else if c' < c then 4 else 2
  | _ => 1

/-- R51: the format of the bank a scratchpad offset lies in. -/
def destFmt (s : State) (core off : Nat) : Fmt := bankFmt (bankCode s core (off / 32768))

/-- R240: destination bytes lie in banks of different formats. -/
def banksDiffer (s : State) (core off n : Nat) : Bool :=
  (List.range ((off % 32768 + n + 32767) / 32768)).any fun i =>
    bankCode s core (off / 32768 + i) != bankCode s core (off / 32768)

/-- R282: the format of a notice's block. -/
def imgFmt (img : Nat) : Fmt := bankFmt (fld img 147 144)

/-- R240: the pull of bytes off to off + n − 1 of a notice into a core's scratchpad, or the code with which it ends. -/
def pullJob (s : State) (core : Nat) (nt : Notice) (ent off len n dst : Nat) (add claim : Bool) : Nat ⊕ PullJob :=
  let sf := imgFmt nt.img
  let df := destFmt s core dst
  let conv := !add && converts sf df
  let dn := min (if conv then convBytes sf df n else n) (spSize s core - dst)
  if spSize s core < dst + n then .inl 3
  else if conv && (off != 0 || len != 0 || convForbidden sf df n) then .inl 4
  else if sf != .raw && banksDiffer s core dst dn then .inl 4
  else
    let ef := if df = .raw then sf else df
    let g := fmtBytes ef
    if add && (ef == .raw || converts sf df || off % g != 0 || n % g != 0 || dst % g != 0) then .inl 4
    else
      .inr { notice := nt.id, ent, ia := fld nt.img 119 64, asn := nt.asn, base := off, n, dst, srcF := sf
             dstF := if add then ef else df, conv, add, claim, link := linkOf core (fld nt.img 119 64) }

/-- R289: the destination size of a notice at an offset, rounded up to 64. -/
def roundedSize (s : State) (core dst : Nat) (img : Nat) : Nat :=
  let n := imgSize img
  let sf := imgFmt img
  let df := destFmt s core dst
  ((if converts sf df then convBytes sf df n else n) + 63) / 64 * 64

/-- R240, R243: the checks of PULL and PULLADD at execution. -/
def pullCheck (s : State) (a b : Nat) : Option (Nat × Nat) :=
  let x := (readS s a).toNat
  if fld (readS s b).toNat 7 6 ≠ 0 ∨ x % 64 ≠ 0 then some (0x04, 0)
  else if mySp s ≤ x then some (0x0B, spAddr (myCore s) x)
  else none

/-- PULL and PULLADD (R240, R243). -/
def execPullOf (i : Instr) (a b : Nat) (sw : BitVec 17) (s : State) : Host.Outcome State Fault Refusal :=
  match pullCheck s a b with
  | some (code, ia) => trapAddr s code 0 ia
  | none =>
    if wordOutside s sw then trapAddr s 0x0B 0 (16 * sw.toNat)
    else .next (request s i 2 (some sw) [(readS s a).toNat, (readS s b).toNat] .none)

/-- PULL (R240). -/
def execPull (a b : Nat) (sw : BitVec 17) (last : Bool) (s : State) : Host.Outcome State Fault Refusal :=
  execPullOf (.pull a b sw last) a b sw s

/-- PULLADD (R243). -/
def execPulladd (a b : Nat) (sw : BitVec 17) (last : Bool) (s : State) : Host.Outcome State Fault Refusal :=
  execPullOf (.pulladd a b sw last) a b sw s

/-- R240, R242, R243, R383: an accepted PULL or PULLADD. -/
def acceptPull (s : State) (r : Req) (add claim : Bool) : State :=
  let core := r.key / 4
  let u := coreAt s core
  let d := r.args.getD 1 0
  let ent := d % 64
  let off := fld d 39 16
  let len := fld d 63 40
  let e := boardAt s core ent
  match (if e.st = 1 ∧ e.seq = fld d 15 8 then noticeOf s e.notice else none) with
  | none => endX s r 2 ent 0
  | some nt =>
    let size := imgSize nt.img
    let prod := imgProd nt.img
    if size ≤ off ∨ off % 64 ≠ 0 then endX s r 3 ent prod
    else
      let n := if len = 0 then size - off else min len (size - off)
      let x := r.args.getD 0 0
      let inWin := !add && modeBit s (leadCore s core) 4 && decide (u.winBase ≤ x) && decide (x < u.winBase + u.winLen)
      let dst := if inWin then u.winAlloc else x
      let sf := imgFmt nt.img
      let room := ((if !add && converts sf (destFmt s core dst) then convBytes sf (destFmt s core dst) n else n) + 63) / 64 * 64
      match pullJob s core nt ent off len n dst add claim with
      | .inl code => endX s r (if inWin && windowFree u < room then 3 else code) ent prod
      | .inr p =>
        if inWin && (decide (windowFree u < room) || u.winNext.isSome) then endX s r 3 ent prod
        else
          let s := putJob s r (.pull { p with assigned := inWin })
          let s := if claim then putBoard s core ent { e with st := 2, claim := r.id } else s
          if inWin then updCore s core (allocWindow s.cyc room) else s

/-! ### Ranked admission -/

/-- PULL.rank (R241). -/
def execPullRank (b : Nat) (sw : BitVec 17) (s : State) : Host.Outcome State Fault Refusal :=
  let n := (readS s b).toNat
  if modeBit s (myLead s) 4 || n = 0 || 64 < n then trap s 0x04
  else if wordOutside s sw then trapAddr s 0x0B 0 (16 * sw.toNat)
  else .next (request s (.pullRank b sw) 2 (some sw) [n] .none)

/-- R241: an accepted PULL.rank gives credits; those beyond 64 are discarded. -/
def acceptRank (s : State) (r : Req) : State :=
  let c : Credit := { key := r.key, word := r.word.getD 0, swo := r.swo, fut := r.fut }
  dropReq (updCore s (r.key / 4) fun u => { u with credits := (u.credits ++ List.replicate (r.args.getD 0 0) c).take 64 }) r

/-- R291, R355: the budget of a core in this cycle: a new one applies from the start of the next pacing window. -/
def budNow (s : State) (u : CoreSt) : Nat := if s.cyc / 64 < u.budFrom then u.budOld else u.bud

/-- R291: remaining budget of an ingress link of a core in this cycle. -/
def linkLeft (s : State) (core link : Nat) : Nat :=
  let u := coreAt s core
  if link = 0 then 4096 else if u.budWin = s.cyc / 64 then u.budLeft.getD (link - 1) (budNow s u) else budNow s u

/-- PACING_WINDOW_START (R291): each paced link of a core has BUD bytes. -/
def execPacingWindowStart (s : State) : Host.Outcome State Fault Refusal :=
  .next (updCore s s.subj.core fun u => { u with budWin := s.cyc / 64, budLeft := List.replicate 4 (budNow s u) })

/-- R248: the age of an entry. -/
def ageOf (s : State) (e : BoardEntry) : Nat := min (s.cyc - e.since) 0xFFFFFFFF

/-- R289: one key field of an entry, smaller first. -/
def rankField (s : State) (core : Nat) (e : BoardEntry) (img code : Nat) : Nat :=
  match code with
  | 0 => 7 - fld img 142 140
  | 1 => roundedSize s core (atStart s.cyc (coreAt s core)).winAlloc img
  | 2 => 4096 - linkLeft s core (linkOf core (fld img 119 64))
  | 3 => 0xFFFFFFFF - ageOf s e
  | _ => imgProd img

/-- Lexicographic order of equally long lists. -/
def lexLe : List Nat → List Nat → Bool
  | a :: as, b :: bs => decide (a < b) || (a == b && lexLe as bs)
  | _, _ => true

/-- R289: the rank key of an entry, in the order RKSET sets, with its index last. -/
def rankKey (s : State) (core ent : Nat) (e : BoardEntry) (img : Nat) : List Nat :=
  let u := coreAt s core
  let order := if u.rankAt = s.cyc then u.rankOld else u.rank
  ((List.range 5).map fun i => rankField s core e img (fld order (3 * i + 2) (3 * i))) ++ [ent]

/-- R241, R289, R340: entries of a core offered before this cycle whose rounded destination size fits the window. -/
def eligible (s : State) (core : Nat) : List (Nat × BoardEntry × Notice) :=
  let u := atStart s.cyc (coreAt s core)
  u.board.filterMap fun (ent, e) =>
    match (if e.st = 1 ∧ e.since < s.cyc then noticeOf s e.notice else none) with
    | some n => if roundedSize s core u.winAlloc n.img ≤ windowFree u then some (ent, e, n) else none
    | none => none

/-- R292, R342: an admitted pull may issue its first request in the cycle of its admission, in the one step the engine has in a cycle. -/
def startPulls (s : State) (core : Nat) : State :=
  if s.ready.any (fun e => e.ev == .pullRequestIssue && e.subj.core == core) then s
  else addReady s ⟨.pullRequestIssue, { core }⟩

/-- R241, R289: the core may make a ranked admission. -/
def mayAdmit (s : State) (core : Nat) : Bool :=
  let u := coreAt s core
  !u.credits.isEmpty && u.winLen != 0 && u.winNext.isNone && !modeBit s (leadCore s core) 4

/-- RANKED_ADMISSION (R241, R289, R341): the scheduler admits the best-ranked eligible notice with the oldest credit. -/
def execRankedAdmission (s : State) : Host.Outcome State Fault Refusal :=
  let core := s.subj.core
  let u := coreAt s core
  let best := ((eligible s core).map fun (ent, e, n) => (rankKey s core ent e n.img, ent, e, n)).mergeSort fun a b => lexLe a.1 b.1
  match (if mayAdmit s core then best.head? else none), u.credits with
  | some (_, ent, e, n), c :: cs =>
    let s := updCore s core fun u => { u with credits := cs }
    let r : Req :=
      { id := s.nextId, key := c.key, ins := .pullRank 0 (BitVec.ofNat 17 c.swo), word := some c.word, swo := c.swo, exec := s.cyc
        accepted := true, acc := s.nextId, accAt := s.cyc, fut := c.fut }
    let s := { s with nextId := s.nextId + 1, reqs := s.reqs ++ [r] }
    match pullJob s core n ent 0 0 (imgSize n.img) u.winAlloc false true with
    | .inl code => .next (endX s r code ent (imgProd n.img))
    | .inr p =>
      let s := putJob s r (.pull { p with assigned := true })
      let s := putBoard s core ent { e with st := 2, rk := true, dst := (u.winAlloc - u.winBase) / 64, claim := r.id }
      .next (startPulls (updCore s core (allocWindow s.cyc (roundedSize s core u.winAlloc n.img))) core)
  | _, _ => .next s

/-! ### Requests and flits -/

/-- R292: bytes of a pull that can be asked for: those of the block, or of a remote get the bytes that have come back. -/
def askable (r : Req) (p : PullJob) : Nat :=
  match r.ins with
  | .rget .. => min p.n r.data.length
  | _ => p.n

/-- R293: the flits of a request of n bytes from an offset on. -/
def flitsFrom (id link : Nat) (off n : Nat) : List Flit :=
  (List.range ((n + 63) / 64)).map fun i => { pull := id, off := off + 64 * i, len := min 64 (n - 64 * i), link }

/-- R292: the next request of a pull: its size, where its link's budget has room. -/
def nextAsk (s : State) (core : Nat) (r : Req) (p : PullJob) : Option Nat :=
  let n := min (min 4096 (budNow s (coreAt s core))) (askable r p - p.asked)
  if n = 0 || r.cancel then none else if p.link = 0 ∨ n ≤ linkLeft s core p.link then some n else none

/-- PULL_REQUEST_ISSUE (R292): the next request of the oldest pull of a core that can issue. -/
def execPullRequestIssue (s : State) : Host.Outcome State Fault Refusal :=
  let core := s.subj.core
  let ps := ((pullsOf s).filter fun p => p.1.key / 4 == core).mergeSort fun a b => decide (a.1.acc ≤ b.1.acc)
  match ps.findSome? (fun (r, p) => (nextAsk s core r p).map fun n => (r, p, n)) with
  | none => .next s
  | some (r, p, n) =>
    let left := (List.range 4).map fun i => linkLeft s core (i + 1) - (if p.link = i + 1 then n else 0)
    let s := putJob s r (.pull { p with asked := p.asked + n })
    .next (updCore s core fun u =>
      { u with budWin := s.cyc / 64, budLeft := left, flits := u.flits ++ flitsFrom r.id p.link p.asked n })

/-- The bytes of a block from an intermediate address on, or the first trouble met. -/
def blockBytes (core asn : Nat) : Nat → Nat → State → State × (List Byte ⊕ ByteEnd)
  | 0, _, s => (s, .inl [])
  | n + 1, ia, s =>
    match readIa s core asn ia with
    | (s, .ok b) =>
      match blockBytes core asn n (ia + 1) s with
      | (s, .inl bs) => (s, .inl (b :: bs))
      | r => r
    | (s, e) => (s, .inr e)

/-- R334: the bytes of a block, for an engine acting for a context, once no slice holds back a line of it. -/
def readBlock (k asn n ia : Nat) (s : State) : State × (List Byte ⊕ ByteEnd) :=
  match reachLines s k asn false false (pagedOnly (k / 4) (linesOf ia n)) with
  | (s, true) => (s, .inr .wait)
  | (s, false) => blockBytes (k / 4) asn n ia s

/-- R101: the bytes of a block as a request reads them. -/
def readFor (r : Req) (n ia : Nat) (s : State) : State × (List Byte ⊕ ByteEnd) :=
  match readBlock r.key r.asn n ia s with
  | (s, .inl bs) => (s, .inl (asIssued r ia bs))
  | x => x

/-- The state with bytes written into a core's scratchpad by an engine. -/
def spPut (s : State) (core off : Nat) (bs : List Byte) : State := mputs s (spAddr core off) bs

/-- R59, R415: bytes of a core's scratchpad that an engine acting for a core may reach. -/
def spReached (s : State) (core c off n : Nat) : Bool := coreReached s (quarterOf core) c && decide (off + n ≤ spSize s c)

/-- R24, R59, R237, R240: bytes of a pull's block from its byte o on: from the image of the producer's team where that is out, from storage else. -/
def pullBytes (s : State) (r : Req) (p : PullJob) (o n : Nat) : State × (List Byte ⊕ ByteEnd) :=
  match (noticeOf s p.notice).filter fun x => x.out && !x.block.isEmpty with
  | some x => (s, .inl ((x.block.drop o).take n))
  | none =>
    match windowOf (r.key / 4) (p.ia + o) with
    | .scratch c off => if spReached s (r.key / 4) c off n then readFor { r with asn := p.asn } n (p.ia + o) s else (s, .inr (.fail 0x0B))
    | _ => readFor { r with asn := p.asn } n (p.ia + o) s

/-- R72, R74: k elements of a format as bytes of another. -/
def convertBytes (a b : Fmt) (k : Nat) (bs : List Byte) : List Byte :=
  packArray b ((List.range k).map fun i => convertNum a b (arrayElem a bs i))

/-- R73, R243: elements added into a core's scratchpad. -/
def addBytes (s : State) (core off : Nat) (f : Fmt) (bs : List Byte) : State :=
  let k := (wholeElems f bs.length).getD 0
  let old := spGets s core off bs.length
  spPut s core off (packArray f ((List.range k).map fun i => addNum f (arrayElem f old i) (arrayElem f bs i)))

/-- R240, R243, R293: source bytes up to hi have landed: those of whole elements are placed; bytes counted. -/
def placeBytes (s : State) (core : Nat) (p : PullJob) (bs : List Byte) : State × Nat :=
  if p.conv then
    let k := (wholeElems p.srcF bs.length).getD 0
    let out := convertBytes p.srcF p.dstF k bs
    (spPut s core (p.dst + convBytes p.srcF p.dstF p.placed) out, out.length)
  else if p.add then (addBytes s core (p.dst + p.placed) p.dstF bs, bs.length)
  else (spPut s core (p.dst + p.placed) bs, bs.length)

/-- Bytes of a converted or added pull go in whole elements of its format. -/
def pullGrain (p : PullJob) : Nat := if p.conv then fmtBytes p.srcF else if p.add then fmtBytes p.dstF else 1

/-- R59, R258: a pull after a flit: its end, normal, with a window fault where it has grown past SPSIZE, or cancelled once what it asked for
has landed. -/
def afterFlit (s : State) (r : Req) (p : PullJob) : State :=
  if p.landed = p.n then endPull s r p 0
  else if r.cancel && p.landed == p.asked then endPull s r p 5
  else putJob s r (.pull p)

/-- R59, R74: a converted pull whose bytes up to a source offset pass SPSIZE. -/
def pullOutside (s : State) (core : Nat) (p : PullJob) (hi : Nat) : Bool :=
  p.conv && decide (spSize s core < p.dst + convBytes p.srcF p.dstF hi)

/-- FLIT_LANDING (R293): the first flit under way on a link of a core lands: its bytes perform and are counted. -/
def execFlitLanding (s : State) : Host.Outcome State Fault Refusal :=
  let core := s.subj.core
  match (coreAt s core).flits.find? (fun f => f.link == s.subj.val) with
  | none => .next s
  | some f =>
    let gone (s : State) : State :=
      updCore s core fun u => { u with flits := u.flits.filter fun g => g != f }
    match (pullsOf s).find? (fun p => p.1.id == f.pull) with
    | none => .next (gone s)
    | some (r, p) =>
      let hi := (f.off + f.len) / pullGrain p * pullGrain p
      let hi := if f.off + f.len = p.n then p.n else hi
      let got : State × (List Byte ⊕ ByteEnd) :=
        match r.ins with
        | .rget .. => (s, .inl ((r.data.drop p.placed).take (hi - p.placed)))
        | _ => pullBytes s r p (p.base + p.placed) (hi - p.placed)
      match got with
      | (s, .inr .wait) => .next s
      | (s, .inr _) => .next (endPull (gone s) r p 6)
      | (s, .inl bs) =>
        if pullOutside s core p hi then .next (endPull (gone s) r p 6)
        else
          let (s, n) := placeBytes (gone s) core p bs
          .next (afterFlit (countReq s r n) r { p with landed := f.off + f.len, placed := hi })

/-! ### The board, the rank order and groups -/

/-- R248: the status word of a board entry. -/
def boardStatus (s : State) (e : BoardEntry) : Nat :=
  e.st + e.rk.toNat * 2 ^ 2 + e.seq * 2 ^ 8 + e.dst * 2 ^ 16 + (if e.st = 0 then 0 else ageOf s e) * 2 ^ 32

/-- NBRD (R248). -/
def execNbrd (d a w : Nat) (s : State) : Host.Outcome State Fault Refusal :=
  let e := boardAt s (myCore s) ((readS s a).toNat % 64)
  let v := if w = 4 then boardStatus s e
    else match (if e.st = 0 then none else noticeOf s e.notice) with
      | some n => n.img / 2 ^ (64 * w)
      | none => 0
  .next (boardS s d (BitVec.ofNat 64 v))

/-- NBCNT (R249). -/
def execNbcnt (d : Nat) (sel : BoardSel) (s : State) : Host.Outcome State Fault Refusal :=
  let u := coreAt s (myCore s)
  let n := match sel with
    | .used => (u.board.filter fun e => e.2.st != 0).length
    | .off => (u.board.filter fun e => e.2.st == 1).length
    | .elig => (eligible s (myCore s)).length
  .next (boardS s d (BitVec.ofNat 64 n))

/-- NBFIND (R249). -/
def execNbfind (d a b : Nat) (any : Bool) (s : State) : Host.Outcome State Fault Refusal :=
  let tag := (readS s a).toNat % 2 ^ 32
  let prod := (readS s b).toNat % 2 ^ 12
  let hit := (coreAt s (myCore s)).board.find? fun (_, e) =>
    e.st == 1 && match noticeOf s e.notice with
      | some n => imgTag n.img == tag && (any || imgProd n.img == prod)
      | none => false
  .next (boardS s d (match hit with
    | some (ent, e) => BitVec.ofNat 64 (ent + e.seq * 2 ^ 8)
    | none => BitVec.allOnes 64))

/-- RKSET (R247). -/
def execRkset (a : Nat) (s : State) : Host.Outcome State Fault Refusal :=
  let v := (readS s a).toNat
  let codes := (List.range 5).map fun i => fld v (3 * i + 2) (3 * i)
  if 2 ^ 15 ≤ v ∨ !(List.range 5).all codes.contains then trap s 0x04
  else .next (updCore s (myCore s) fun u =>
    { u with rank := v, rankOld := if u.rankAt = s.cyc then u.rankOld else u.rank, rankAt := s.cyc })

/-- R250, R284: a new group takes a free index, where the table has room for it.  DESIGN CHOICE (log 10): it takes the lowest; the spec does
not say which. -/
def newGroup (s : State) (q : Nat) (ms : List Nat) : State × Option Nat :=
  let n := partQuarters s q
  let live := s.groups.filter fun g => g.1 / 4096 == q && g.2.live
  let used := (live.map fun g => g.2.members.length).sum
  if ms.any (fun m => !coreReached s q m) || ms.eraseDups.length != ms.length || decide (16384 * n < used + ms.length) then (s, none)
  else match (List.range (1024 * n)).find? (fun i => !(groupAt s q i).live) with
    | none => (s, none)
    | some i =>
      let g := groupAt s q i
      ({ s with groups := sins s.groups (4096 * q + i) { g with live := true, members := ms } }, some (i + g.gen * 2 ^ 12))

/-- NGRP.new (R250). -/
def execNgrpNew (d a b : Nat) (s : State) : Host.Outcome State Fault Refusal :=
  let off := (readS s a).toNat
  let n := (readS s b).toNat
  if n = 0 ∨ 1152 < n ∨ off % 2 ≠ 0 then trap s 0x04
  else if mySp s < off + 2 * n then trapAddr s 0x0B 0 (spAddr (myCore s) off)
  else
    let ms := (List.range n).map fun i => spNum s (myCore s) (off + 2 * i) 2
    match newGroup s (myLead s) ms with
    | (s, some h) => .next (boardS s d (BitVec.ofNat 64 h))
    | (s, none) => .next (boardS s d (BitVec.allOnes 64))

/-- NGRP.free (R250, R284). -/
def execNgrpFree (d a : Nat) (s : State) : Host.Outcome State Fault Refusal :=
  let h := (readS s a).toNat % 2 ^ 16
  match groupMembers s (myLead s) h with
  | none => .next (boardS s d (BitVec.allOnes 64))
  | some _ =>
    let g := groupAt s (myLead s) h
    let s := { s with groups := sins s.groups (4096 * myLead s + h % 4096) { gen := (g.gen + 1) % 16 } }
    .next (boardS s d 0)

/-- XSTAT (R251). -/
def execXstat (d : Nat) (sel : XStatSel) (s : State) : Host.Outcome State Fault Refusal :=
  let c := me s
  let u := atStart s.cyc (coreAt s (myCore s))
  match sel with
  | .st => .next (boardS s d c.xst)
  | .clr => .next (updMe (boardS s d c.xst) fun c => { c with xst := 0 })
  | .cred => .next (boardS s d (BitVec.ofNat 64 u.credits.length))
  | .win => .next (boardS s d (BitVec.ofNat 64 (windowFree u + u.winAlloc * 2 ^ 32)))
  | .miss => .next (boardS s d c.miss)

end Sys2Proof.Machine
end

