-- ==== Sys2Proof/Machine/Trees.lean ====
section
/-!
DEFINITION. Reduction trees (R252 to R254, R258, R294, R295).
-/

namespace Sys2Proof.Machine

/-- The trees that are open or awaiting their result: requests with their jobs. -/
def treesOf (s : State) : List (Req × TreeJob) :=
  s.reqs.filterMap fun r => match r.job with | .tree t => some (r, t) | _ => none

/-- R252: an accepted tree of a root and tag that is open. -/
def openTree (s : State) (root tag : Nat) : Option (Req × TreeJob) :=
  (treesOf s).find? fun (r, t) => r.accepted && !t.closed && t.root == root && t.tag == tag

/-! ### RROOT and RCONT -/

/-- RROOT (R253). -/
def execRroot (a b : Nat) (sw : BitVec 17) (s : State) : Host.Outcome State Fault Refusal :=
  match rrootCheck s a b with
  | .trap code va ia => trapAddr s code va ia
  | .ok xs =>
    if wordOutside s sw then trapAddr s 0x0B 0 (16 * sw.toNat)
    else
      let t : TreeJob :=
        { root := myCore s, tag := xs.getD 0 0, op := xs.getD 1 0, len := xs.getD 2 0, shp := xs.getD 3 0, dst := xs.getD 5 0
          members := xs.drop 6 }
      .next (request s (.rroot a b sw) 2 (some sw) [(readS s b).toNat, xs.getD 4 0] (.tree t))

/-- R254: a held contribution joins a tree that has opened. -/
def sendHeld (root tag tree : Nat) (s : State) (r : Req) : State :=
  match r.ins with
  | .rcont .. =>
    if r.accepted && r.args.getD 3 0 == 0 && fld (r.args.getD 1 0) 27 16 == root && r.args.getD 1 0 % 2 ^ 16 == tag then
      eager (putReq s { r with args := r.args.take 3 ++ [tree] }) ⟨.treeContribution, { subjOf r.key with id := r.id }⟩
    else s
  | _ => s

/-- R253, R254, R295: an accepted RROOT: its timeout runs, and contributions held for its root and tag join. -/
def acceptRroot (s : State) (r : Req) (t : TreeJob) : State :=
  let s := addTimer s (s.cyc + 2 ^ r.args.getD 1 0 * 1024 + 1) ⟨.treeClose, { subjOf r.key with id := r.id }⟩
  s.reqs.foldl (sendHeld t.root t.tag r.id) s

/-- RCONT (R254): operands are the offset, the descriptor, the core, and the tree it is sent to. -/
def execRcont (a b : Nat) (sw : BitVec 17) (s : State) : Host.Outcome State Fault Refusal :=
  let off := (readS s a).toNat
  let d := (readS s b).toNat
  let root := fld d 27 16
  if fld d 31 28 ≠ 0 ∨ fld d 63 48 ≠ 0 ∨ off % 4 ≠ 0 ∨ !coreReached s (myLead s) root ∨ dieOf root ≠ dieOf (myCore s) then trap s 0x04
  else if mySp s < off + fld d 43 32 then trapAddr s 0x0B 0 (spAddr (myCore s) off)
  else if wordOutside s sw then trapAddr s 0x0B 0 (16 * sw.toNat)
  else .next (request s (.rcont a b sw) 2 (some sw) [off, d, myCore s] .none)

/-- R254: an accepted RCONT reads its bytes; it is sent to the open tree of its root and tag, or held. -/
def acceptRcont (s : State) (r : Req) : State :=
  let d := r.args.getD 1 0
  let r := { r with data := asIssued r (r.args.getD 0 0) (spGets s (r.key / 4) (r.args.getD 0 0) (fld d 43 32)) }
  let s := putReq s r
  match openTree s (fld d 27 16) (d % 2 ^ 16) with
  | some (t, j) => sendHeld j.root j.tag t.id s r
  | none => s

/-- R258: the root of a contribution, as xst names it. -/
def contRoot (r : Req) : Nat := fld (r.args.getD 1 0) 27 16

/-- TREE_CONTRIBUTION (R254, R295, R343): the first router takes a contribution. -/
def execTreeContribution (s : State) : Host.Outcome State Fault Refusal :=
  match reqOf s s.subj.id with
  | none => .next s
  | some r =>
    let d := r.args.getD 1 0
    match (treesOf s).find? (fun p => p.1.id == r.args.getD 3 0) with
    | none => .next (endX s r 7 0 (contRoot r))
    | some (q, t) =>
      let pos := t.members.findIdx (· == r.key / 4)
      if t.closed then .next (endX s r 7 0 (contRoot r))
      else if t.members.length ≤ pos || t.len != fld d 43 32 || t.op != fld d 47 44 || t.leaves.any (fun e => e.1 == pos) then
        .next (endX s r 8 0 (contRoot r))
      else
        let t := { t with leaves := sins t.leaves pos r.data }
        let s := endX (countReq (putJob s q (.tree t)) r t.len) r 0 0 0
        .next (if t.leaves.length = t.members.length then addTimer s (s.cyc + 1) ⟨.treeClose, { subjOf q.key with id := q.id }⟩ else s)

/-! ### Combining -/

/-- R252, R294: the operation of a tree on two 4-byte elements. -/
def combine (op x y : Nat) : Nat :=
  let f (g : Num → Num → Num) : Nat := encodeNum .b32 false (g (decodeNum .b32 x) (decodeNum .b32 y))
  match op with
  | 0 => f Num.add
  | 1 => (x + y) % 2 ^ 32
  | 2 => f Num.max
  | _ => f Num.min

/-- R294: combining with absent leaves skipped. -/
def comb (op : Nat) : Option Nat → Option Nat → Option Nat
  | some x, some y => some (combine op x y)
  | some x, none => some x
  | none, y => y

/-- R294: one level of pairs. -/
def pairLevel (op : Nat) : List (Option Nat) → List (Option Nat)
  | x :: y :: r => comb op x y :: pairLevel op r
  | r => r

/-- R294: one level of fours. -/
def fourLevel (op : Nat) : List (Option Nat) → List (Option Nat)
  | a :: b :: c :: d :: r => comb op (comb op (comb op a b) c) d :: fourLevel op r
  | r => r

/-- R294: the result of one element from its 64 leaves. -/
def treeElem (shp op : Nat) (ls : List (Option Nat)) : Nat :=
  let t := if shp = 0 then (List.range 6).foldl (fun t _ => pairLevel op t) ls
    else (List.range 3).foldl (fun t _ => fourLevel op t) ls
  match t.getD 0 none with
  | some x => x
  | none => match op with | 0 | 1 => 0 | 2 => 0xFF800000 | _ => 0x7F800000

/-- R294: the bytes of a tree's result. -/
def treeResult (t : TreeJob) : List Byte :=
  (List.range (t.len / 4)).flatMap fun i =>
    toBytes 4 (treeElem t.shp t.op ((List.range 64).map fun p =>
      (t.leaves.find? fun e => e.1 == p).map fun e => ofBytes ((e.2.drop (4 * i)).take 4)))

/-- TREE_CLOSE (R295): the tree closes; its result lands later. -/
def execTreeClose (s : State) : Host.Outcome State Fault Refusal :=
  match (treesOf s).find? (fun p => p.1.id == s.subj.id) with
  | none => .next s
  | some (r, t) =>
    if t.closed then .next s
    else .next (wakeCore (eager (putJob s r (.tree { t with closed := true })) ⟨.treeResultLand, s.subj⟩) t.root)

/-- R253: member positions without a contribution. -/
def missingMask (t : TreeJob) : Nat :=
  ((List.range t.members.length).filter fun p => !t.leaves.any fun e => e.1 == p).foldl (fun m p => m + 2 ^ p) 0

/-- TREE_RESULT_LAND (R253, R344): the result lands at the root and is counted; missing members are reported. -/
def execTreeResultLand (s : State) : Host.Outcome State Fault Refusal :=
  match (treesOf s).find? (fun p => p.1.id == s.subj.id) with
  | none => .next s
  | some (r, t) =>
    if !t.closed then .next s
    else
      let s := countReq (spPut s t.root t.dst (treeResult t)) r t.len
      let m := missingMask t
      if m = 0 then .next (endX s r 0 0 0)
      else
        let s := endX s r 7 0 t.root
        let x : Trap := { code := 0x1B, p0 := BitVec.ofNat 64 m, p1 := BitVec.ofNat 64 (r.args.getD 0 0) }
        .next (wake (updTask s r.key r.fut fun c => { c with miss := BitVec.ofNat 64 m, async := asyncIns x c.async }) r.key)

end Sys2Proof.Machine
end

