-- ==== Sys2Proof/Machine/EngineIo.lean ====
section
/-!
DEFINITION. How engines reach bytes beyond a scratchpad (R101, R217, R266): pieces of storage found page by page, read and written.
-/

namespace Sys2Proof.Machine

/-- What finding bytes answers: the places of every copy of them, each a list of storage pieces; a wait; or a fault. -/
inductive Spots where
  | ok (copies : List (List (Nat × Nat)))
  | wait
  | fail (code : Nat)
deriving DecidableEq, Repr

/-- R266: the storage of n bytes at an intermediate address, page by page (fuel counts pages). -/
def pagedSpots (q asn : Nat) (write : Bool) : Nat → Nat → Nat → State → State × Spots
  | 0, _, _, s => (s, .ok [[]])
  | fuel + 1, ia, n, s =>
    if n = 0 then (s, .ok [[]])
    else
      let m := min n (2 ^ 16 - ia % 2 ^ 16)
      match resolvePage s q asn ia write with
      | (s, .ok pa _) =>
        match pagedSpots q asn write fuel (ia + m) (n - m) s with
        | (s, .ok (ps :: _)) => (s, .ok [(paAddr pa, m) :: ps])
        | r => r
      | (s, .wait) => (s, .wait)
      | (s, .range) => (s, .fail 0x09)
      | (s, .protection) => (s, .fail 0x0A)
      | (s, .pageFault) => (s, .fail 0x0C)

/-- R59, R334: the storage of n bytes at an intermediate address, for an engine acting for a context and an address space.  DESIGN CHOICE (log
31): a chunk of a graph run may write the multicast window, as a copy engine may (R58), and one that meets a control, slice or notify window
faults at every privilege level. -/
def spots (s : State) (k asn ia n : Nat) (write : Bool) : State × Spots :=
  let core := k / 4
  match windowOf core ia with
  | .scratch c off => (s, if spReached s core c off n then .ok [[(spAddr c off, n)]] else .fail 0x0B)
  | .mcast g off =>
    (s, if write && (List.range 8).all fun i => spReached s core (8 * g + i) off n then
        .ok ((List.range 8).map fun i => [(spAddr (8 * g + i) off, n)])
      else .fail 0x0B)
  | .memory | .cxl =>
    match reachLines s k asn false write (linesOf ia n) with
    | (s, true) => (s, .wait)
    | (s, false) =>
      match pagedSpots (leadCore s core) asn write (n / 2 ^ 16 + 2) ia n s with
      | (s, .ok cs) => (if write then (linesOf ia n).foldl (fun s a => soilLine s (leadCore s core) a) s else s, .ok cs)
      | r => r
  | _ => (s, .fail 0x0B)

/-- Bytes of storage pieces. -/
def readSpots (s : State) (ps : List (Nat × Nat)) : List Byte := ps.flatMap fun (a, n) => mgets s a n

/-- The state with bytes written over storage pieces. -/
def writeSpots : State → List (Nat × Nat) → List Byte → State
  | s, [], _ => s
  | s, (a, n) :: ps, bs => writeSpots (mputs s a (bs.take n)) ps (bs.drop n)

/-- R101: bytes of storage pieces as a request reads them: one of its context's own scratchpad that the context has stored to since as its issue
found it. -/
def readKept (s : State) (r : Req) (ps : List (Nat × Nat)) : List Byte :=
  if r.kept.isEmpty then readSpots s ps else ps.flatMap fun (a, n) => (List.range n).map fun i => sget (mget s (a + i)) r.kept (a + i)

/-- R266, R298: a request keeps no byte that it has written itself. -/
def dropKept (r : Req) (cs : List (List (Nat × Nat))) : Req :=
  { r with kept := r.kept.filter fun e => !(cs.any fun ps => ps.any fun (a, n) => decide (a ≤ e.1) && decide (e.1 < a + n)) }

/-- The first copy of found bytes. -/
def firstCopy (cs : List (List (Nat × Nat))) : List (Nat × Nat) := cs.headD []

end Sys2Proof.Machine
end

