-- ==== Sys2Proof/Machine/Graphs.lean ====
section
/-!
DEFINITION. Accord graphs (R255, R256, R296 to R298).
-/

namespace Sys2Proof.Machine

/-- The graph of a slot key. -/
def graphOf (s : State) (g : Nat) : Option Graph := (s.graphs.find? fun e => e.1 == g).map Prod.snd

/-- The state with a slot holding a graph. -/
def putGraph (s : State) (g : Nat) (x : Graph) : State :=
  { s with graphs := (g, x) :: s.graphs.filter fun e => e.1 != g }

/-- The state with a slot empty. -/
def dropGraph (s : State) (g : Nat) : State := { s with graphs := s.graphs.filter fun e => e.1 != g }

/-- R256: the runs of a slot, in acceptance order. -/
def runsIn (s : State) (g : Nat) : List (Req × RunJob) :=
  ((s.reqs.filterMap fun r => match r.job with
    | .run j => if j.graph = g ∧ r.accepted then some (r, j) else none
    | _ => none)).mergeSort fun a b => decide (a.1.acc ≤ b.1.acc)

/-- R255: a slot to be freed is freed once it has no run. -/
def sweepGraph (s : State) (g : Nat) : State :=
  match graphOf s g with
  | some x => if x.releasing && (runsIn s g).isEmpty then dropGraph s g else s
  | none => s

/-! ### Instructions -/

/-- AGLOAD (R255): operands are the virtual address and the slot key. -/
def execAgload (a b : Nat) (sw : BitVec 17) (s : State) : Host.Outcome State Fault Refusal :=
  let slot := (readS s b).toNat
  if 16 ≤ slot then trap s 0x04
  else if wordOutside s sw then trapAddr s 0x0B 0 (16 * sw.toNat)
  else .next (requestMapped s (.agload a b sw) 4 (some sw) [(readS s a).toNat, graphKey (myCore s) slot])

/-- AGREL (R255). -/
def execAgrel (a : Nat) (s : State) : Host.Outcome State Fault Refusal :=
  .next (request s (.agrel a) 4 none [graphKey (myCore s) (readS s a).toNat] .none)

/-- AGRUN (R256): the relocation table is read at execution. -/
def execAgrun (a b : Nat) (sw : BitVec 17) (s : State) : Host.Outcome State Fault Refusal :=
  let off := (readS s a).toNat
  if off % 16 ≠ 0 then trap s 0x04
  else if mySp s < off + 128 then trapAddr s 0x0B 0 (spAddr (myCore s) off)
  else if wordOutside s sw then trapAddr s 0x0B 0 (16 * sw.toNat)
  else
    let bases := (List.range 16).map fun i => spNum s (myCore s) (off + 8 * i) 8
    .next (request s (.agrun a b sw) 4 (some sw) (graphKey (myCore s) (readS s b).toNat :: bases) .none)

/-- AGWAIT (R256): its wait is over when it executes. -/
def execAgwait (_b : Nat) (s : State) : Host.Outcome State Fault Refusal := .next s

/-! ### Acceptance -/

/-- R255: an accepted AGLOAD takes an empty slot; its image is then read.  DESIGN CHOICE (log 31): a slot whose AGLOAD is still loading is
occupied for another AGLOAD, and empty for AGRUN and AGREL. -/
def acceptAgload (s : State) (r : Req) : State :=
  let g := r.args.getD 1 0
  match graphOf s g with
  | some _ => endX s r 0xB 0 0
  | none =>
    eager (putGraph s g { asn := r.asn }) ⟨.graphLoadComplete, { subjOf r.key with id := r.id }⟩

/-- R255: an accepted AGREL; a slot still loading is empty to it (DESIGN CHOICE, log 31). -/
def acceptAgrel (s : State) (r : Req) : State :=
  let g := r.args.getD 0 0
  let s := dropReq s r
  match graphOf s g with
  | some x => if x.asn = r.asn ∧ x.loaded then sweepGraph (putGraph s g { x with releasing := true }) g else s
  | none => s

/-- R256: an accepted AGRUN: its bases are translated and every node's counter is set; a slot still loading is empty to it (DESIGN CHOICE,
log 31). -/
def acceptAgrun (s : State) (r : Req) : State :=
  let g := r.args.getD 0 0
  match graphOf s g with
  | some x =>
    if x.asn = r.asn ∧ x.loaded then
      let c := ctxOf s r.key
      let bases := (r.args.drop 1).map fun b =>
        (BitVec.ofNat 64 b, match rangeFind c b with | some rr => rr | none => ({} : RangeReg))
      putJob s r (.run { graph := g, bases, counters := x.nodes.map fun n => fld n 31 16, moved := x.nodes.map fun _ => 0 })
    else endX s r 0xB 0 0
  | none => endX s r 0xB 0 0

/-! ### Loading -/

/-- R296: the successor entries of a node. -/
def nodeSuccs (x : List Nat) (n : Nat) : List Nat := (x.drop (fld n 207 192)).take (fld n 223 208)

/-- R297: a node's fields are malformed. -/
def nodeMalformed (nn nse : Nat) (succs : List Nat) (n : Nat) : Bool :=
  let op := fld n 3 0
  let f := fld n 7 4
  let len := fld n 55 32
  fld n 63 56 != 0 || fld n 255 224 != 0 || decide (2 < op)
    || (op == 2 && len != 0) || (op != 2 && len == 0) || (op != 1 && f != 0)
    || (op == 1 && (f == 0 || decide (0xB < f) || (wholeElems (bankFmt f) len).isNone))
    || decide (nse < fld n 207 192 + fld n 223 208)
    || (nodeSuccs succs n).any fun i => decide (nn ≤ i)

/-- R297: remove the nodes that no node left names as a successor (fuel counts rounds): those left lie on a cycle or after one. -/
def drainGraph (succs : List Nat) : Nat → List (Nat × Nat) → List (Nat × Nat)
  | 0, ns => ns
  | fuel + 1, ns =>
    let named := ns.flatMap fun e => nodeSuccs succs e.2
    let left := ns.filter fun e => named.contains e.1
    if left.length = ns.length then ns else drainGraph succs fuel left

/-- R297: the image is malformed: a node is, a dependency count is wrong, or the graph has a cycle. -/
def graphMalformed (header : Nat) (nodes succs : List Nat) : Bool :=
  let nn := fld header 15 0
  let nse := fld header 31 16
  header / 2 ^ 32 != 0 || nn == 0 || decide (4096 < nn) || nodes.any (nodeMalformed nn nse succs)
    || succs.any (fun i => decide (nn ≤ i))
    || ((List.range nn).any fun i => fld (nodes.getD i 0) 31 16 != (succs.filter (· == i)).length)
    || !(drainGraph succs nn ((List.range nn).map fun i => (i, nodes.getD i 0))).isEmpty

/-- Nodes that the loaded graphs of a die hold. -/
def nodesUsed (s : State) (die : Nat) : Nat := ((s.graphs.filter fun e => e.1 / 16 == die).map fun e => e.2.nodes.length).sum

/-- R255: bytes of an image at a virtual address, translated as the request found the range registers. -/
def readVa (s : State) (r : Req) (va n : Nat) : State × (List Byte ⊕ ByteEnd) :=
  match reqRange s r va n .read with
  | .inr code => (s, .inr (.fail code))
  | .inl ia => readFor r n ia s

/-- GRAPH_LOAD_COMPLETE (R255, R296, R297): the image is read, checked and held in its slot. -/
def execGraphLoadComplete (s : State) : Host.Outcome State Fault Refusal :=
  match reqOf s s.subj.id with
  | none => .next s
  | some r =>
    let va := r.args.getD 0 0
    let g := r.args.getD 1 0
    match readVa s r va 64 with
    | (s, .inr .wait) => .next s
    | (s, .inr _) => .next (endX (dropGraph s g) r 6 0 0)
    | (s, .inl hs) =>
      let header := ofBytes hs
      let nn := fld header 15 0
      let nse := fld header 31 16
      if 4096 < nodesUsed s (g / 16) + nn ∧ nn ≤ 4096 then .next (endX (countReq (dropGraph s g) r 64) r 0xB 0 0)
      else match readVa s r (va + 64) (32 * nn + 2 * nse) with
        | (s, .inr .wait) => .next s
        | (s, .inr _) => .next (endX (countReq (dropGraph s g) r 64) r 6 0 0)
        | (s, .inl bs) =>
          let nodes := (List.range nn).map fun i => ofBytes ((bs.drop (32 * i)).take 32)
          let succs := (List.range nse).map fun i => ofBytes ((bs.drop (32 * nn + 2 * i)).take 2)
          let s := countReq s r (64 + 32 * nn + 2 * nse)
          if graphMalformed header nodes succs then .next (endX (dropGraph s g) r 6 0 0)
          else .next (endX (putGraph s g { asn := r.asn, loaded := true, nodes, succs }) r 0 0 0)

/-! ### Runs -/

/-- R256: an address of a node through a relocation base; none where the base's range register does not hold it. -/
def nodeAddr (j : RunJob) (rel off n : Nat) (p : Perm) : Option Nat :=
  let (b, rr) := j.bases.getD rel (0, {})
  let va := (b.toNat + off) % 2 ^ 64
  if rangeHolds rr va && rangeHolds rr (va + n - 1) && rangeGrants rr p then some (rangeMap rr va) else none

/-- R298: a node counted: its unit, and its successors' counters. -/
def countNode (x : Graph) (j : RunJob) (i : Nat) : RunJob :=
  let hit := nodeSuccs x.succs (x.nodes.getD i 0)
  { j with
    counted := j.counted ++ [i]
    counters := (j.counters.zip (List.range j.counters.length)).map fun (c, k) => c - (hit.filter (· == k)).length }

/-- R14, R256: a run ends; the token of a context that waits in AGWAIT reissues its bundle and is gone, its wake queue unchanged. -/
def endRun (s : State) (r : Req) (j : RunJob) (code : Nat) : State :=
  wakeCore (sweepGraph (endX s r code 0 0) j.graph) (r.key / 4)

/-- R101, R256, R298: what a chunk of a node does, with the request as it leaves it: none where it moves, else whether it waits or faults. -/
def moveChunk (s : State) (r : Req) (j : RunJob) (n m k : Nat) : (State × Req) × Option Bool :=
  match nodeAddr j (fld n 11 8) (fld n 127 64 + m) k .read, nodeAddr j (fld n 15 12) (fld n 191 128 + m) k .write with
  | some src, some dst =>
    match spots s r.key r.asn src k false with
    | (s, .wait) => ((s, r), some true)
    | (s, .fail _) => ((s, r), some false)
    | (s, .ok a) =>
      match spots s r.key r.asn dst k true with
      | (s, .wait) => ((s, r), some true)
      | (s, .fail _) => ((s, r), some false)
      | (s, .ok b) =>
        let bs := readKept s r (firstCopy a)
        let f := bankFmt (fld n 7 4)
        let out := if fld n 3 0 = 1 then
            let old := readSpots s (firstCopy b)
            let e := (wholeElems f k).getD 0
            packArray f ((List.range e).map fun i => addNum f (arrayElem f old i) (arrayElem f bs i))
          else bs
        ((touchChunks (b.foldl (fun s ps => writeSpots s ps out) s) r.key r.asn (lineAddrs dst k), dropKept r b), none)
  | _, _ => ((s, r), some false)

/-- R298: bytes of a chunk from m on: at most 4 KiB, in whole elements of an add. -/
def chunkBytes (n m : Nat) : Nat :=
  let left := fld n 55 32 - m
  if left ≤ 4096 then left else if fld n 3 0 = 1 then 4096 / fmtBytes (bankFmt (fld n 7 4)) * fmtBytes (bankFmt (fld n 7 4)) else 4096

/-- GRAPH_NODE_COMPLETE (R298): the next chunk of a ready node of the slot's first run; after the last the node is counted. -/
def execGraphNodeComplete (s : State) : Host.Outcome State Fault Refusal :=
  match reqOf s s.subj.id with
  | none => .next s
  | some r =>
    match r.job with
    | .run j =>
      let i := s.subj.val
      match graphOf s j.graph, (runsIn s j.graph).head? with
      | some x, some (first, _) =>
        if first.id != r.id || j.counters.getD i 1 != 0 || j.counted.contains i || x.nodes.length ≤ i then .next s
        else
          let n := x.nodes.getD i 0
          let m := j.moved.getD i 0
          let k := chunkBytes n m
          let ((s, r), e) := if k = 0 then ((s, r), none) else moveChunk s r j n m k
          match e with
          | some true => .next s
          | some false => .next (endRun s r j 6)
          | none =>
            if r.cancel then .next (endRun s r j 5)
            else
              let j := { j with moved := j.moved.set i (m + k) }
              if m + k < fld n 55 32 then .next (putJob s r (.run j))
              else
                let j := countNode x j i
                let s := countReq s r 1
                .next (if j.counted.length = x.nodes.length then endRun s r j 0 else putJob s r (.run j))
      | _, _ => .next s
    | _ => .next s

end Sys2Proof.Machine
end

