-- ==== Sys2Proof/Machine/Barker.lean ====
section
/-!
DEFINITION. The barker (R212, R299, R300): chunk records, their tile counts and their publication.
-/

namespace Sys2Proof.Machine

/-- The physical address of a chunk record. -/
def chunkPa (s : State) (c : Chunk) : State × PageEnd := resolvePage s (leadCore s (c.key / 4)) c.asn c.ia true

/-- R300: ARM = 1, PUB = 0 and CNT ≥ TGT. -/
def chunkFull (x : Nat) : Bool := bitAt x 32 && !bitAt x 33 && decide (x % 2 ^ 16 ≤ fld x 31 16)

/-- The chunk watched at an intermediate address of an address space. -/
def chunkOf (s : State) (asn ia : Nat) : Option Chunk := s.chunks.find? fun c => c.asn == asn && c.ia == ia

/-- The state with a chunk watched. -/
def putChunk (s : State) (c : Chunk) : State :=
  { s with chunks := s.chunks.filter (fun x => !(x.asn == c.asn && x.ia == c.ia)) ++ [c] }

/-- CHUNK_TILE_COUNT (R212, R299, R334): a tile of a chunk whose stores have performed is counted; flag says that a served consumer is, whose
count has had to wait. -/
def execChunkTileCount (s : State) : Host.Outcome State Fault Refusal :=
  let k := keyOf s.subj
  let c : Chunk := { ia := s.subj.id, key := k, asn := (ctxOf s k).asn }
  if s.subj.flag then .next (countServedAt s s.subj.code s.subj.val c.ia)
  else if lineHeld s (leadCore s (k / 4)) c.ia true then .next (addTimer s (s.cyc + 1) ⟨.chunkTileCount, s.subj⟩)
  else match chunkPa s c with
  | (s, .ok pa _) =>
    let x := paNum s pa 8
    let x' := setFld x 31 16 (min 0xFFFF (fld x 31 16 + 1))
    let x' := if bitAt x 33 then setBit x' 34 true else x'
    .next (putChunk (soilLine (paPut s pa 8 x') (leadCore s (k / 4)) c.ia) c)
  | (s, .wait) => .next (addTimer s (s.cyc + 1) ⟨.chunkTileCount, s.subj⟩)
  | (s, _) =>
    let q := leadCore s (k / 4)
    .next (logFault s (homeSlice s q c.ia / 64) 0x22 0 0xFFF 0 c.ia 0)

/-- R300: a publication that fails logs a fault record and leaves PUB at 0. -/
def publishFailed (s : State) (c : Chunk) (slice : Nat) : State :=
  logFault (putChunk s { c with failed := true }) (slice / 64) 0x22 0 0xFFF 0 c.ia 0

/-- R300: a chunk whose record, as it stands, lets the barker publish it in this cycle. -/
def dueChunk (s : State) : Option Chunk :=
  s.chunks.find? fun c => !c.failed && c.tried != some s.cyc &&
    match anyLeaf s (leadCore s (c.key / 4)) c.asn c.ia with
    | some (_, pa) => chunkFull (paNum s pa 8)
    | none => false

/-- BARKER_PUBLISH (R6, R58, R282, R300): a full, armed chunk is published by the barker at its home slice. -/
def execBarkerPublish (s : State) : Host.Outcome State Fault Refusal :=
  match s.chunks.find? (fun c => c.ia == s.subj.id && c.asn == s.subj.val) with
  | none => .next s
  | some c =>
    let s := putChunk s { c with tried := some s.cyc }
    let q := leadCore s (c.key / 4)
    let slice := homeSlice s q c.ia
    if lineHeld s q c.ia true then .next s
    else match chunkPa s c with
    | (s, .ok pa _) =>
      let x := paNum s pa 8
      if !chunkFull x || c.failed then .next s
      else if fld (paNum s pa 16) 127 36 ≠ 0 then .next (publishFailed s c slice)
      else
        let img := paNum s (pa + 32) 32
        if imgMalformed s q img then .next (publishFailed s c slice)
        else match rangeCheck (ctxOf s c.key) (fld img 119 64) (imgSize img) .read with
          | .trap _ _ _ => .next (publishFailed s c slice)
          | .ok ia =>
            let s := soilLine (paPut s pa 8 (setBit (setBit x 33 true) 32 false)) q c.ia
            .next (publish s { id := 0, img := imgPublished img (coreForm (c.key / 4) ia) (0x800 + slice), key := c.key, asn := c.asn, chunk := some c.ia
                               members := (imgConsumers s q img).getD [], slice })
    | (s, .wait) => .next s
    | (s, _) => .next (publishFailed s c slice)

end Sys2Proof.Machine
end

