-- ==== Sys2Proof/Machine/Remote.lean ====
section
/-!
DEFINITION. Toronaeth connections (R257, R258, R301 to R303, R368, R420, R421): remote gets, puts and flushes, the frames that answer
them, and the requests of the peer.
-/

namespace Sys2Proof.Machine

/-- A connection by number. -/
def connOf (s : State) (c : Nat) : Conn := sget {} s.conns c

/-- The state with a connection replaced. -/
def putConn (s : State) (c : Nat) (x : Conn) : State := { s with conns := sins s.conns c x }

/-! ### RGET, RPUT and RFLUSH -/

/-- R257, R415, R420: the connection of a descriptor belongs to the partition, is open, and is bound to the task's address space. -/
def connUsable (s : State) (d : Nat) : Bool :=
  let c := connOf s (d % 4096)
  sameQuarter s (quarterOf (myCore s)) (d % 4096 / 1024) && c.opened && c.asn == (me s).asn

/-- R257: reserved bits of a descriptor; flush has no LEN, the others one from 1 on. -/
def connDescBad (d : Nat) (flush : Bool) : Bool :=
  fld d 15 12 != 0 || fld d 63 40 != 0 || (if flush then fld d 39 16 != 0 else fld d 39 16 == 0)

/-- RGET (R257): operands are the connection, the length, the remote address and the offset. -/
def execRget (d a b : Nat) (sw : BitVec 17) (s : State) : Host.Outcome State Fault Refusal :=
  let x := (readS s b).toNat
  let off := (readS s a).toNat
  let n := fld x 39 16
  if connDescBad x false ∨ fld (readS s d).toNat 63 56 ≠ 0 then trap s 0x04
  else if !connUsable s x then trap s 0x1E
  else if mySp s < off + n then trapAddr s 0x0B 0 (spAddr (myCore s) off)
  else if wordOutside s sw then trapAddr s 0x0B 0 (16 * sw.toNat)
  else .next (request s (.rget d a b sw) 3 (some sw) [x % 4096, n, (readS s d).toNat, off] .none)

/-- RPUT (R257). -/
def execRput (d a b : Nat) (sw : BitVec 17) (v : Bool) (s : State) : Host.Outcome State Fault Refusal :=
  let x := (readS s b).toNat
  if connDescBad x false ∨ fld (readS s d).toNat 63 56 ≠ 0 then trap s 0x04
  else if !connUsable s x then trap s 0x1E
  else if wordOutside s sw then trapAddr s 0x0B 0 (16 * sw.toNat)
  else .next (requestMapped s (.rput d a b sw v) 3 (some sw) [x % 4096, fld x 39 16, (readS s d).toNat, (readS s a).toNat])

/-- RFLUSH (R257). -/
def execRflush (b : Nat) (sw : BitVec 17) (s : State) : Host.Outcome State Fault Refusal :=
  let x := (readS s b).toNat
  if connDescBad x true then trap s 0x04
  else if !connUsable s x then trap s 0x1E
  else if wordOutside s sw then trapAddr s 0x0B 0 (16 * sw.toNat)
  else .next (request s (.rflush b sw) 3 (some sw) [x % 4096] .none)

/-- R257, R303: a remote request whose connection has closed ends. -/
def endRemote (s : State) (r : Req) (code : Nat) : State :=
  match r.job with
  | .pull p => endPull s r p code
  | _ => endX s r code 0 (r.args.getD 0 0)

/-! ### Closing -/

/-- R303, R420: a connection closes: its requests end, and a fault record names it. -/
def closeConn (s : State) (c : Nat) (log : Bool) : State :=
  let x := connOf s c
  if !x.opened then s
  else
    let s := putConn s c { x with opened := false, txk := 0, rxk := 0, oldRxk := none, waits := [] }
    let mine := s.reqs.filter fun r => r.accepted && r.args.getD 0 0 == c &&
      (match r.ins with | .rget .. | .rput .. | .rflush .. => true | _ => false)
    let s := mine.foldl (fun s r => endRemote s r 0xA) s
    if log then logFault s (c / 1024) 0x24 0 0xFFF 0 c 0 else s

/-- R301, R303: a frame of a connection is sent under the next counter; a counter that would wrap closes it. -/
def sendFrame (s : State) (c : Nat) : State :=
  let x := connOf s c
  if !x.opened then s else if 2 ^ 64 ≤ x.txc + 1 then closeConn s c true else putConn s c { x with txc := x.txc + 1 }

/-- R257, R302: an accepted remote request goes out as a frame of its connection. -/
def acceptRemote (s : State) (r : Req) : State :=
  let c := r.args.getD 0 0
  if !(connOf s c).opened then endX s r 0xA 0 c
  else
    let s := sendFrame s c
    if !(connOf s c).opened then s
    else match r.ins with
    | .rget .. => putJob s r (.pull { n := r.args.getD 1 0, dst := r.args.getD 3 0, link := 1 })
    | _ => putJob s r (.remote { conn := c, addr := r.args.getD 2 0, n := r.args.getD 1 0, local_ := r.args.getD 3 0 })

/-- LINK_FRAME_LOSS (R420): a lost frame is sent again on another link; where none reaches the peer, the connection closes. -/
def execLinkFrameLoss (s : State) : Host.Outcome State Fault Refusal :=
  .next (if s.subj.flag then s else closeConn s s.subj.id true)

/-! ### Frames of the peer -/

/-- R302: where the next n bytes of a put stand: some true where they have to be waited for, some false where they cannot be read. -/
def putSource (s : State) (r : Req) (a n : Nat) : State × Option Bool :=
  if (match r.ins with | .rput _ _ _ _ v => v | _ => false) then
    match reqRange s r a (max n 1) .read with
    | .inr _ => (s, some false)
    | .inl ia =>
      match spots s r.key r.asn ia n false with
      | (s, .ok _) => (s, none)
      | (s, .wait) => (s, some true)
      | (s, .fail _) => (s, some false)
  else (s, if spSize s (r.key / 4) < a + n then some false else none)

/-- R302: bytes of a put leave the package in a frame: up to n of them, read as R101 gives. -/
def putLeaves (s : State) (r : Req) (j : RemoteJob) (n : Nat) : State :=
  let n := min n (j.n - j.sent)
  match putSource s r (j.local_ + j.sent) n with
  | (s, some true) => s
  | (s, some false) => endRemote s r 6
  | (s, none) =>
    let s := sendFrame s j.conn
    if !(connOf s j.conn).opened then s
    else
      let s := countReq s r n
      let j := { j with sent := j.sent + n }
      if j.sent = j.n then endRemote s r 0 else putJob s r (.remote j)

/-- R103: an earlier put of the request's context on its connection has bytes that have not left. -/
def putOpen (s : State) (r : Req) : Bool :=
  s.reqs.any fun x => x.key == r.key && x.fut == r.fut && decide (x.id < r.id) && x.args.getD 0 0 == r.args.getD 0 0 &&
    match x.ins with | .rput .. => true | _ => false

/-- R103, R257, R302: what an accepted frame of the peer does to the request it answers: code 9 refuses it; a get receives data; val
bytes of a put are fetched; a flush completes, once every earlier put of its context has left. -/
def answerFrame (s : State) (r : Req) : State :=
  if s.subj.code = 9 then endRemote s r 9
  else match r.ins, r.job with
    | .rget .., .pull p => if r.cancel then s else putReq s { r with data := (r.data ++ s.subj.data).take p.n }
    | .rput .., .remote j => putLeaves s r j s.subj.data.length
    | .rflush .., .remote _ => if putOpen s r then s else endRemote (countReq s r 1) r 0
    | _, _ => s

/-- FRAME_RECEIVE (R301, R303, R421): a frame of connection id with counter val; flag says that it authenticates, ctx = 1 that it does
so under the old key; ref is the request it answers. -/
def execFrameReceive (s : State) : Host.Outcome State Fault Refusal :=
  let c := s.subj.id
  let x := connOf s c
  let old := s.subj.ctx = 1
  if !x.opened then .next s
  else if !s.subj.flag || s.subj.val ≤ (if old then x.oldRxc else x.rxc) || 2 ^ 64 ≤ s.subj.val || (old && x.oldRxk.isNone) then .next (closeConn s c true)
  else
    let s := putConn s c (if old then { x with oldRxc := s.subj.val } else { x with rxc := s.subj.val, oldRxk := none })
    match reqOf s s.subj.ref with
    | some r => .next (if r.accepted && r.args.getD 0 0 == c then answerFrame s r else s)
    | none => .next s

/-- R301: a remote request falls inside the window open to the peer, and the window grants it. -/
def windowGrants (x : Conn) (addr n : Nat) (write : Bool) : Bool :=
  x.opened && decide (0 < n) && decide (x.wbase ≤ addr) && decide (addr + n ≤ x.wlim + 1) && (if write then x.wwr else x.wrd)

/-- A core of the partition of a connection, for which its accesses are made. -/
def connCore (c : Nat) : Nat := c / 1024 * 288

/-- R301, R302, R373, R413: what becomes of one request of the peer on a connection: it is served or refused, with a frame that says so, or it
waits for a page. -/
def servePeer (s : State) (c : Nat) (rq : RemoteReq) : State × Bool :=
  let x := connOf s c
  match rq with
  | .put addr bs =>
    if !windowGrants x addr bs.length true then (sendFrame s c, true)
    else match windowOf (connCore c) addr with
      | .ctl .part _ _ => (sendFrame s c, true)
      | .notify .. | .ctl .. | .slice .. => (sendFrame (regWrite s { core := connCore c, id := addr, val := 2, data := bs }) c, true)
      | _ =>
        match spots s (4 * connCore c) x.asn addr bs.length true with
        | (s, .ok cs) => (sendFrame (cs.foldl (fun s ps => writeSpots s ps bs) s) c, true)
        | (s, .wait) => (s, false)
        | (s, .fail _) => (sendFrame s c, true)
  | .get addr n =>
    if !windowGrants x addr n false then (sendFrame s c, true)
    else match spots s (4 * connCore c) x.asn addr n false with
      | (s, .wait) => (s, false)
      | (s, _) => (sendFrame s c, true)
  | .flush => (sendFrame s c, true)

/-- R302: a request of the peer has to wait for an earlier one: puts of one context are placed in order, and its flush comes after them. -/
def peerBehind (held : List (Nat × RemoteReq)) (w : Nat × RemoteReq) : Bool :=
  match w.2 with
  | .get .. => false
  | _ => held.any fun h => h.1 == w.1 && (match h.2 with | .put .. => true | _ => false)

/-- R302: the requests of the peer on a connection, in order of arrival; those that wait are kept. -/
def servePeers (c : Nat) : List (Nat × RemoteReq) → List (Nat × RemoteReq) → State → State × List (Nat × RemoteReq)
  | [], held, s => (s, held)
  | w :: ws, held, s =>
    if peerBehind held w then servePeers c ws (held ++ [w]) s
    else match servePeer s c w.2 with
      | (s, true) => servePeers c ws held s
      | (s, false) => servePeers c ws (held ++ [w]) s

/-- REMOTE_REQUEST (R301, R302, R373): a request of context val of the peer on connection id; those that wait are tried again in the next
cycle. -/
def execRemoteRequest (s : State) : Host.Outcome State Fault Refusal :=
  let c := s.subj.id
  let x := connOf s c
  if !x.opened then .next s
  else
    let (s, held) := servePeers c (x.waits ++ (s.subj.req.map fun r => (s.subj.val, r)).toList) [] s
    if (connOf s c).opened then
      let s := putConn s c { connOf s c with waits := held }
      .next (if held.isEmpty || (s.subj.req.isSome && !x.waits.isEmpty) then s else addTimer s (s.cyc + 1) ⟨.remoteRequest, { id := c }⟩)
    else .next s

end Sys2Proof.Machine
end

