-- ==== Sys2Proof/Machine/Engine.lean ====
section
/-!
DEFINITION. The copy engines (R264 to R267) and the sync-word and range-entry instructions (R268, R269).
-/

namespace Sys2Proof.Machine

/-! ### Shapes -/

/-- R264: the product of all counts but C0: the number of runs. -/
def runCount (d : List Word) : Nat := (List.range 5).foldl (fun p i => p * nestCount d (i + 1)) 1

/-- R264: displacement of run r from a base, by the strides of slot j. -/
def runOffset (d : List Word) (j r : Nat) : Int :=
  ((List.range 5).foldl (fun (x, o) i =>
    let c := nestCount d (i + 1)
    (x / c, o + ((x % c : Nat) : Int) * nestStride d (i + 1) j)) (r, (0 : Int))).2

/-- R265: the lowest and the highest displacement of a run from the base, by the strides of slot j. -/
def shapeEnds (d : List Word) (j : Nat) : Int × Int :=
  (List.range 5).foldl (fun (lo, hi) i =>
    let x := ((nestCount d (i + 1) : Nat) - 1 : Int) * nestStride d (i + 1) j
    (lo + min 0 x, hi + max 0 x)) (0, 0)

/-- R264: a shape moves no byte. -/
def shapeEmpty (d : List Word) : Bool := nestCount d 0 == 0 || runCount d == 0

/-- R264: an address of a shape. -/
def shapeAt (base : Nat) (o : Int) : Nat := (((base : Int) + o) % 2 ^ 64).toNat

/-! ### Runs of a shape, many at a time -/

/-- R264: what is left of a shape: counts and strides of slots 0 and 1, the outermost dimension first. -/
abbrev ShapeDims := List (Nat × Int × Int)

/-- R264: the dimensions of a shape above its runs. -/
def shapeDims (d : List Word) : ShapeDims :=
  (List.range 5).reverse.map fun i => (nestCount d (i + 1), nestStride d (i + 1) 0, nestStride d (i + 1) 1)

/-- The lowest and the highest displacement of the runs of some dimensions on both sides, from a displacement on. -/
def dimEnds : ShapeDims → Int → Int → (Int × Int) × (Int × Int)
  | [], o, p => ((o, o), (p, p))
  | (c, a, b) :: ds, o, p =>
    let (x, y) := dimEnds ds o p
    let u := ((c : Int) - 1) * a
    let v := ((c : Int) - 1) * b
    ((x.1 + min 0 u, x.2 + max 0 u), (y.1 + min 0 v, y.2 + max 0 v))

/-- Two halves of some dimensions, where they have more than one run, with the displacement of the second. -/
def splitDims : ShapeDims → Option (ShapeDims × ShapeDims × Int × Int)
  | [] => none
  | (c, a, b) :: ds =>
    if 1 < c then
      let h := c / 2
      some ((h, a, b) :: ds, (c - h, a, b) :: ds, (h : Int) * a, (h : Int) * b)
    else (splitDims ds).map fun (l, r, x, y) => ((c, a, b) :: l, (c, a, b) :: r, x, y)

/-- Visit the runs of some dimensions in order, as many at a time as look can answer for: it is given the lowest and the highest
displacement of both sides, and answers for a single run. -/
def visitRuns {β : Type} (look : β → Int × Int → Int × Int → Option β) : Nat → ShapeDims → Int → Int → β → β
  | 0, _, _, _, x => x
  | fuel + 1, ds, o, p, x =>
    let (e, f) := dimEnds ds o p
    match look x e f with
    | some y => y
    | none =>
      match splitDims ds with
      | none => x
      | some (l, r, a, b) => visitRuns look fuel r (o + a) (p + b) (visitRuns look fuel l o p x)

/-- What a visit finds of one side of a shape: one past the highest displacement its runs touch, the first run that touches a byte it may
not, and whether a conversion is needed that is forbidden. -/
structure Reach where
  top : Option Int := none
  bad : Option Nat := none
  conflict : Bool := false
deriving DecidableEq, Repr

/-- A reach with runs added whose bytes end below a displacement. -/
def Reach.upTo (x : Reach) (top : Int) : Reach := { x with top := some (match x.top with | some t => max t top | none => top) }

/-- An intermediate address below an integer's 64 bits. -/
def iaOf (x : Int) : Nat := (x % 2 ^ 64).toNat

/-- R57: an intermediate address lies in no scratchpad window, nor does any up to another one. -/
def noScratch (a b : Nat) : Bool := decide (0x200000 ≤ a) && decide (a ≤ b) && (decide (b < 0x100000000) || decide (0x300000000 ≤ a))

/-- R59, R265: every byte from one intermediate address to another is one that a side of a copy may touch. -/
def spanOk (s : State) (core pl : Nat) (write : Bool) (a b : Nat) : Bool :=
  decide (a ≤ b) &&
  match windowOf core a, windowOf core b with
  | .scratch c _, .scratch c' o => c == c' && decide (b - a < 0x200000) && windowOk s (quarterOf core) pl (.scratch c o)
  | .mcast k _, .mcast k' o =>
    write && k == k' && windowOk s (quarterOf core) pl (.mcast k o) && (List.range 8).all fun i => decide (o < spSize s (8 * k + i))
  | .memory, .memory | .memory, .cxl | .cxl, .cxl => true
  | _, _ => false

/-- R51, R74: the format of the bank at an intermediate address, for an operation accepted in a cycle; raw where it is no scratchpad.
DESIGN CHOICE (log 30): a multicast destination, whose bytes land in the banks of eight cores, is raw and never converts. -/
def fmtAt (s : State) (cyc core ia : Nat) : Fmt :=
  match windowOf core ia with
  | .scratch c off => bankFmt (bankCodeAt s cyc c (off / 32768))
  | _ => .raw

/-- R51: the format that all of the banks from one intermediate address to another have, where it is one and easily seen. -/
def spanFmt (s : State) (cyc core a b : Nat) : Option Fmt :=
  if a = b then some (fmtAt s cyc core a)
  else if noScratch a b then some .raw
  else match windowOf core a, windowOf core b with
    | .scratch c o, .scratch c' o' =>
      let m := o / 32768
      if c = c' ∧ a ≤ b ∧ b - a < 0x200000 ∧
          (List.range (o' / 32768 + 1 - m)).all (fun i => bankCodeAt s cyc c (m + i) == bankCodeAt s cyc c m) then some (fmtAt s cyc core a)
      else none
    | _, _ => none

/-- R51, R74, R266: the conversion that runs of n source bytes need, given what is known of the formats of both sides. -/
def runFormats (a b : Option Fmt) : Option (Option (Fmt × Fmt)) :=
  match a, b with
  | some .raw, _ | _, some .raw => some none
  | some f, some g => some (if converts f g then some (f, g) else none)
  | _, _ => none

/-- R266: bytes of a destination run. -/
def runBytes (conv : Option (Fmt × Fmt)) (n : Nat) : Nat := match conv with | some (f, g) => convBytes f g n | none => n

/-- R74, R265: a conversion is needed and forbidden. -/
def runConflict (conv : Option (Fmt × Fmt)) (n : Nat) : Bool := match conv with | some (f, g) => convForbidden f g n | none => false

/-- R265: the reach of a source with runs of n bytes; clean says of bytes from one intermediate address to another that all may be
touched. -/
def sourceReach (clean : Nat → Nat → Bool) (d : List Word) (n : Nat) (src : Int) : Reach :=
  visitRuns (fun x (e : Int × Int) _ =>
    if x.bad.isSome || clean (iaOf (src + e.1)) (iaOf (src + e.2 + n - 1)) then some (x.upTo (e.2 + n))
    else if e.1 = e.2 then some { x.upTo (e.2 + n) with bad := some (iaOf (src + e.1)) }
    else none) 161 (shapeDims d) 0 0 {}

/-- R265, R266: the reach of a destination with runs of n source bytes from src, each converted on its own; a fill has no source. -/
def destReach (s : State) (cyc core : Nat) (clean : Nat → Nat → Bool) (d : List Word) (n : Nat) (src : Option Int) (dst : Int) : Reach :=
  visitRuns (fun x (e : Int × Int) (f : Int × Int) =>
    let sf := match src with | some a => spanFmt s cyc core (iaOf (a + e.1)) (iaOf (a + e.2)) | none => some .raw
    match runFormats sf (spanFmt s cyc core (iaOf (dst + f.1)) (iaOf (dst + f.2))) with
    | none => none
    | some conv =>
      let m := runBytes conv n
      let y := { x.upTo (f.2 + m) with conflict := x.conflict || runConflict conv n }
      if m = 0 || x.bad.isSome || clean (iaOf (dst + f.1)) (iaOf (dst + f.2 + m - 1)) then some y
      else if f.1 = f.2 then some { y with bad := some (iaOf (dst + f.1)) }
      else none) 161 (shapeDims d) 0 0 {}

/-- What the checks of one side of a copy answer: its base, as an intermediate address, and whether a conversion is forbidden; or the
trap. -/
inductive SideEnd where
  | ok (base : Nat) (conflict : Bool)
  | trap (code va ia : Nat)
deriving DecidableEq, Repr

/-- R58, R265: the checks of one side of a copy, from its operand and what a visit of its runs finds from the intermediate address of
displacement 0 on. -/
def sideCheck (s : State) (d : List Word) (j : Nat) (w : Bool) (base : Nat) (write : Bool) (reach : Int → Reach) : SideEnd :=
  let core := myCore s
  let lo := (shapeEnds d j).1
  let va := shapeAt base lo
  if shapeEmpty d then .ok (if w then spAddr core base else base) false
  else
    let ia : Int := (if w then spAddr core va else match rangeFind (me s) va with | some r => rangeMap r va | none => 0 : Nat) - lo
    let r := reach ia
    let n := (r.top.getD 0 - lo).toNat
    if w then (if mySp s < va + n then .trap 0x0B 0 (spAddr core va) else .ok (iaOf ia) r.conflict)
    else match rangeCheck (me s) va n (if write then .write else .read) with
      | .trap code va ia => .trap code va ia
      | .ok _ =>
        match r.bad with
        | some x => .trap 0x0B (iaOf ((va : Int) + (x - (ia + lo)))) x
        | none => .ok (iaOf (if ia + lo + n ≤ 0x200000 then ia + spAddr core 0 else ia)) r.conflict

/-! ### COPY and COPYC -/

/-- R265: the checks of the source of a copy. -/
def sourceCheck (s : State) (d : List Word) (w : Bool) (base : Nat) : SideEnd :=
  sideCheck s d 0 w base false (sourceReach (spanOk s (myCore s) (me s).pl false) d (nestCount d 0))

/-- R265: the checks of the destination of a copy from an intermediate address, or of a fill. -/
def destCheck (s : State) (d : List Word) (w : Bool) (base : Nat) (src : Option Nat) : SideEnd :=
  sideCheck s d 1 w base true
    (destReach s s.cyc (myCore s) (spanOk s (myCore s) (me s).pl true) d (nestCount d 0) (src.map fun a => (a : Int)))

/-- COPY (R264 to R266).  DESIGN CHOICE (log 26): of several checks that fail, the source's range and window come first, then the
destination's, the sync word's window, and the format conflict. -/
def execCopy (a b : Nat) (sw : BitVec 17) (ws wd : Bool) (n : Nat) (s : State) : Host.Outcome State Fault Refusal :=
  let d := nestWords s n
  if nestMalformed d then trap s 0x08
  else match sourceCheck s d ws (readS s b).toNat with
    | .trap code va ia => trapAddr s code va ia
    | .ok src _ =>
      match destCheck s d wd (readS s a).toNat (some src) with
      | .trap code va ia => trapAddr s code va ia
      | .ok dst conflict =>
        if wordOutside s sw then trapAddr s 0x0B 0 (16 * sw.toNat)
        else if conflict then trap s 0x0D
        else .next (request s (.copy a b sw ws wd n) 2 (some sw) [] (.copy { desc := d, dst, src, wd, ws }))

/-- COPYC (R267). -/
def execCopyc (a b : Nat) (sw : BitVec 17) (wd : Bool) (n : Nat) (s : State) : Host.Outcome State Fault Refusal :=
  let d := nestWords s n
  if nestMalformed d then trap s 0x08
  else match destCheck s d wd (readS s a).toNat none with
    | .trap code va ia => trapAddr s code va ia
    | .ok dst _ =>
      if wordOutside s sw then trapAddr s 0x0B 0 (16 * sw.toNat)
      else .next (request s (.copyc a b sw wd n) 2 (some sw) [] (.copy { desc := d, dst, wd, fill := some (readS s b) }))

/-- R51, R266: a copy at the start of a run: the run converts on its own, in the formats in force at the copy's acceptance. -/
def startRun (s : State) (r : Req) (c : CopyJob) : CopyJob :=
  if c.fill.isSome then c
  else
    let f := fmtAt s r.accAt (r.key / 4) (shapeAt c.src (runOffset c.desc 0 c.run))
    let g := fmtAt s r.accAt (r.key / 4) (shapeAt c.dst (runOffset c.desc 1 c.run))
    { c with srcF := f, dstF := g, conv := converts f g }

/-- R266: bank formats are those in force at acceptance; a shape that moves nothing is over. DEDUCED (log 30): where a format written since the copy
executed makes a conversion forbidden, the copy traps as its own instruction, before it moves any byte (R74). -/
def acceptCopy (s : State) (r : Req) (c : CopyJob) : State :=
  if shapeEmpty c.desc then dropReq s r
  else if c.fill.isNone && (destReach s r.accAt (r.key / 4) (fun _ _ => true) c.desc (nestCount c.desc 0) (some c.src) c.dst).conflict then
    reqTrap (dropReq s r) r 0x0D
  else putJob s r (.copy (startRun s r c))

/-- R264: source bytes of the next chunk. -/
def nextChunk (c : CopyJob) : Nat :=
  let g := if c.conv then fmtBytes c.srcF else 1
  min (nestCount c.desc 0 - c.off) (4096 / g * g)

/-- R267: the fill bytes from offset o of a run on. -/
def fillBytes (x : Word) (o n : Nat) : List Byte := (List.range n).map fun i => BitVec.ofNat 8 (x.toNat / 2 ^ (8 * ((o + i) % 8)))

/-- R58, R266: the chunk was not moved: it waits, or its fault stops the copy. -/
def chunkFault (s : State) (r : Req) (ia : Nat) (e : Spots) : State :=
  match e with
  | .fail _ =>
    logFault (dropReq (flagWord s r 6) r) (quarterOf (r.key / 4)) 0x20 0 (r.key / 4) (r.key % 4) (coreForm (r.key / 4) ia) 0
  | _ => s

/-- R98, R264: a copy after a chunk of n source bytes: its next chunk or run, or its end; SHORT where a reclamation stops it early. -/
def afterChunk (s : State) (r : Req) (c : CopyJob) (n : Nat) : State :=
  let c := if c.off + n < nestCount c.desc 0 then { c with off := c.off + n } else startRun s r { c with run := c.run + 1, off := 0 }
  if runCount c.desc ≤ c.run then dropReq s r
  else if r.cancel then dropReq (flagWord s r 5) r
  else putJob s r (.copy c)

/-- COPY_CHUNK (R264, R266, R267): the next chunk of a copy is read in full, written and counted. -/
def execCopyChunk (s : State) : Host.Outcome State Fault Refusal :=
  match reqOf s s.subj.id with
  | none => .next s
  | some r =>
    match r.job with
    | .copy c =>
      if !r.accepted then .next s
      else
        let n := nextChunk c
        let src := shapeAt c.src (runOffset c.desc 0 c.run) + c.off
        let put (s : State) (bs : List Byte) : State :=
          let o := if c.conv then convBytes c.srcF c.dstF c.off else c.off
          let dst := shapeAt c.dst (runOffset c.desc 1 c.run) + o
          match spots s r.key r.asn dst bs.length true with
          | (s, .ok cs) =>
            let s := touchChunks (cs.foldl (fun s ps => writeSpots s ps bs) s) r.key r.asn (lineAddrs dst bs.length)
            afterChunk (countReq s r (bs.length * cs.length)) (dropKept r cs) c n
          | (s, e) => chunkFault s r dst e
        match c.fill with
        | some x => .next (put s (fillBytes x c.off n))
        | none =>
          match spots s r.key r.asn src n false with
          | (s, .ok cs) =>
            let bs := readKept s r (firstCopy cs)
            .next (put s (if c.conv then convertBytes c.srcF c.dstF ((wholeElems c.srcF n).getD 0) bs else bs))
          | (s, e) => .next (chunkFault s r src e)
    | _ => .next s

/-! ### Sync words -/

/-- R268: the word a set-up instruction addresses, or its trap.  DESIGN CHOICE (log 36): the sum wraps modulo 2^64, as WAIT's does (R139,
R148). -/
def swCheck (s : State) (a : Nat) (sw : BitVec 17) : ExecCheck :=
  let w := waitWord s a sw
  if w % 16 ≠ 0 then .trap 0x04 0 0 else if mySp s ≤ w then .trap 0x0B 0 (spAddr (myCore s) w) else .ok [w]

/-- SWSET (R268). -/
def execSwset (d a b : Nat) (sw : BitVec 17) (g : Bool) (s : State) : Host.Outcome State Fault Refusal :=
  let x := (readS s b).toNat
  match swCheck s a sw with
  | .trap code va ia => trapAddr s code va ia
  | .ok ws =>
    if 2 ^ 40 ≤ x then trap s 0x04
    else .next (request s (.swset d a b sw g) 2 none [ws.getD 0 0, x, (readS s d).toNat % 2 ^ 16] .none)

/-- SWADD (R268). -/
def execSwadd (a b : Nat) (sw : BitVec 17) (s : State) : Host.Outcome State Fault Refusal :=
  let x := (readS s b).toNat
  match swCheck s a sw with
  | .trap code va ia => trapAddr s code va ia
  | .ok ws => if 2 ^ 40 ≤ x then trap s 0x04 else .next (request s (.swadd a b sw) 2 none [ws.getD 0 0, x] .none)

/-- SWRD (R268): the value is the word's after the update of cycle E + 2. -/
def execSwrd (d a : Nat) (sw : BitVec 17) (hi : Bool) (s : State) : Host.Outcome State Fault Refusal :=
  match swCheck s a sw with
  | .trap code va ia => trapAddr s code va ia
  | .ok ws => .next (requestFor s (.swrd d a sw hi) 3 none [ws.getD 0 0] [.s d])

/-- R268: an accepted SWSET acts before the arrivals of its cycle. -/
def acceptSwset (s : State) (r : Req) (g : Bool) : State :=
  let w := r.args.getD 0 0
  let s := updCore s (r.key / 4) fun u =>
    { u with swsets := (w, r.args.getD 1 0, if g then some (r.args.getD 2 0) else none) :: u.swsets.filter fun x => x.1 != w }
  dropReq (updTask s r.key r.fut fun c => dropToken c w) r

/-- R268: an accepted SWADD adds to its cycle's arrivals. -/
def acceptSwadd (s : State) (r : Req) : State :=
  dropReq (arrive s (r.key / 4) (r.args.getD 0 0) (r.args.getD 1 0) false false) r

/-- R268: SWRD's answer. -/
def acceptSwrd (s : State) (r : Req) (d : Nat) (hi : Bool) : State :=
  let x := swRead s (r.key / 4) (r.args.getD 0 0)
  dropReq (answerS s r d (if hi then x / 2 ^ 64 else x)) r

/-! ### Range entries -/

/-- RTWR (R53, R55, R269). -/
def execRtwr (d a : Nat) (s : State) : Host.Outcome State Fault Refusal :=
  let v := readS s a
  if entryRefused (mySp s) v.toNat then trap s 0x04
  else .next (wake (updMe s fun c => { c with range := sins c.range d ⟨v, s.cyc⟩ }) s.at_)

/-- RTRD (R269): the entry as it stands at the end of the cycle. -/
def execRtrd (d a : Nat) (s : State) : Host.Outcome State Fault Refusal :=
  .next (requestFor s (.rtrd d a) 1 none [] [.s d])

/-- R269: RTRD's answer. -/
def acceptRtrd (s : State) (r : Req) (d a : Nat) : State :=
  dropReq (answerS s r d (sget {} (ctxOf s r.key).range a).word.toNat) r

/-- R269: an entry under RTARM. -/
def armEntry (v cyc : Nat) (p : Nat × RangeEntry) : Nat × RangeEntry :=
  if bitAt v p.1 && bitAt p.2.word.toNat 48 then (p.1, ⟨p.2.word &&& ~~~ BitVec.twoPow 64 49, cyc⟩) else p

/-- RTARM (R55, R269). -/
def execRtarm (a : Nat) (s : State) : Host.Outcome State Fault Refusal :=
  let v := (readS s a).toNat
  if 2 ^ 16 ≤ v then trap s 0x04 else .next (updMe s fun c => { c with range := c.range.map (armEntry v s.cyc) })

end Sys2Proof.Machine
end

