-- ==== Sys2Proof/Machine/Futures.lean ====
section
/-!
DEFINITION. Futures (R270, R271, R28, R29), the tasks queued and running (R26, R30), the end of tasks and launches (R22, R23, R376),
and the core configuration (R47 to R49).
-/

namespace Sys2Proof.Machine

/-! ### Future records -/

/-- R271: the fields of a future record. -/
def futCnt (x : Nat) : Nat := fld x 19 0

/-- R271: ST of a future record. -/
def futSt (x : Nat) : Nat := fld x 22 20

/-- R270: the handle of a record in its present generation. -/
def futHandle (idx x : Nat) : Nat := idx + fld x 39 24 * 2 ^ 20

/-- R271, R441: the state with a future record written. -/
def futWrite (s : State) (q idx x : Nat) : State := (sysWrite s q (creg s q .sched 0x010 + 32 * idx) (toBytes 32 x)).1

/-- R271: the pages of a partition's future table. -/
def futPages (s : State) (q : Nat) : List Nat :=
  let b := creg s q .sched 0x010
  (List.range ((b + 32 * creg s q .sched 0x018 + 65535) / 65536 - b / 65536)).map fun i => (b / 65536 + i) * 65536

/-- R441: a page of a table can be looked at, and written, with a service of system software where one is needed. -/
def sysOpen (s : State) (q ia : Nat) : Bool :=
  sysSeen s q ia && match (resolvePage s q 0 ia true).2 with
    | .ok .. | .wait => true
    | _ => false

/-- R371, R441: the free records of a partition's future table, on the pages that can be found; record 0 is never used. -/
def freeFutures (s : State) (q : Nat) : List Nat :=
  let open_ := (futPages s q).filter (sysOpen s q)
  (List.range (creg s q .sched 0x018)).filter fun i =>
    i != 0 && open_.contains ((creg s q .sched 0x010 + 32 * i) / 65536 * 65536) && futSt (futRead s q i) == 0

/-- R441: where the pages that can be looked at hold fewer free records than this, the others of the future table are found. -/
def findFutures (s : State) (q n : Nat) : State :=
  if n ≤ (freeFutures s q).length then s
  else (futPages s q).foldl (fun s a => if sysSeen s q a then s else (sysFind s q a).1) s

/-- R28, R271: a free record taken, which one being left open: count 1, this state, core and parent. -/
def newFuture (s : State) (q st core parent : Nat) : Option (Nat × State) :=
  let s := findFutures s q 1
  match freeFutures s q with
  | [] => none
  | i :: is =>
    let idx := (i :: is).getD (Config.pick s.fresh % (is.length + 1)) i
    let x := futRead s q idx
    let y := 1 + st * 2 ^ 20 + fld x 39 24 * 2 ^ 24 + core * 2 ^ 40 + parent * 2 ^ 128
    some (futHandle idx x, futWrite { s with fresh := s.fresh + 1 } q idx y)

/-- R14, R275: contexts that block in FAWAIT are tried again (DESIGN CHOICE, log 51: the end of a future reissues the blocked bundle and leaves no
token in a wake queue, whose tokens name sync words), and those that gave their places up while they blocked may go on. -/
def wakeAwaiters (s : State) : State :=
  let s := s.ctxs.foldl (fun s (k, c) => if c.awaiting.isSome then wake s k else s) s
  s.saved.foldl (fun s (k, c) => if c.awaiting.isSome then eager s ⟨.taskResume, subjOf k⟩ else s) s

/-- R29: the record is freed and its generation advances. -/
def retireFuture (s : State) (q idx : Nat) : State :=
  let x := futRead s q idx
  wakeAwaiters (futWrite s q idx ((fld x 39 24 + 1) % 2 ^ 16 * 2 ^ 24))

/-- R271: the state with ST of a future's record changed. -/
def setFutSt (s : State) (q h st : Nat) : State := futWrite s q (futIndex h) (setFld (futRead s q (futIndex h)) 22 20 st)

/-- R271: the state with CORE of a future's record changed. -/
def setFutCore (s : State) (q h core : Nat) : State := futWrite s q (futIndex h) (setFld (futRead s q (futIndex h)) 51 40 core)

/-! ### The core configuration -/

/-- The contexts of a core, by key. -/
def coreKeys (core : Nat) : List Nat := [0, 1, 2, 3].map fun i => 4 * core + i

/-- R47: a task with this partition word may be placed on a free context of the core. -/
def configFits (s : State) (core : Nat) (w : Word) : Bool :=
  ppwConfig w == ((coreAt s core).vreg, (coreAt s core).tile) || (coreKeys core).all fun k => (ctxOf s k).st == .free

/-- R411: the core is fenced. -/
def coreFenced (s : State) (core : Nat) : Bool :=
  bitAt (creg s (quarterOf core) .fault (0x100 + 8 * (core % 288 / 64))) (core % 288 % 64)

/-! ### Launches and teams -/

/-- The launch with an id. -/
def launchOf (s : State) (id : Nat) : Option Launch := s.launches.find? fun l => l.id == id

/-- The state with a launch changed. -/
def updLaunch (s : State) (id : Nat) (f : Launch → Launch) : State :=
  { s with launches := s.launches.map fun l => if l.id == id then f l else l }

/-- The team with an id. -/
def teamOf (s : State) (id : Nat) : Option Team := s.teams.find? fun t => t.id == id

/-- The state with a team changed. -/
def updTeam (s : State) (id : Nat) (f : Team → Team) : State :=
  { s with teams := s.teams.map fun t => if t.id == id then f t else t }

/-- R19: the cluster of a core. -/
def clusterOf (core : Nat) : Nat := core / 8

/-- The launch of a team. -/
def teamLaunch (s : State) (t : Team) : Launch := (launchOf s t.launch).getD { id := 0 }

/-- R380: a resident team's slice begins in a cycle. -/
def sliceFrom (s : State) (t : Team) (c : Nat) : State :=
  let l := teamLaunch s t
  let n := if l.tsl = 0 then creg s l.lead .sched 0x028 else l.tsl
  addTimer (updTeam s t.id fun t => { t with slice := some c }) (c + n * 1024) ⟨.teamSliceEnd, { id := t.id, val := c }⟩

/-- R380: a resident team's slice begins. -/
def startSlice (s : State) (t : Team) : State := sliceFrom s t s.cyc

/-- R380: the team resident on a cluster. -/
def residentOf (s : State) (cluster : Nat) : Option Team := s.teams.find? fun t => t.cluster == some cluster

/-- The cores of a cluster. -/
def clusterCores (cluster : Nat) : List Nat := (List.range 8).map fun i => 8 * cluster + i

/-- The launch of a context's task. -/
def ctxLaunch (c : Ctx) : Nat := match c.task with | some t => t.record.launch | none => 0

/-- R275: saved contexts of a launch that gave up their places on a cluster and belong to no team that is out. -/
def parkedOn (s : State) (cluster launch : Nat) : List (Nat × Ctx) :=
  s.saved.filter fun p => clusterOf (p.1 / 4) == cluster && ctxLaunch p.2 == launch &&
    !s.teams.any fun t => t.outs.contains (p.1, futOf p.2)

/-- R23: a team's tasks have all ended: none to start, none on its cores, queued there or on its way there, none waiting for a place. -/
def teamOver (s : State) (t : Team) (cluster : Nat) : Bool :=
  t.todo.isEmpty && (parkedOn s cluster t.launch).isEmpty && (clusterCores cluster).all fun core =>
    (coreKeys core).all (fun k => (ctxOf s k).st == .free || ctxLaunch (ctxOf s k) != t.launch) &&
    (coreAt s core).rq.all (fun r => r.launch != t.launch) &&
    s.transit.all fun p => p.1 != core || p.2.launch != t.launch

/-- R23, R24: the team whose tasks have all ended frees its cluster; one on its way out may be out now. -/
def sweepTeam (s : State) (core : Nat) : State :=
  match residentOf s (clusterOf core) with
  | some t =>
    if teamOver s t (clusterOf core) then
      addReady { s with teams := s.teams.filter fun x => x.id != t.id } ⟨.teamSwapIn, { id := clusterOf core }⟩
    else if t.leaving then addReady s ⟨.teamSwapIn, { id := clusterOf core }⟩
    else s
  | none => s

/-- R362: a CTXSAVE or CTXLOAD under way names the context. -/
def ctxClaimed (s : State) (k : Nat) : Bool :=
  s.reqs.any fun r => match r.ins with
    | .ctxsave .. | .ctxload .. => r.args.getD 0 0 == k
    | _ => false

/-- The core looks for tasks to resume or to start, and where there are none for one to steal. -/
def fillCore (s : State) (core : Nat) : State :=
  let s := (s.saved.filter fun p => p.1 / 4 == core && p.2.awaiting.isSome).foldl (fun s p => eager s ⟨.taskResume, subjOf p.1⟩) s
  let s := (coreKeys core).foldl (fun s k => if (ctxOf s k).st = .free then eager s ⟨.taskStart, subjOf k⟩ else s) s
  eager s ⟨.stealRequest, { core }⟩

/-- R23, R376: a task of a launch has ended, faulted or not. -/
def taskGone (s : State) (launch core : Nat) (err : Bool) : State :=
  match launchOf s launch with
  | none => s
  | some l =>
    let s := updLaunch s launch fun l => { l with live := l.live - 1, err := l.err || err }
    let s := if l.live ≤ 1 then addReady s ⟨.launchComplete, { id := launch }⟩ else s
    sweepTeam s core

/-! ### References and reclamation -/

/-- Where the task of a future stands. -/
inductive TaskPlace where
  | none
  | queued (core : Nat) (r : TaskRec)
  | away (team : Nat) (r : TaskRec)
  | todo (team : Nat) (r : TaskRec)
  | running (k : Nat)
  | saved (k : Nat)
deriving DecidableEq, Repr

/-- The place of a future's task, in the partition of quarter q. -/
def findTask (s : State) (q h : Nat) : TaskPlace :=
  let mine (core : Nat) : Bool := leadCore s core == q
  match s.ctxs.find? (fun p => mine (p.1 / 4) && p.2.st != .free && futOf p.2 == BitVec.ofNat 64 h) with
  | some p => .running p.1
  | none =>
    match s.saved.find? (fun p => mine (p.1 / 4) && futOf p.2 == BitVec.ofNat 64 h) with
    | some p => .saved p.1
    | none =>
      match s.cores.findSome? (fun (core, u) =>
          if mine core then (u.rq.find? fun r => r.fut == BitVec.ofNat 64 h).map fun r => (core, r) else none) with
      | some (core, r) => .queued core r
      | none =>
        let find (rs : Team → List TaskRec) : Option (Nat × TaskRec) := s.teams.findSome? fun t =>
          if (teamLaunch s t).lead == q then ((rs t).find? fun r => r.fut == BitVec.ofNat 64 h).map fun r => (t.id, r) else none
        match find fun t => t.todo.map Prod.snd with
        | some (t, r) => .todo t r
        | none =>
          match find fun t => t.image.flatMap CoreImage.rq with
          | some (t, r) => .away t r
          | none => .none

/-- R32: the pin limit of a held reclaim request, for the task of a future wherever it then stands. -/
def armPinLimit (s : State) (k : Nat) (c : Ctx) (h at_ : Nat) : State :=
  addTimer s (max (s.cyc + 1) (at_ + c.pinLim)) ⟨.pinLimitExpiry, { subjOf k with id := h, val := at_ }⟩

/-- R30, R32, R33: a context is sent a reclaim request; one whose last DONE has issued may still complete in this cycle. -/
def requestReclaim (s : State) (k : Nat) : State :=
  let s := updCtx s k fun c => { c with reclaim := true, reclaimAt := s.cyc }
  let c := ctxOf s k
  let stop (s : State) : State :=
    addReady (updCtx s k fun c => { c with st := .stopping, why := .reclaim }) ⟨.reclaimStop, subjOf k⟩
  if c.regs.pin ≠ 0 then armPinLimit s k c (futOf c).toNat s.cyc
  else if c.st = .stopping then
    (if c.why = .fault ∨ c.why = .reclaim then s
     else if c.why = .done then addTimer s (s.cyc + 1) ⟨.reclaimStop, subjOf k⟩
     else stop s)
  else if c.st = .waiting ∧ c.heldTrap.isNone then stopForReclaim s k
  else s

/-- R30: the count of an unfinished task's future has reached zero. -/
def startReclaim (s : State) (q h : Nat) : State :=
  let s := setFutSt s q h 5
  match findTask s q h with
  | .queued core r =>
    let s := updCore s core fun u => { u with rq := u.rq.filter fun x => x.fut != r.fut }
    taskGone (retireFuture s q (futIndex h)) r.launch core false
  | .todo t r =>
    let core := ((teamOf s t).bind Team.cluster).getD 0 * 8
    let s := updTeam s t fun x => { x with todo := x.todo.filter fun y => y.2.fut != r.fut }
    taskGone (retireFuture s q (futIndex h)) r.launch core false
  | .away t r =>
    let s := updTeam s t fun x => { x with image := x.image.map fun i => { i with rq := i.rq.filter fun y => y.fut != r.fut } }
    taskGone (retireFuture s q (futIndex h)) r.launch 0 false
  | .running k => requestReclaim s k
  | .saved k =>
    match s.saved.find? (fun p => p.1 == k && futOf p.2 == BitVec.ofNat 64 h) with
    | some (_, c) =>
      if c.regs.pin ≠ 0 then
        let held (p : Nat × Ctx) : Nat × Ctx :=
          if p.1 == k && futOf p.2 == BitVec.ofNat 64 h then (p.1, { p.2 with reclaim := true, reclaimAt := s.cyc }) else p
        armPinLimit { s with saved := s.saved.map held } k c h s.cyc
      else addReady s ⟨.reclaimStop, { subjOf k with flag := true, id := h }⟩
    | none => s
  | .none => s

/-- R28 to R30: one reference on a live future is dropped. -/
def dropRef (s : State) (q h : Nat) : State :=
  if futStale s q h then s
  else
    let x := futRead s q (futIndex h)
    let n := futCnt x - 1
    let s := futWrite s q (futIndex h) (setFld x 19 0 n)
    if n ≠ 0 then s
    else if futSt x = 3 ∨ futSt x = 4 then retireFuture s q (futIndex h)
    else if futSt x = 1 ∨ futSt x = 2 then startReclaim s q h
    else s

/-- R28: a task's held references are dropped in list order. -/
def dropHeld (s : State) (q : Nat) (hs : List Word) : State := hs.foldl (fun s h => dropRef s q h.toNat) s

/-- R22, R29, R406: a future is marked complete or faulted; without references it retires. -/
def endFuture (s : State) (q h st : Nat) : State :=
  if futStale s q h then s
  else
    let s := wakeAwaiters (setFutSt s q h st)
    if futCnt (futRead s q (futIndex h)) = 0 then retireFuture s q (futIndex h) else s

/-! ### Freeing a context -/

/-- R20: the context holds no task, and its passes are gone. -/
def freeCtx (s : State) (k : Nat) : State :=
  let s := putCtx s k {}
  let gone := (coreAt s (k / 4)).passes.any fun p => p.ctx == k % 4
  let s := updCore s (k / 4) fun u => { u with
    passes := u.passes.filter fun p => p.ctx != k % 4
    sums := u.sums.filter fun m => m.ctx != k % 4
    fmtPend := u.fmtPend.map fun w => if w.ctx = k % 4 then { w with ctx := 4 } else w }
  moveSelector (if gone then kickUnit s (k / 4) else s) (k / 4)

/-- R22, R28, R241: a task has ended on a context: its credits are discarded, its references drop, the context is free, its launch counts it. -/
def endTask (s : State) (k : Nat) (err : Bool) : State :=
  let c := ctxOf s k
  let q := leadCore s (k / 4)
  let s := updCore s (k / 4) fun u => { u with credits := u.credits.filter fun x => !(x.key == k && x.fut == futOf c) }
  let s := dropHeld (freeCtx s k) q (match c.task with | some t => t.held | none => [])
  fillCore (taskGone s (ctxLaunch c) (k / 4) err) (k / 4)

end Sys2Proof.Machine
end

