-- ==== Sys2Proof/Machine/Tasks.lean ====
section
/-!
DEFINITION. Tasks and futures: SPAWN (R273), references (R274), FAWAIT, FSTAT, FSET (R275, R276), pins (R277, R32), and the task
engine's steps: starting (R20, R47), stealing (R26, R27, R382) and completing (R22) tasks.
-/

namespace Sys2Proof.Machine

/-! ### SPAWN -/

/-- R272: the fields of a 64-byte task record; spawn says that FUT must be 0, template that TRIP must. -/
def recordMalformed (x : Nat) : Bool :=
  fld x 5 0 != 0 || fld x 69 64 != 0 || fld x 133 128 != 0 || fld x 229 224 == 1 || fld x 229 224 == 2 || fld x 255 230 != 0
    || decide (6 ≤ fld x 386 384) || ppwMalformed (fld x 319 256) || fld x 447 387 != 0

/-- R272: a task record read from its 512 bits. -/
def recordOf (x : Nat) : TaskRec :=
  { pro := BitVec.ofNat 64 (fld x 63 0), ker := BitVec.ofNat 64 (fld x 127 64), epi := BitVec.ofNat 64 (fld x 191 128)
    trip := fld x 223 192, itr := fld x 229 224, ppw := BitVec.ofNat 64 (fld x 319 256), arg := BitVec.ofNat 64 (fld x 383 320)
    scope := fld x 386 384 }

/-- SPAWN (R273): the operands are the record's intermediate and virtual addresses and the argument. -/
def execSpawn (d a b : Nat) (ar : Bool) (s : State) : Host.Outcome State Fault Refusal :=
  let va := (readS s a).toNat
  if va % 64 ≠ 0 then trap s 0x04
  else match rangeCheck (me s) va 64 .read with
    | .trap code va ia => trapAddr s code va ia
    | .ok ia =>
      let multicast := match windowOf (myCore s) ia with | .mcast .. => true | _ => false
      if !multicast && windowOk s (quarterOf (myCore s)) (me s).pl (windowOf (myCore s) (ia + 63)) then
        .next (requestFor s (.spawn d a b ar) 2 none [ia, va, (readS s b).toNat] [.s d])
      else trapAddr s 0x0B va ia

/-- The task a request was made by, wherever its context stands. -/
def reqCtx (s : State) (r : Req) : Ctx :=
  if futOf (ctxOf s r.key) = r.fut then ctxOf s r.key
  else match s.saved.find? (fun p => p.1 == r.key && futOf p.2 == r.fut) with
    | some p => p.2
    | none => ctxOf s r.key

/-- The state with the held references of a request's task changed. -/
def updHeld (s : State) (r : Req) (f : List Word → List Word) : State :=
  updTask s r.key r.fut fun c => { c with task := c.task.map fun t => { t with held := f t.held } }

/-- R273: the start values a spawned task takes from its launch and its parent. -/
def spawnRecord (s : State) (r : Req) (x : Nat) (arg : Option Nat) : TaskRec :=
  let c := reqCtx s r
  let base := recordOf x
  let l : Launch := (launchOf s (ctxLaunch c)).getD { id := 0 }
  { base with
    arg := match arg with | some v => BitVec.ofNat 64 v | none => base.arg
    launch := ctxLaunch c, parent := r.fut, pl := r.pl, asn := r.asn, tvec := l.tvec, trec := l.trec, tword := l.tword
    cycLim := c.cycLim, yd := c.yd, pinLim := c.pinLim, spawned := true }

/-- R273: the record differs from the launch's partition word in VREG or TILE; without a launch, from the core's. -/
def configMismatch (s : State) (r : Req) (w : Word) : Bool :=
  match launchOf s (ctxLaunch (reqCtx s r)) with
  | some l => ppwConfig w != ppwConfig l.ppw
  | none => ppwConfig w != ((coreAt s (r.key / 4)).vreg, (coreAt s (r.key / 4)).tile)

/-- R58, R273: a trap of a request on addresses, a local one in its core-window form. -/
def reqTrapAt (s : State) (r : Req) (code va ia : Nat) : State :=
  takeTrap { s with at_ := r.key } r.key
    { code, slot := r.slot, pc := r.pc, pl := r.pl, ep := (ctxOf s r.key).regs.ep, cyc := s.cyc
      p0 := BitVec.ofNat 64 va, p1 := BitVec.ofNat 64 (coreForm (r.key / 4) ia) } r.bseq

/-- R273: SPAWN at its acceptance and after; a record whose page waits for its service is read again. -/
def acceptSpawn (s : State) (r : Req) (d : Nat) (ar : Bool) : State :=
  let core := r.key / 4
  let q := leadCore s core
  let ia := r.args.getD 0 0
  match readFor r 64 ia s with
  | (s, .inr .wait) => addTimer (putReq s { r with accepted := false }) (s.cyc + 1) ⟨.engineAcceptance, { subjOf r.key with id := r.id }⟩
  | (s, .inr (.fail code)) => reqTrapAt (dropReq s r) r code (r.args.getD 1 0) ia
  | (s, .inr (.ok _)) => s
  | (s, .inl bs) =>
    let x := ofBytes bs
    if recordMalformed x || fld x 511 448 != 0 then reqTrap (dropReq s r) r 0x1C
    else if configMismatch s r (BitVec.ofNat 64 (fld x 319 256)) then reqTrap (dropReq s r) r 0x1D
    else
      let t := spawnRecord s r x (if ar then some (r.args.getD 2 0) else none)
      let held := match (reqCtx s r).task with | some t => t.held.eraseDups.length | none => 0
      if 128 ≤ (coreAt s core).rq.length ∨ 256 ≤ held then answerS (dropReq s r) r d 0
      else match newFuture s q 1 core r.fut.toNat with
        | none => answerS (dropReq (findFutures s q 1) r) r d 0
        | some (h, s) =>
          let t := { t with fut := BitVec.ofNat 64 h }
          let s := updHeld s r (· ++ [BitVec.ofNat 64 h])
          let s := updCore s core fun u => { u with rq := t :: u.rq }
          let s := updLaunch s t.launch fun l => { l with live := l.live + 1 }
          fillCore (answerS (dropReq s r) r d h) core

/-! ### References -/

/-- R270: a handle with a non-zero reserved bit. -/
def handleBad (h : Word) : Bool := fld h.toNat 63 36 != 0

/-- A request of the task engine about a future. -/
def futRequest (s : State) (i : Instr) (d a : Nat) : Host.Outcome State Fault Refusal :=
  if handleBad (readS s a) then trap s 0x04
  else .next (requestFor s i 2 none [(readS s a).toNat] [.s d])

/-- FREF (R274). -/
def execFref (d a : Nat) (s : State) : Host.Outcome State Fault Refusal := futRequest s (.fref d a) d a

/-- R274: an accepted FREF.  DESIGN CHOICE (log 26): where the count and the list are both full, the reference overflow 0x12 is taken. -/
def acceptFref (s : State) (r : Req) (d : Nat) : State :=
  let q := leadCore s (r.key / 4)
  let h := r.args.getD 0 0
  let x := futRead s q (futIndex h)
  let held := match (reqCtx s r).task with | some t => t.held | none => []
  let t := dropReq s r
  if futStale s q h || futSt x == 5 then answerS t r d 1
  else if futCnt x = 1048575 then reqTrap t r 0x12
  else if !held.contains (BitVec.ofNat 64 h) && decide (256 ≤ held.eraseDups.length) then reqTrap t r 0x14
  else answerS (updHeld (futWrite t q (futIndex h) (setFld x 19 0 (futCnt x + 1))) r (· ++ [BitVec.ofNat 64 h])) r d 0

/-- FDROP (R274). -/
def execFdrop (d a : Nat) (s : State) : Host.Outcome State Fault Refusal := futRequest s (.fdrop d a) d a

/-- R28, R274: an accepted FDROP. -/
def acceptFdrop (s : State) (r : Req) (d : Nat) : State :=
  let q := leadCore s (r.key / 4)
  let h := r.args.getD 0 0
  let held := match (reqCtx s r).task with | some t => t.held | none => []
  let t := dropReq s r
  if futStale s q h then answerS t r d 1
  else if !held.contains (BitVec.ofNat 64 h) then reqTrap t r 0x13
  else dropRef (answerS (updHeld t r fun l => l.erase (BitVec.ofNat 64 h)) r d 0) q h

/-- FSTAT (R275). -/
def execFstat (d a : Nat) (s : State) : Host.Outcome State Fault Refusal := futRequest s (.fstat d a) d a

/-- R275: an accepted FSTAT. -/
def acceptFstat (s : State) (r : Req) (d : Nat) : State :=
  let q := leadCore s (r.key / 4)
  let h := r.args.getD 0 0
  let x := futRead s q (futIndex h)
  answerS (dropReq s r) r d (if futStale s q h || futSt x == 0 then 2 ^ 23 else futCnt x + futSt x * 2 ^ 20)

/-- FAWAIT (R275): the future is complete, faulted or stale when the bundle issues. -/
def execFawait (d a c : Nat) (s : State) : Host.Outcome State Fault Refusal :=
  let h := (readS s a).toNat
  if handleBad (readS s a) then trap s 0x04
  else
    let q := myLead s
    let x := futRead s q (futIndex h)
    let (v, f) : Nat × Bool :=
      if futStale s q h then (1, false) else if futSt x = 3 then (fld x 127 64, true) else (2, false)
    .next (queueBoard s [{ dst := .s d, bits := v }, { dst := .f c, bits := f.toNat }])

/-- FSET (R276). -/
def execFset (d a : Nat) (s : State) : Host.Outcome State Fault Refusal :=
  .next (requestFor s (.fset d a) 2 none [(readS s a).toNat] [.s d])

/-- R276: an accepted FSET; a context without a task's future has no RES, and reads an undefined value. -/
def acceptFset (s : State) (r : Req) (d : Nat) : State :=
  let q := leadCore s (r.key / 4)
  let h := r.fut.toNat
  let x := futRead s q (futIndex h)
  let t := dropReq s r
  if futStale s q h then answerS t r d (Config.undefReg s.fresh (.s d))
  else answerS (futWrite t q (futIndex h) (setFld x 127 64 (r.args.getD 0 0))) r d (fld x 127 64)

/-! ### Pins -/

/-- R32, R277: the boundary after the bundle completes the region, and leaves this pin depth. -/
def pinTo (s : State) (n : Nat) : State := { s with iss := { s.iss with mark := true, pin := some n } }

/-- FPIN (R277). -/
def execFpin (s : State) : Host.Outcome State Fault Refusal :=
  let n := (me s).regs.pin
  if n = 15 then trap s 0x15 else .next (pinTo s (n + 1))

/-- FUNPIN (R277). -/
def execFunpin (s : State) : Host.Outcome State Fault Refusal :=
  let n := (me s).regs.pin
  if n = 0 then trap s 0x16 else .next (pinTo s (n - 1))

/-! ### Starting tasks -/

/-- R20: the context of a task at its start. -/
def startCtx (s : State) (core : Nat) (t : TaskRec) : Ctx :=
  let regs := [(1, t.arg.toNat), (2, t.fut.toNat)] ++ t.spatial
  let regs : Regs := regs.foldl (fun r (n, v) => putReg r { dst := .s n, bits := v }) {}
  let u := coreAt s core
  { st := .ready, pc := t.pro, pl := t.pl, task := some { record := t }, regs
    ppw := ppwOf u.vreg u.tile, asn := t.asn, lnum := match launchOf s t.launch with | some l => l.lnum | none => 0
    rregs := asnRanges s (leadCore s core) t.asn, tvec := t.tvec, trec := t.trec, tword := t.tword
    cycLim := t.cycLim, yd := t.yd, pinLim := t.pinLim, mark := { regs, restart := t.pro } }

/-- R19, R26: the task a free context would start: a launched one of the resident team at its position, or the head of the
ready queue; with the state in which it is taken. -/
def takeTask (s : State) (k : Nat) : Option (TaskRec × State) :=
  let core := k / 4
  let queued (kctx launch : Nat) : Option (TaskRec × State) :=
    match (coreAt s core).rq with
    | t :: ts => if k % 4 < kctx ∧ t.launch = launch then some (t, updCore s core fun u => { u with rq := ts }) else none
    | [] => none
  match residentOf s (clusterOf core) with
  | some t =>
    if t.leaving then none
    else match t.todo.find? (fun p => p.1 == core % 8 + 8 * (k % 4)) with
      | some (i, r) => some (r, updTeam s t.id fun t => { t with todo := t.todo.filter fun p => p.1 != i })
      | none => queued (match launchOf s t.launch with | some l => l.kctx | none => 0) t.launch
  | none => queued 4 0

/-- TASK_START (R20, R47): a task starts on a free context. -/
def execTaskStart (s : State) : Host.Outcome State Fault Refusal :=
  let k := keyOf s.subj
  let core := k / 4
  if (ctxOf s k).st ≠ .free || coreFenced s core || ctxClaimed s k then .next s
  else match takeTask s k with
    | none => .next s
    | some (t, s') =>
      if configFits s core t.ppw then
        let s := if ppwConfig t.ppw = ((coreAt s core).vreg, (coreAt s core).tile) then s' else setConfig s' core (ppwConfig t.ppw).1 (ppwConfig t.ppw).2
        let q := leadCore s core
        let s := setFutCore (setFutSt s q t.fut.toNat 2) q t.fut.toNat core
        let s := match residentOf s (clusterOf core) with
          | some m => if m.todo.isEmpty && m.slice.isNone then startSlice s m else s
          | none => s
        .next (makeReady (putCtx s k (startCtx s core t)) k)
      else .next s

/-! ### Completion -/

/-- R22: requests of a context's task that its completion waits for. -/
def taskRequests (s : State) (k : Nat) : Bool :=
  let scope := match (ctxOf s k).task with | some t => t.record.scope | none => 0
  s.reqs.any fun r => r.key == k && r.fut == futOf (ctxOf s k) && match r.ins with
    | .rput .. => decide (5 ≤ scope)
    | _ => true

/-- R22: a result in flight that no completion waits for: a known value for a register of the context's own. -/
def Flight.isOwnValue (f : Flight) : Bool := f.src.isValue && !f.dsts.any fun r => r == .sys .bud || r == .sys .pkg

/-- R22: everything the task issued has performed. -/
def taskQuiet (s : State) (k : Nat) : Bool :=
  let c := ctxOf s k
  c.flights.all Flight.isOwnValue && slipsEmpty c && !taskRequests s k && c.nextMark.isNone && c.region.gate.isEmpty && c.late.isEmpty &&
  c.async.isEmpty

/-- TASK_COMPLETE (R22, R33, R406): the task of a context ends: complete, or faulted as its trap left it. -/
def execTaskComplete (s : State) : Host.Outcome State Fault Refusal :=
  let k := keyOf s.subj
  let c := ctxOf s k
  let q := leadCore s (k / 4)
  let h := (futOf c).toNat
  if s.subj.flag then
    (if c.why = .fault then
      let s := forceLate s k
      if (ctxOf s k).late.isEmpty then .next (endTask (endFuture s q h 4) k true) else .next (addTimer s (s.cyc + 1) ⟨.taskComplete, s.subj⟩)
     else .next s)
  else if c.st ≠ .stopping ∨ c.why ≠ .done then .next s
  else if reclaimDue c && decide (c.reclaimAt < s.cyc) then .next (addReady s ⟨.reclaimStop, subjOf k⟩)
  else if taskQuiet s k then .next (endTask (endFuture s q h 3) k false)
  else if !c.async.isEmpty ∧ c.flights.isEmpty ∧ c.nextMark.isNone then
    -- R400: a pending asynchronous trap is delivered before the context stops
    match c.async with
    | t :: ts => .next (takeTrap (updCtx { s with at_ := k } k fun c => { c with async := ts }) k
        { t with pc := c.pc, pl := c.pl, ep := c.regs.ep, cyc := s.cyc } (c.bseq + 1))
    | [] => .next s
  else .next (addTimer s (s.cyc + 1) ⟨.taskComplete, s.subj⟩)

/-! ### Stealing -/

/-- R382: one draw of a core's generator. -/
def xorshift (x : Nat) : Nat :=
  let x := x ^^^ (x * 2 ^ 13 % 2 ^ 32)
  let x := x ^^^ (x / 2 ^ 17)
  x ^^^ (x * 2 ^ 5 % 2 ^ 32)

/-- R382: the seed of a core's generator for a launch. -/
def stealSeed (core lnum : Nat) : Nat :=
  let x := (core * 2 ^ 16 % 2 ^ 32) ^^^ (lnum % 2 ^ 32) ^^^ 0x9E3779B9
  if x = 0 then 1 else x

/-- R26: the cores of a launch's core set, in ascending order. -/
def setCores (cset : Nat) : List Nat := ((List.range 144).filter fun k => bitAt cset k).flatMap clusterCores

/-- R26, R411: the core is idle for the launch resident on its cluster, which steals; none is placed on a fenced core. -/
def stealLaunch (s : State) (core : Nat) : Option Launch :=
  match residentOf s (clusterOf core) with
  | none => none
  | some t =>
    match launchOf s t.launch with
    | none => none
    | some l =>
      if !l.ns && !t.leaving && !coreFenced s core && !modeBit s (leadCore s core) 3
          && (List.range l.kctx).any (fun i => (ctxOf s (4 * core + i)).st == .free)
          && (coreAt s core).rq.all (fun r => r.launch != l.id) && decide (1 < (setCores l.cset).length) then some l
      else none

/-- STEAL_REQUEST (R26, R382): an idle core draws a victim and asks it. -/
def execStealRequest (s : State) : Host.Outcome State Fault Refusal :=
  let core := s.subj.core
  let u := coreAt s core
  if u.steal.asked.isSome || u.steal.off || s.transit.any (fun p => p.1 == core) then .next s
  else match stealLaunch s core with
    | none => .next s
    | some l =>
      let st : Steal := if u.steal.launch = l.id then u.steal else { launch := l.id, x := stealSeed core l.lnum }
      let x := xorshift st.x
      let cs := (setCores l.cset).filter fun c => c != core
      let v := cs.getD (x % cs.length) core
      let s := updCore s core fun u => { u with steal := { st with x, asked := some v } }
      .next (eager s ⟨.stealAnswer, { core := v }⟩)

/-- R27: the thief a victim answers first. -/
def firstThief (s : State) (victim : Nat) : Option Nat :=
  (s.cores.find? fun (_, u) => u.steal.asked == some victim).map Prod.fst

/-- R27: tasks of the victim's queue that its own free contexts take first: those that may take the task at its head. -/
def ownClaims (s : State) (core : Nat) : Nat :=
  ((coreKeys core).filter fun k => (ctxOf s k).st == .free && !coreFenced s core && !ctxClaimed s k &&
    match takeTask s k with
    | some (t, _) => (coreAt s core).rq.any (fun r => r.fut == t.fut) && configFits s core t.ppw
    | none => false).length

/-- The list without its last task of a launch, and that task. -/
def takeTail (launch : Nat) (rs : List TaskRec) : Option (TaskRec × List TaskRec) :=
  match rs.reverse.find? (fun r => r.launch == launch) with
  | some r => some (r, rs.filter fun x => x.fut != r.fut)
  | none => none

/-- STEAL_ANSWER (R26, R27, R382): a victim answers the lowest-numbered thief that has asked it: with the task at its tail, or
empty.  It answers as the cycle ends, when every request of the cycle has come and its own contexts have taken theirs. -/
def execStealAnswer (s : State) : Host.Outcome State Fault Refusal :=
  let v := s.subj.core
  if !s.subj.flag then .next (addTimer s (s.cyc + 1) ⟨.stealAnswer, { s.subj with flag := true }⟩)
  else match firstThief s v with
  | none => .next s
  | some thief =>
    let st := (coreAt s thief).steal
    let s := updCore s thief fun u => { u with steal := { u.steal with asked := none } }
    let empty (s : State) : State :=
      let b := min st.wait (creg s (leadCore s thief) .sched 0x040)
      let n := min (2 * b) (creg s (leadCore s thief) .sched 0x040)
      addTimer (updCore s thief fun u => { u with steal := { u.steal with off := true, wait := n } }) (s.cyc + b)
        ⟨.stealBackoffExpiry, { core := thief }⟩
    match launchOf s st.launch with
    | none => .next s
    | some l =>
      if l.ns || coreFenced s thief || decide (((coreAt s v).rq.filter fun r => r.launch == l.id).length ≤ ownClaims s v) then .next (empty s)
      else match takeTail l.id (coreAt s v).rq with
        | none => .next (empty s)
        | some (r, rest) =>
          let s := updCore s v fun u => { u with rq := rest }
          let s := updCore s thief fun u => { u with steal := { u.steal with wait := 64 } }
          .next (eager { s with transit := s.transit ++ [(thief, r)] } ⟨.stolenTaskArrival, { core := thief }⟩)

/-- STEAL_BACKOFF_EXPIRY (R382). -/
def execStealBackoffExpiry (s : State) : Host.Outcome State Fault Refusal :=
  let core := s.subj.core
  .next (eager (updCore s core fun u => { u with steal := { u.steal with off := false } }) ⟨.stealRequest, { core }⟩)

/-- STOLEN_TASK_ARRIVAL (R26, R33): a stolen task joins the head of the thief's queue, or is reclaimed there. -/
def execStolenTaskArrival (s : State) : Host.Outcome State Fault Refusal :=
  let core := s.subj.core
  match s.transit.find? (fun p => p.1 == core) with
  | none => .next s
  | some (_, r) =>
    let q := leadCore s core
    let s := { s with transit := s.transit.filter fun p => p.2.fut != r.fut }
    if futStale s q r.fut.toNat || futSt (futRead s q (futIndex r.fut.toNat)) != 5 then
      let s := updCore s core fun u => { u with rq := r :: u.rq }
      .next (fillCore (setFutCore s q r.fut.toNat core) core)
    else .next (taskGone (retireFuture s q (futIndex r.fut.toNat)) r.launch core false)

end Sys2Proof.Machine
end

