-- ==== Sys2Proof/Machine/Stopping.lean ====
section
/-!
DEFINITION. How contexts stop and go on: reclamation (R30 to R33, R258), limits (R32, R36, R37), saving at a stopping boundary (R24,
R34, R38, R97, R209) and resuming (R34, R364).
-/

namespace Sys2Proof.Machine

/-! ### Reclamation -/

/-- R258: a remote get whose task is reclaimed takes what it has asked for, and ends. -/
def cancelGet (s : State) (r : Req) (p : PullJob) : State :=
  if p.landed = p.asked then endPull s r p 5 else putReq s { r with cancel := true }

/-- R258: a graph run whose task is reclaimed ends after the chunk under way; one that waits for another run of its slot has none. -/
def cancelRun (s : State) (r : Req) (j : RunJob) : State :=
  if ((runsIn s j.graph).head?.map fun f => f.1.id) = some r.id then putReq s { r with cancel := true } else endRun s r j 5

/-- R31, R258, R279: what reclamation does to a request of the task. -/
def cancelRequest (s : State) (r : Req) : State :=
  match reqOf s r.id with
  | none => s
  | some r =>
    match r.job with
    | .pull p => (match r.ins with | .rget .. => cancelGet s r p | _ => endPull s r p 5)
    | .copy _ => putReq s { r with cancel := true }
    | .run j => cancelRun s r j
    | .remote _ => endX s r 5 0 (r.args.getD 0 0)
    | .tree t => endX s r 5 0 t.root
    | .state _ => s
    | .none =>
      match r.ins with
      | .rcont .. => endX s r 5 0 (contRoot r)
      | .agload .. => endX (dropGraph s (graphKey (r.key / 4) (r.args.getD 1 0))) r 5 0 0
      | .sld .. | .sst .. => dropReq (flagWord s r 5) r
      | .ctxsave .. | .ctxload .. | .ckey .. | .swset .. | .swadd .. => s
      | _ => dropReq s r

/-- R30, R31, R241: a task's effects outside its context end with its reclamation; the credits of one that is out travel with its team. -/
def endEffects (s : State) (k : Nat) (fut : Word) : State :=
  let s := (s.notices.filter fun n => n.key == k && n.fut == fut && n.chunk.isNone).foldl withdraw s
  let own (c : Credit) : Bool := c.key == k && c.fut == fut
  let s := updCore s (k / 4) fun u => { u with credits := u.credits.filter fun c => !own c }
  let away (t : Team) : Team :=
    if t.outs.contains (k, fut) then { t with image := t.image.map fun i => { i with credits := i.credits.filter fun c => !own c } } else t
  let s := { s with teams := s.teams.map away }
  (s.reqs.filter fun r => r.key == k && r.fut == fut).foldl cancelRequest s

/-- R30, R351: the reclaimed task's future is retired; its references drop; its launch counts it.  Its context is free by then, and each of
its state-store operations has taken effect or ended. -/
def reclaimed (s : State) (k : Nat) (c : Ctx) : State :=
  let q := leadCore s (k / 4)
  let h := (futOf c).toNat
  let s := if futStale s q h then s else retireFuture s q (futIndex h)
  let s := dropHeld s q (match c.task with | some t => t.held | none => [])
  fillCore (taskGone s (ctxLaunch c) (k / 4) false) (k / 4)

/-- RECLAIM_STOP (R30, R31, R33): a context at its reclamation point rolls back, its task's effects end and it is free; flag says that
the task of future id stands saved. -/
def execReclaimStop (s : State) : Host.Outcome State Fault Refusal :=
  let k := keyOf s.subj
  if s.subj.flag then
    match s.saved.find? (fun p => p.1 == k && futOf p.2 == BitVec.ofNat 64 s.subj.id) with
    | none => .next s
    | some (_, c) =>
      let s := { s with saved := s.saved.filter fun p => !(p.1 == k && futOf p.2 == futOf c) }
      .next (reclaimed (endEffects s k (futOf c)) k c)
  else
    let late := (ctxOf s k).st = .stopping ∧ (ctxOf s k).why = .done ∧ reclaimDue (ctxOf s k) ∧ (ctxOf s k).reclaimAt < s.cyc
    let s := if late then updCtx s k fun c => { c with why := .reclaim } else s
    let c := ctxOf s k
    if c.st ≠ .stopping ∨ c.why ≠ .reclaim then .next s
    else if c.nextMark.isSome && !c.ownMark then .next (addTimer (tryAfterMark s k) (s.cyc + 1) ⟨.reclaimStop, s.subj⟩)
    else
      -- R96: what a completed mark released stays
      let s := forceLate s k
      if !(ctxOf s k).late.isEmpty then .next (addTimer s (s.cyc + 1) ⟨.reclaimStop, s.subj⟩) else
      let s := endEffects (rollback s k) k (futOf c)
      .next (reclaimed (freeCtx s k) k c)

/-- R32, R406, R407: the record of a trap of a context that its reclamation follows: written as its delivery writes it. -/
def recordTrap (s : State) (k : Nat) (t : Trap) : State :=
  let c := ctxOf s k
  if c.inService then ringAppend s (quarterOf (k / 4)) trapRing (trapRecord s k { t with code := 0x20 })
  else if c.tvec ≠ 0 then writeTrec s k (trapRecord s k t)
  else ringAppend s (quarterOf (k / 4)) trapRing (trapRecord s k t)

/-- R32: the pin limit trap of a context. -/
def pinTrap (s : State) (c : Ctx) : Trap := { code := 0x17, pc := c.pc, pl := c.pl, ep := c.regs.ep, cyc := s.cyc }

/-- R32: the held reclaim request that the limit ends: raised in cycle val, and still held. -/
def pinHeld (s : State) (c : Ctx) : Bool :=
  c.reclaim && c.reclaimAt == s.subj.val && decide (c.reclaimAt + c.pinLim ≤ s.cyc) && c.regs.pin != 0

/-- R32: the place of the task of future id: the subject's own, or the one it has moved to. -/
def pinPlace (s : State) : Nat :=
  let mine (p : Nat × Ctx) : Bool := leadCore s (p.1 / 4) == leadCore s s.subj.core && p.2.st != .free && (futOf p.2).toNat == s.subj.id
  if (futOf (ctxOf s (keyOf s.subj))).toNat = s.subj.id then keyOf s.subj else ((s.ctxs.find? mine).map Prod.fst).getD (keyOf s.subj)

/-- PIN_LIMIT_EXPIRY (R32): the task of future id traps, and its reclamation proceeds from the trap's rollback; one that stands saved is
reclaimed where it is. -/
def execPinLimitExpiry (s : State) : Host.Outcome State Fault Refusal :=
  let k := pinPlace s
  let c := ctxOf s k
  if (futOf c).toNat = s.subj.id ∧ pinHeld s c ∧ c.st ≠ .free then
    if mustHold c (c.bseq + 1) then .next (addTimer s (s.cyc + 1) ⟨.pinLimitExpiry, s.subj⟩)
    else
      let t := pinTrap s c
      let s := updCtx (recordTrap (rollback s k) k t) k fun c => { c with st := .stopping, why := .reclaim }
      .next (addReady (moveSelector { s with iss := {} } (k / 4)) ⟨.reclaimStop, subjOf k⟩)
  else
    match s.saved.find? (fun p => leadCore s (p.1 / 4) == leadCore s s.subj.core && (futOf p.2).toNat == s.subj.id && pinHeld s p.2) with
    | some (j, c) =>
      let s := putCtx (recordTrap (putCtx s j c) j (pinTrap s c)) j (ctxOf s j)
      .next (addReady s ⟨.reclaimStop, { subjOf j with flag := true, id := s.subj.id }⟩)
    | none => .next s

/-! ### Limits -/

/-- WATCHDOG_EXPIRY (R36): the count was above the limit at the context's boundary, where the flag is set, or is so now (R357). -/
def execWatchdogExpiry (s : State) : Host.Outcome State Fault Refusal :=
  let k := keyOf s.subj
  let c := ctxOf s k
  if (s.subj.flag ∨ watchdogDue c) ∧ c.st ≠ .free ∧ c.st ≠ .stopping then
    let s := { s with at_ := k }
    .next { takeTrap s k { trapOf s 0x11 with slot := 0, buf := false, pc := c.pc } (c.bseq + 1) with iss := {} }
  else .next s

/-- R37: the queue scheduler raises a context's yield request, and its deadline starts. -/
def raiseYield (s : State) (k : Nat) : State :=
  let c := ctxOf s k
  if c.yieldReq || c.st == .free then s
  else
    addTimer (updCtx s k fun c => { c with yieldReq := true, yieldAt := s.cyc }) (s.cyc + c.yd)
      ⟨.yieldDeadlineExpiry, { subjOf k with val := s.cyc }⟩

/-- R275: the context blocks in FAWAIT on a future whose task is queued on its core, so that no context is free for it. -/
def awaitsQueued (s : State) (k : Nat) (h : Word) : Bool :=
  (ctxOf s k).awaiting == some h && (coreAt s (k / 4)).rq.any fun r => r.fut == h

/-- YIELD_DEADLINE_EXPIRY (R37, R38, R275, R412): the request is met by force at the next bundle boundary; a YIELD issued in the cycle
of the expiry meets it first, and a region retry runs to its mark.  Where the flag is set, the context has blocked in bundle id for the
deadline on future val, and gives its place up where that future's task is still queued on its core. -/
def execYieldDeadlineExpiry (s : State) : Host.Outcome State Fault Refusal :=
  let k := keyOf s.subj
  let c := ctxOf s k
  if s.subj.flag then
    (if c.st = .waiting ∧ c.bseq = s.subj.id ∧ awaitsQueued s k (BitVec.ofNat 64 s.subj.val) then
      (if c.retry || c.heldTrap.isSome || !c.async.isEmpty then .next (addTimer s (s.cyc + 1) ⟨.yieldDeadlineExpiry, s.subj⟩)
       else .next (stopForSave s k))
     else .next s)
  else if !c.yieldReq || c.yieldAt != s.subj.val || decide (s.cyc < c.yieldAt + c.yd) || c.st == .free || c.st == .stopping then .next s
  else if c.retry || c.heldTrap.isSome || !c.async.isEmpty || !c.forced then
    .next (addTimer (updCtx s k fun c => { c with forced := !c.retry }) (s.cyc + 1) ⟨.yieldDeadlineExpiry, s.subj⟩)
  else .next (stopForSave s k)

/-! ### Saving -/

/-- R38, R120: the head of a buffer is held by something the drain cannot clear. -/
def headBlocked (s : State) (k : Nat) (u : SlipUnit) : Bool :=
  match (slipBuf (ctxOf s k) u).entries with
  | [] => true
  | e :: _ => e.pred && heldNow s k e.work

/-- R97, R120: nothing of the context is in flight, and its buffers are empty or blocked. -/
def saveDrained (s : State) (k : Nat) : Bool :=
  (ctxOf s k).flights.isEmpty && slipUnits.all (headBlocked s k) &&
  s.reqs.all (fun r => !(r.key == k && (!r.accepted || drainWaits r.ins))) &&
  (coreAt s (k / 4)).passes.all fun p => p.ctx != k % 4 || p.folding == 0

/-- R209: a pass that stops at its K-block boundary. -/
def stopPass (p : Pass) : Pass :=
  if p.st = .suspended then { p with stop := true }
  else { p with st := .waiting, stop := true, susp := if p.susp.rdy then p.susp else { rdy := true } }

/-- R209: the context's passes stop, in the order of their MMAs. -/
def stopPasses (s : State) (k : Nat) : State :=
  let mine (ps : List Pass) : List Pass :=
    ((ps.filter fun p => p.ctx == k % 4).mergeSort fun a b => decide (a.id ≤ b.id)).map fun p => if p.kbn < p.kb then stopPass p else p
  kickUnit (updCore s (k / 4) fun u => { u with passes := u.passes.filter (fun p => p.ctx != k % 4) ++ mine u.passes }) (k / 4)

/-- R205, R209: mrp showing the earliest stopped pass. -/
def mrpStopped (mrp : Word) (ps : List Pass) : Word :=
  match ps with
  | [] => mrp
  | p :: _ =>
    BitVec.ofNat 64 (1 + (p.susp.rdy).toNat * 2 + p.q * 2 ^ 2 + p.kbn * 2 ^ 6 + p.susp.op.toNat * 2 ^ 12 + p.susp.row * 2 ^ 13
      + p.susp.fc * 2 ^ 18)

/-- R364: what the image keeps of the words a context links or waits on. -/
def saveWaits (s : State) (k : Nat) (c : Ctx) : Ctx :=
  { c with
    savedGens := c.range.map fun (i, e) => (i, swGen s (k / 4) (fld e.word.toNat 47 31 * 16))
    savedWait := c.stalled.map fun w => (w, swGen s (k / 4) w) }

/-- R38: the entries that a blocked head holds back come after the mark of the saved boundary; a rollback to it discards them, as R404 has
every entry discarded. -/
def afterSaved (c : Ctx) : Ctx :=
  { mapSlips (fun e => { e with work := { e.work with bseq := e.work.bseq + 5 } }) c with bseq := c.bseq + 5 }

/-- R34, R97, R209: a drained context whose stopping mark has completed is saved where it stands. -/
def saveHere (s : State) (k : Nat) : State :=
  let ps := (coreAt s (k / 4)).passes.filter fun p => p.ctx == k % 4
  updCtx s k fun c =>
    let c := afterSaved (saveWaits s k { c with mrp := mrpStopped c.mrp ps })
    if c.why = .halt then { c with halted := true } else { c with saved := true }

/-- R24: the contexts of a cluster that hold a task. -/
def clusterKeys (s : State) (cluster : Nat) : List Nat :=
  ((clusterCores cluster).flatMap coreKeys).filter fun k => (ctxOf s k).st != .free

/-- R24: a saved context leaves its core, its passes with it. -/
def liftCtx (s : State) (k : Nat) : State :=
  let ps := (coreAt s (k / 4)).passes.filter fun p => p.ctx == k % 4
  freeCtx { s with saved := s.saved ++ [(k, { ctxOf s k with passes := ps })] } k

/-- R34, R275: a task saved on its place gives it up to the queued task it waits for, or is resumed there. -/
def giveUpOrResume (s : State) (k : Nat) : State :=
  match (ctxOf s k).awaiting with
  | some h => if awaitsQueued s k h then fillCore (liftCtx s k) (k / 4) else addReady s ⟨.taskResume, subjOf k⟩
  | none => addReady s ⟨.taskResume, subjOf k⟩

/-- R34: a context has been saved: its team's swap-out may be over, or the task gives its place up or is resumed. -/
def afterSave (s : State) (k : Nat) : State :=
  match residentOf s (clusterOf (k / 4)) with
  | some t => if t.leaving then addReady s ⟨.teamSwapIn, { id := clusterOf (k / 4) }⟩ else giveUpOrResume s k
  | none => giveUpOrResume s k

/-- CONTEXT_SAVE_COMPLETE (R38, R97, R120, R361): a stopping context drains, its mark completes at the boundary, and it is saved or
halted; until then this step is tried again in the next cycle. -/
def execContextSaveComplete (s : State) : Host.Outcome State Fault Refusal :=
  let k := keyOf s.subj
  let c := ctxOf s k
  let again (s : State) : Host.Outcome State Fault Refusal := .next (addTimer s (s.cyc + 1) ⟨.contextSaveComplete, s.subj⟩)
  if c.st ≠ .stopping || (c.why != .save && c.why != .halt) || c.saved || c.halted then .next s
  else
    match c.async with
    | t :: ts =>
      -- R400: delivered before the context stops
      if mustHold c (c.bseq + 1) then again s
      else
        let s := updCtx { s with at_ := k } k fun c => { c with async := ts }
        .next (takeTrap s k { t with pc := c.pc, pl := c.pl, ep := c.regs.ep, cyc := s.cyc } (c.bseq + 1))
    | [] =>
      let s := stopPasses s k
      if !saveDrained s k then again s
      else if c.nextMark.isSome then again (tryAfterMark s k)
      else match confirmRegion s k with
        | (s, .wait) => again s
        | (s, .fail code g) => .next (gateTrap { s with at_ := k } k code g)
        | (s, .ok) =>
          let s := forceLate (completeMark s k (markOf (ctxOf s k))) k
          if !(ctxOf s k).late.isEmpty then again s else
          let s := saveHere s k
          .next (if c.why = .halt then s else afterSave s k)

/-! ### Resuming -/

/-- R364: a linked word's generation has changed since the save: the entry is ready. -/
def refreshEntry (s : State) (core : Nat) (c : Ctx) (p : Nat × RangeEntry) : Nat × RangeEntry :=
  let w := p.2.word.toNat
  if bitAt w 48 && !bitAt w 49 && c.savedGens.any (fun g => g.1 == p.1 && g.2 != swGen s core (fld w 47 31 * 16)) then
    (p.1, { p.2 with word := p.2.word ||| BitVec.twoPow 64 49 })
  else p

/-- R364: the waits of a context as it is about to be reissued after a load or a resume. -/
def refreshWaits (s : State) (core : Nat) (c : Ctx) : Ctx :=
  let c := { c with range := c.range.map (refreshEntry s core c) }
  let c := match c.savedWait with
    | some (w, g) => if swGen s core w = g then c else pushToken c ⟨w, swGen s core w⟩
    | none => c
  { c with savedGens := [], savedWait := none }

/-- R120: saved slip entries re-enter their buffer with their spacing. -/
def rebaseSlip (cyc : Nat) (b : SlipBuf) : SlipBuf :=
  match b.entries with
  | [] => b
  | e :: _ => { b with entries := b.entries.map fun x => { x with due := cyc + b.lag + (x.due - e.due) } }

/-- R203: what a pass has still to read lies in its core's scratchpad. -/
def passPaced (s : State) (k : Nat) (p : Pass) : Bool :=
  [(p.wa, false), (p.wb, true)].all fun (w, op) => w || (unreadRows op p).all fun r =>
    match (rangeFind { ctxOf s k with rregs := p.maps } r.1).map fun x => windowOf (k / 4) (rangeMap x r.1) with
    | some (.scratch c _) => c == k / 4
    | _ => false

/-- R206, R209: a pass of a context that goes on: as though suspended with RDY = 1; the save has lost the rows it had fetched. -/
def startPass (s : State) (k : Nat) (p : Pass) : Pass :=
  if p.kbn < p.kb then { p with stop := false, st := .waiting, paced := passPaced s k p, susp := { p.susp with rdy := true, kept := none } } else p

/-- R206, R209: the passes of a context re-enter the queue in their order, and mrp shows RDY. -/
def startPasses (s : State) (k : Nat) : State :=
  let ps := (coreAt s (k / 4)).passes.filter fun p => p.ctx == k % 4
  let s := updCore s (k / 4) fun u => { u with passes := u.passes.filter (fun p => p.ctx != k % 4) ++ ps.map (startPass s k) }
  let s := if ps.any fun p => decide (p.kbn < p.kb) then updCtx s k fun c => { c with mrp := c.mrp ||| 2 } else s
  kickUnit s (k / 4)

/-- R34, R364: a saved context on its place goes on. -/
def resumeHere (s : State) (k : Nat) : State :=
  let s := updCtx s k fun c =>
    let c := refreshWaits s (k / 4) { c with saved := false, halted := false, why := .none, yieldReq := false, forced := false }
    { c with
      slipV := rebaseSlip s.cyc c.slipV, slipM := rebaseSlip s.cyc c.slipM, slipL := rebaseSlip s.cyc c.slipL
      slipX := rebaseSlip s.cyc c.slipX, stalled := none, awaiting := none, agwait := none }
  makeReady (startPasses s k) k

/-- R24: what the context saved on place k owns is found on place j. -/
def rekey (s : State) (k j : Nat) (fut : Word) : State :=
  { s with
    saved := s.saved.map fun p => if p.1 = k ∧ futOf p.2 = fut then (j, p.2) else p
    reqs := s.reqs.map fun r => if r.key = k ∧ r.fut = fut then { r with key := j } else r }

/-- R24, R34, R361: a context saved on place k goes on there, in its own core configuration; a halted one stays halted. -/
def unpark (s : State) (k : Nat) (c : Ctx) : State :=
  let s := { s with saved := s.saved.filter fun p => !(p.1 == k && futOf p.2 == futOf c) }
  let core := k / 4
  let s := if ppwConfig c.ppw = ((coreAt s core).vreg, (coreAt s core).tile) then s else setConfig s core (ppwConfig c.ppw).1 (ppwConfig c.ppw).2
  let s := updCore s core fun u => { u with passes := u.passes ++ c.passes.map fun p => { p with ctx := k % 4 } }
  let s := setFutCore (putCtx s k { c with passes := [] }) (leadCore s core) (futOf c).toNat core
  if c.halted then s else resumeHere s k

/-- R24: the context saved on place k goes on on place j; where another of its team is there already, it waits for the place. -/
def dropCtx (s : State) (k j : Nat) (fut : Word) : State :=
  let s := rekey s k j fut
  if (ctxOf s j).st ≠ .free then s
  else match s.saved.find? (fun p => p.1 == j && futOf p.2 == fut) with
    | some (_, c) => unpark s j c
    | none => s

/-- R275: the wait of a context that gave up its place is over. -/
def waitOver (s : State) (q : Nat) (c : Ctx) : Bool :=
  match c.awaiting with
  | some h => futStale s q h.toNat || futSt (futRead s q (futIndex h.toNat)) == 3 || futSt (futRead s q (futIndex h.toNat)) == 4
  | none => true

/-- R34, R275: the context that gave up this free place and may go on. -/
def parkedHere (s : State) (k : Nat) : Option Ctx :=
  let core := k / 4
  let leaving := match residentOf s (clusterOf core) with | some t => t.leaving | none => false
  let own (p : Nat × Ctx) : Bool := p.1 == k && waitOver s (leadCore s core) p.2 && configFits s core p.2.ppw &&
    match residentOf s (clusterOf core) with
    | some t => (parkedOn s (clusterOf core) t.launch).contains p
    | none => true
  if (ctxOf s k).st == .free && !leaving && !coreFenced s core && !ctxClaimed s k then (s.saved.find? own).map Prod.snd else none

/-- TASK_RESUME (R34, R275): a task saved on its place, or one that gave that place up and whose wait is over, is resumed there, unless
its team is being swapped out, its core is fenced, or system software saves it. -/
def execTaskResume (s : State) : Host.Outcome State Fault Refusal :=
  let k := keyOf s.subj
  let c := ctxOf s k
  let leaving := match residentOf s (clusterOf (k / 4)) with | some t => t.leaving | none => false
  if c.st = .stopping ∧ c.why = .save ∧ c.saved ∧ !leaving ∧ !coreFenced s (k / 4) ∧ !ctxClaimed s k then .next (resumeHere s k)
  else match parkedHere s k with
    | some c => .next (unpark s k c)
    | none => .next s

end Sys2Proof.Machine
end

