-- ==== Sys2Proof/Machine/Scheduler.lean ====
section
/-!
DEFINITION. The queue scheduler: queues, slots and notify writes (R371 to R379, R384, R431), admission (R16 to R19, R365, R366, R374,
R375), the ends of launches (R376), and the sharing of clusters by teams (R23 to R25, R380, R381).
-/

namespace Sys2Proof.Machine

/-! ### Queue descriptors -/

/-- What a quarter keeps beside its registers. -/
def quarterSt (s : State) (q : Nat) : QuarterSt := sget {} s.quarters q

/-- The state with a quarter's record changed. -/
def updQuarter (s : State) (q : Nat) (f : QuarterSt → QuarterSt) : State :=
  { s with quarters := sins s.quarters q (f (quarterSt s q)) }

/-- R372: the 512 bits of a queue's descriptor. -/
def queueRead (s : State) (lead queue : Nat) : Nat := sysNum s lead (queueDesc s lead queue) 64

/-- R372: the state with n bytes of a queue's descriptor written. -/
def queuePut (s : State) (lead queue off n v : Nat) : State := (sysWrite s lead (queueDesc s lead queue + off) (toBytes n v)).1

/-- R372: the descriptor says enabled, and is well-formed. -/
def queueEnabled (x : Nat) : Bool :=
  bitAt x 69 && fld x 79 71 == 0 && fld x 127 96 == 0 && fld x 231 228 == 0 && fld x 511 240 == 0 && decide (fld x 67 64 ≤ 12)

/-- R372: RIDX and WIDX. -/
def queueIdx (x : Nat) : Nat × Nat := (fld x 159 128, fld x 191 160)

/-- R384: a record of the host event ring. -/
def hostEvent (s : State) (lead ev slot queue fcode cyc : Nat) : State :=
  let s := (sysFind s lead (queueDesc s lead queue)).1
  let ridx := (queueIdx (queueRead s lead queue)).1
  ringAppend s lead hostRing
    (toBytes 32 (ev + slot * 2 ^ 8 + queue * 2 ^ 16 + fcode * 2 ^ 32 + cyc % 2 ^ 64 * 2 ^ 64 + ridx * 2 ^ 128))

/-! ### Slots -/

/-- The slot with a package number: 16 × quarter + slot. -/
def slotAt (s : State) (p : Nat) : Option QSlot :=
  ((quarterSt s (p / 16)).slots.find? fun e => e.1 == p % 16).map Prod.snd

/-- R377: admitted launches of a slot that are not complete. -/
def slotRun (s : State) (p : Nat) : Nat := (s.launches.filter fun l => l.slot == p).length

/-- R377: the state with a slot's status register brought up to date. -/
def syncSlot (s : State) (p : Nat) : State :=
  setCreg s (p / 16) .sched (0x100 + 8 * (p % 16)) (match slotAt s p with
    | some x => x.queue + 2 ^ 16 + x.drn.toNat * 2 ^ 17 + x.ref.toNat * 2 ^ 18 + x.stalled.toNat * 2 ^ 19 + min (slotRun s p) 255 * 2 ^ 24
    | none => creg s (p / 16) .sched (0x100 + 8 * (p % 16)) % 2 ^ 16)

/-- The state with a slot replaced, or freed. -/
def putSlot (s : State) (p : Nat) (x : Option QSlot) : State :=
  syncSlot (updQuarter s (p / 16) fun u => { u with slots := match x with
    | some x => sins u.slots (p % 16) x
    | none => u.slots.filter fun e => e.1 != p % 16 }) p

/-- The slots of a partition, in ascending number. -/
def partSlots (s : State) (lead : Nat) : List Nat :=
  ((List.range 4).filter fun q => bitAt (qset s lead) q).flatMap fun q => (List.range 16).map fun i => 16 * q + i

/-- R418: the quarter has a quiesce request. -/
def quiescing (s : State) (q : Nat) : Bool := bitAt (creg s q .part 0x010) 0

/-- The slot a queue of a partition is mapped to. -/
def slotOf (s : State) (lead queue : Nat) : Option Nat :=
  (partSlots s lead).find? fun p => match slotAt s p with | some x => x.queue == queue | none => false

/-- R377: the slot is idle. -/
def slotIdle (s : State) (lead p : Nat) : Bool :=
  match slotAt s p with
  | some x =>
    let (r, w) := queueIdx (queueRead s lead x.queue)
    sysSeen s lead (queueDesc s lead x.queue) && r == w && slotRun s p == 0 && !x.drn
  | none => false

/-- R378: a QMAP on its way to this slot. -/
def qmapComing (s : State) (p : Nat) : Bool :=
  s.reqs.any fun r => match r.ins with | .qmap .. => r.args.getD 1 64 == p | _ => false

/-- R372, R379: the descriptor fields a slot holds. -/
def slotFields (x : Nat) (q : QSlot) : QSlot :=
  { q with rbase := fld x 63 0, log2n := fld x 67 64, priv := bitAt x 68, mach := bitAt x 70, en := queueEnabled x, asn := fld x 95 80 }

/-- R375, R378, R379: a queue is mapped onto a free slot; one that stalled before stays stalled until a QKICK. -/
def mapSlot (s : State) (lead p queue : Nat) : State :=
  let s := (sysFind s lead (queueDesc s lead queue)).1
  let x := queueRead s lead queue
  let s := putSlot s p (some (slotFields x { queue, stalled := fld x 227 224 != 0 }))
  addReady (updQuarter s lead fun u => { u with pend := u.pend.filter fun e => e.1 != queue }) ⟨.entryAdmission, { id := p }⟩

/-- R378, R419: a slot for a queue that is to be mapped on demand: the lowest free one, else the lowest idle one, of a quarter that is neither
quiescing nor quiesced. -/
def demandSlot (s : State) (lead : Nat) : Option Nat :=
  let ps := (partSlots s lead).filter fun p => creg s (p / 16) .part 0x010 % 4 == 0 && !qmapComing s p
  match ps.find? (fun p => (slotAt s p).isNone) with
  | some p => some p
  | none => ps.find? (slotIdle s lead)

/-- R378, R431: a queue joins the pending list. -/
def joinPend (s : State) (lead queue : Nat) : State :=
  if (quarterSt s lead).pend.any (fun e => e.1 == queue) then s
  else updQuarter s lead fun u => { u with pend := u.pend ++ [(queue, s.cyc)] }

/-- R378, R431: map a queue on demand, or let it join the pending list. -/
def mapOnDemand (s : State) (lead queue : Nat) : State :=
  match demandSlot s lead with
  | some p => mapSlot s lead p queue
  | none => joinPend s lead queue

/-- R378: the first pending queue takes a slot that has become free or idle; one that its slot has kept (R418) leaves the list. -/
def serveFirst (s : State) (lead : Nat) : State :=
  match (quarterSt s lead).pend with
  | (queue, _) :: rest =>
    if (slotOf s lead queue).isSome then updQuarter s lead fun u => { u with pend := rest }
    else match demandSlot s lead with
      | some p => mapSlot s lead p queue
      | none => s
  | [] => s

/-- R378: pending queues take the slots that have become free or idle. -/
def servePend (s : State) (lead : Nat) : State := (quarterSt s lead).pend.foldl (fun s _ => serveFirst s lead) s

/-! ### Notify writes -/

/-- NOTIFY_WRITE (R373, R378, R423, R431, R434): where the package runs, w = val offered to queue id of the partition of core's quarter; region n of the host's notify BAR
is that of the cores of quarter n. -/
def execNotifyWrite (s : State) : Host.Outcome State Fault Refusal :=
  let lead := leadCore s s.subj.core
  let queue := s.subj.id
  let w := s.subj.val % 2 ^ 32
  if s.boot.stat ≠ 0 ∨ creg s lead .sched 0x008 ≤ queue then .next s
  else
    let x := queueRead s lead queue
    let (r, wi) := queueIdx x
    if queueEnabled x && decide ((w + 2 ^ 32 - r) % 2 ^ 32 ≤ 2 ^ fld x 67 64) && decide ((w + 2 ^ 32 - wi) % 2 ^ 32 < 2 ^ 31) then
      let s := queuePut s lead queue 20 4 w
      match slotOf s lead queue with
      | some p =>
        let leaves := quiescing s (p / 16) && (match slotAt s p with | some y => y.drn | none => false) && !bitAt x 70 && !modeBit s lead 0
        .next (addReady (if leaves then joinPend s lead queue else s) ⟨.entryAdmission, { id := p }⟩)
      | none =>
        if bitAt x 70 || modeBit s lead 0 then .next (hostEvent s lead 1 0xFF queue 0 s.cyc)
        else .next (mapOnDemand s lead queue)
    else .next (queuePut s lead queue 29 1 (min 255 (fld x 239 232 + 1)))

/-! ### Loop tables and launch records -/

/-- R16: a level of a loop table. -/
structure Level where
  kind : Nat
  idx : Nat
  ext : Nat
deriving DecidableEq, Repr

/-- R16: a level dword. -/
def levelOf (x : Nat) : Level := ⟨fld x 1 0, fld x 7 2, fld x 39 8⟩

/-- The product of the extents of levels of a kind (R18). -/
def extents (ls : List Level) (kind : Nat) : Nat := ((ls.filter fun l => l.kind == kind).map Level.ext).foldl (· * ·) 1

/-- R17: a loop table with these level dwords is malformed. -/
def levelsMalformed (ds : List Nat) : Bool :=
  let ls := ds.map levelOf
  let ids := (ls.map Level.idx).filter fun i => i != 0
  ds.any (fun d => fld d 63 40 != 0) || ls.any (fun l => l.kind == 3 || l.ext == 0 || l.idx == 1 || l.idx == 2)
    || ids.eraseDups.length != ids.length || decide (0xFFFFFFFF < extents ls 0)
    || decide (0xFFFFFFFF < extents ls 1 * extents ls 2)

/-- R18: the digits of a mixed-radix number over levels, outermost most significant, with the registers they go to. -/
def levelDigits (ls : List Level) (n : Nat) : List (Nat × Nat) :=
  (ls.reverse.foldl (fun (ds, n) l => ((l.idx, n % l.ext) :: ds, n / l.ext)) (([] : List (Nat × Nat)), n)).1

/-- R366: the launch record is malformed, for what its own bits and its queue say. -/
def launchMalformed (s : State) (lead x : Nat) (q : QSlot) : Bool :=
  let clusters := (List.range 144).filter fun k => bitAt (fld x 271 128) k
  let pl := fld x 291 290
  fld x 287 272 != 0 || fld x 351 331 != 0 || fld x 1023 576 != 0 || fld x 2 0 != 0 || fld x 69 64 != 0
    || clusters.isEmpty || clusters.any (fun k => !sameQuarter s lead (k / 36))
    || pl == 3 || (pl == 1 && !q.priv) || (pl == 2 && !q.mach)
    || fld x 389 384 != 0 || fld x 453 448 != 0 || (asnRoot s lead (fld x 311 296)).isNone

/-! ### Reads of the scheduler -/

/-- R59, R375: the scheduler of a partition may read these bytes: a core's scratchpad, by its core-window address, or paged memory. -/
def queueReached (s : State) (lead ia n : Nat) : Bool :=
  match windowOf 1152 ia, windowOf 1152 (ia + n - 1) with
  | .scratch c o, .scratch c' o' => c == c' && windowOk s lead 0 (.scratch c o) && windowOk s lead 0 (.scratch c o')
  | .memory, .memory | .memory, .cxl | .cxl, .cxl => true
  | _, _ => false

/-- R375: bytes at a virtual address of an address space, translated by its own range registers. -/
def queueBytes (s : State) (lead asn va n : Nat) : State × (List Byte ⊕ ByteEnd) :=
  if (asnRoot s lead asn).isNone then (s, .inr (.fail 0x09))
  else
    let c : Ctx := { rregs := asnRanges s lead asn }
    match rangeCheck c va n .read with
    | .trap code _ _ => (s, .inr (.fail code))
    | .ok ia => if queueReached s lead ia n then readBlock (1152 * lead) asn n ia s else (s, .inr (.fail 0x0B))

/-- What looking at an entry's launch answers: wait, a failure code, or the launch and its tasks by team. -/
inductive LaunchEnd where
  | wait
  | fail (fcode : Nat)
  | ok (rec tmpl : Nat) (levels : List Level)
deriving DecidableEq, Repr

/-- R365, R366, R272, R17: read and check a launch's record, template and loop table. -/
def readLaunch (s : State) (lead : Nat) (q : QSlot) (rec : Nat) : State × LaunchEnd :=
  if rec % 64 ≠ 0 then (s, .fail 2)
  else match queueBytes s lead q.asn rec 128 with
    | (s, .inr .wait) => (s, .wait)
    | (s, .inr _) => (s, .fail 5)
    | (s, .inl bs) =>
      let x := ofBytes bs
      if launchMalformed s lead x q then (s, .fail 2)
      else match queueBytes s lead (fld x 311 296) (fld x 127 64) 64 with
        | (s, .inr .wait) => (s, .wait)
        | (s, .inr _) => (s, .fail 5)
        | (s, .inl ts) =>
          let t := ofBytes ts
          let ppw := fld t 319 256
          if recordMalformed t || fld t 223 192 != 0 then (s, .fail 3)
          else if spBanks (bitAt ppw 0) (fld ppw 2 1) * 2048 ≤ fld x 329 313 then (s, .fail 2)
          else match queueBytes s lead (fld x 311 296) (fld x 63 0) 8 with
            | (s, .inr .wait) => (s, .wait)
            | (s, .inr _) => (s, .fail 5)
            | (s, .inl hs) =>
              let h := ofBytes hs
              if h = 0 ∨ 8 < h then (s, .fail 4)
              else match queueBytes s lead (fld x 311 296) (fld x 63 0 + 8) (8 * h) with
                | (s, .inr .wait) => (s, .wait)
                | (s, .inr _) => (s, .fail 5)
                | (s, .inl ls) =>
                  let ds := (List.range h).map fun i => ofBytes ((ls.drop (8 * i)).take 8)
                  let levels := ds.map levelOf
                  if levelsMalformed ds then (s, .fail 4)
                  else if fld t 229 224 != 0 && levels.any (fun l => l.idx == fld t 229 224) then (s, .fail 3)
                  else (s, .ok x t levels)

/-! ### Launching -/

/-- R18: the record of task (g, c) of a launch. -/
def launchedTask (s : State) (lead : Nat) (l : Launch) (x t : Nat) (ls : List Level) (g c : Nat) (fut : Nat) : TaskRec :=
  { recordOf t with
    trip := extents ls 0, fut := BitVec.ofNat 64 fut, launch := l.id, parent := 0
    spatial := (levelDigits (ls.filter fun v => v.kind == 2) g ++ levelDigits (ls.filter fun v => v.kind == 1) c).filter fun p => p.1 != 0
    temporal := (ls.filter fun v => v.kind == 0).map fun v => (v.idx, v.ext)
    pl := fld x 291 290, asn := fld x 311 296, tvec := l.tvec, trec := l.trec, tword := l.tword
    cycLim := creg s lead .sched 0x030, yd := creg s lead .sched 0x034, pinLim := creg s lead .sched 0x038 }

/-- R19: dies of a core set, in ascending order. -/
def setDies (cset : Nat) : List Nat := (List.range 12).filter fun d => fld cset (12 * d + 11) (12 * d) != 0

/-- R18, R28: make the tasks of a team, with their futures: task numbers c from lo up to hi, positions from 0. -/
def makeTasks (lead : Nat) (l : Launch) (x t : Nat) (ls : List Level) (g : Nat) : Nat → Nat → Nat → State → State × List (Nat × TaskRec)
  | 0, _, _, s => (s, [])
  | n + 1, c, p, s =>
    match newFuture s lead 1 0 0 with
    | none => (s, [])
    | some (h, s) =>
      let r := launchedTask s lead l x t ls g c h
      let s := updLaunch s l.id fun l => { l with futs := l.futs ++ [h], live := l.live + 1 }
      let (s, rest) := makeTasks lead l x t ls g n (c + 1) (p + 1) s
      (s, (p, r) :: rest)

/-- R19: create team i of die group g. -/
def makeTeam (lead : Nat) (l : Launch) (x t : Nat) (ls : List Level) (nc g i : Nat) (s : State) : State :=
  let dies := setDies l.cset
  let w := 8 * l.kctx
  let (s, tasks) := makeTasks lead l x t ls g (min w (nc - i * w)) (i * w) 0 s
  let tm : Team :=
    { id := s.nextId, launch := l.id, die := dies.getD (g % dies.length) 0
      num := g / dies.length * ((nc + w - 1) / w) + i, todo := tasks, since := s.cyc }
  { s with nextId := s.nextId + 1, teams := s.teams ++ [tm] }

/-- R18, R19, R375: an admitted launch: its number, its tasks and its teams. -/
def startLaunch (s : State) (lead p : Nat) (q : QSlot) (csw x t : Nat) (ls : List Level) : State :=
  let n := (quarterSt s lead).nextLaunch
  let l : Launch :=
    { id := s.nextId, lead, lnum := n, slot := p, queue := q.queue, cset := fld x 271 128, kctx := fld x 289 288 + 1
      pri := fld x 295 292, ns := bitAt x 330, tsl := fld x 383 352, ppw := BitVec.ofNat 64 (fld t 319 256), tmpl := fld x 127 64
      csw, tvec := BitVec.ofNat 64 (fld x 447 384), trec := BitVec.ofNat 64 (fld x 511 448), tword := fld x 329 312 }
  let s := updQuarter { s with nextId := s.nextId + 1, launches := s.launches ++ [l] } lead fun u => { u with nextLaunch := n + 1 }
  let nc := extents ls 1
  let w := 8 * l.kctx
  let s := (List.range (extents ls 2)).foldl (fun s g =>
    (List.range ((nc + w - 1) / w)).foldl (fun s i => makeTeam lead l x t ls nc g i s) s) s
  let s := ((List.range 144).filter fun k => bitAt l.cset k).foldl (fun s k => addReady s ⟨.teamSwapIn, { id := k }⟩) s
  syncSlot s p

/-! ### Admission -/

/-- R374: the core-window address of a sync word of a core of the partition. -/
def isSwAddress (s : State) (lead a : Nat) : Bool :=
  a % 16 == 0 && match windowOf 0 a with
    | .scratch c off => decide (0x100000000 ≤ a) && coreReached s lead c && decide (off < spSize s c)
    | _ => false

/-- R374: a dependence is malformed. -/
def depMalformed (s : State) (lead kind a : Nat) : Bool :=
  kind == 3 || (kind == 1 && !isSwAddress s lead a) || (kind == 2 && fld a 63 36 != 0)

/-- R374: the entry is malformed. -/
def entryMalformed (s : State) (lead e : Nat) : Bool :=
  fld e 15 8 != 0 || fld e 63 48 != 0 || fld e 511 320 != 0 || decide (2 < fld e 3 0)
    || depMalformed s lead (fld e 5 4) (fld e 191 128) || depMalformed s lead (fld e 7 6) (fld e 255 192)
    || (fld e 127 64 != 0 && fld e 3 0 != 1) || (fld e 319 256 != 0 && !isSwAddress s lead (fld e 319 256))

/-- R374: a dependence is met. -/
def depMet (s : State) (lead kind dg a : Nat) : Bool :=
  if kind = 1 then
    (match windowOf 0 a with
    | .scratch c off => genPassed (swGen s c off) dg
    | _ => false)
  else if kind = 2 then futStale s lead a || futSt (futRead s lead (futIndex a)) == 3 || futSt (futRead s lead (futIndex a)) == 4
  else true

/-- R270, R374, R441: the records of an entry's future dependences can be found. -/
def depsFound (s : State) (lead : Nat) : List (Nat × Nat) → State × Bool
  | [] => (s, true)
  | (kind, a) :: ds =>
    if kind = 2 ∧ futIndex a < creg s lead .sched 0x018 then
      match sysFind s lead (creg s lead .sched 0x010 + 32 * futIndex a) with
      | (s, true) => depsFound s lead ds
      | (s, false) => (s, false)
    else depsFound s lead ds

/-- R375: the queue stalls at its entry. -/
def stallQueue (s : State) (lead p fcode : Nat) (q : QSlot) : State :=
  let s := queuePut s lead q.queue 28 1 fcode
  hostEvent (putSlot s p (some { q with stalled := true })) lead 2 p q.queue fcode s.cyc

/-- R375: the entry is admitted: RIDX advances, FCODE is 0 again, and the next entry is looked at. -/
def admitted (s : State) (lead p : Nat) (q : QSlot) : State :=
  let x := queueRead s lead q.queue
  let s := queuePut s lead q.queue 16 4 ((fld x 159 128 + 1) % 2 ^ 32)
  let s := if fld x 227 224 = 0 then s else queuePut s lead q.queue 28 1 0
  addReady s ⟨.entryAdmission, { id := p }⟩

/-- R375: the entry waits: it is looked at again within 1,024 cycles. -/
def entryWaits (s : State) (p : Nat) : State :=
  if s.timers.any (fun t => t.2.ev == .entryAdmission && t.2.subj.id == p) then s
  else addTimer s (s.cyc + if s.schedule.isEmpty then 1 else 1024) ⟨.entryAdmission, { id := p }⟩

/-- R375: write the launch number into a record of the queue's memory. -/
def writeLnum (s : State) (lead asn va lnum : Nat) : State :=
  let c : Ctx := { rregs := asnRanges s lead asn }
  match rangeFind c (va + 64) with
  | none => s
  | some r =>
    match spots s (1152 * lead) asn (rangeMap r (va + 64)) 8 true with
    | (s, .ok cs) => cs.foldl (fun s ps => writeSpots s ps (toBytes 8 lnum)) s
    | (s, _) => s

/-- R375: a launch entry: it waits, stalls its queue, or is admitted. -/
def admitLaunch (s : State) (lead p : Nat) (q : QSlot) (e : Nat) : State :=
  match readLaunch s lead q (fld e 127 64) with
  | (s, .wait) => entryWaits s p
  | (s, .fail f) => stallQueue s lead p f q
  | (s, .ok x t ls) =>
    let n := extents ls 1 * extents ls 2
    let s := findFutures s lead n
    if creg s lead .sched 0x018 - 1 < n then stallQueue s lead p 6 q
    else if (freeFutures s lead).length < n then entryWaits s p
    else
      let s := writeLnum s lead q.asn (fld e 127 64) (quarterSt s lead).nextLaunch
      admitted (startLaunch s lead p q (fld e 319 256) x t ls) lead p q

/-- ENTRY_ADMISSION (R375, R441): the next pending entry of slot id's queue; a table that cannot be found stalls it with FCODE 5. -/
def execEntryAdmission (s : State) : Host.Outcome State Fault Refusal :=
  let p := s.subj.id
  let lead := leadOf s (p / 16)
  match slotAt s p with
  | none => .next s
  | some q =>
    let (s, found) := sysFind s lead (queueDesc s lead q.queue)
    let (r, w) := queueIdx (queueRead s lead q.queue)
    if q.drn || q.stalled || !q.en then .next s
    else if !found then .next (stallQueue s lead p 5 q)
    else if r = w then .next (servePend s lead)
    else match queueBytes s lead q.asn (q.rbase + 64 * (r % 2 ^ q.log2n)) 64 with
      | (s, .inr .wait) => .next (entryWaits s p)
      | (s, .inr _) => .next (stallQueue s lead p 5 q)
      | (s, .inl bs) =>
        let e := ofBytes bs
        let (s, deps) := depsFound s lead [(fld e 5 4, fld e 191 128), (fld e 7 6, fld e 255 192)]
        if entryMalformed s lead e then .next (stallQueue s lead p 1 q)
        else if !deps then .next (stallQueue s lead p 5 q)
        else if !(depMet s lead (fld e 5 4) (fld e 31 16) (fld e 191 128) && depMet s lead (fld e 7 6) (fld e 47 32) (fld e 255 192)) then
          .next (entryWaits s p)
        else if fld e 3 0 = 0 then .next (admitted s lead p q)
        else if fld e 3 0 = 2 then
          (if s.launches.any (fun l => l.lead == lead && l.queue == q.queue) then .next s else .next (admitted s lead p q))
        else .next (admitLaunch s lead p q e)

/-! ### Completion and unmapping -/

/-- R379: a pending unmap takes place once RUN is 0. -/
def settleUnmap (s : State) (p : Nat) : State :=
  match slotAt s p with
  | some x => if x.drn && slotRun s p == 0 then servePend (putSlot s p none) (leadOf s (p / 16)) else s
  | none => s

/-- LAUNCH_COMPLETE (R376): references, then CSW, then CDONE. -/
def execLaunchComplete (s : State) : Host.Outcome State Fault Refusal :=
  match launchOf s s.subj.id with
  | none => .next s
  | some l =>
    if l.live ≠ 0 then .next s
    else
      let s := l.futs.foldl (fun s h => dropRef s l.lead h) s
      let s := match windowOf 0 l.csw with
        | .scratch c off => if l.csw = 0 then s else arrive s c off 1 false l.err
        | _ => s
      let x := queueRead s l.lead l.queue
      let s := queuePut s l.lead l.queue 24 4 ((fld x 223 192 + 1) % 2 ^ 32)
      let s := syncSlot { s with launches := s.launches.filter fun y => y.id != l.id } l.slot
      .next (addReady (servePend (settleUnmap s l.slot) l.lead) ⟨.entryAdmission, { id := l.slot }⟩)

/-- R379, R418: an unmap of a slot starts. -/
def startUnmap (s : State) (p : Nat) : State :=
  match slotAt s p with
  | none => s
  | some x =>
    if x.drn then s
    else
      let n := s.nextId
      let s := putSlot { s with nextId := n + 1 } p (some { x with drn := true, unmap := n })
      if slotRun s p = 0 then settleUnmap s p
      else addTimer s (s.cyc + creg s (leadOf s (p / 16)) .sched 0x058) ⟨.unmapTimeout, { id := p, val := n }⟩

/-- R379: a pending unmap is cancelled, and the queue goes on. -/
def cancelUnmap (s : State) (p : Nat) : State :=
  match slotAt s p with
  | none => s
  | some x => if x.drn then addReady (putSlot s p (some { x with drn := false })) ⟨.entryAdmission, { id := p }⟩ else s

/-- R418: the quiesce of a quarter is abandoned; refused says that a slot's unmap was refused. -/
def abandonQuiesce (s : State) (q : Nat) (refused : Bool) : State :=
  if !quiescing s q then s
  else
    let s := setCreg s q .part 0x010 (setBit (creg s q .part 0x010) 0 false ||| (if refused then 4 else 0))
    servePend (((List.range 16).map fun i => 16 * q + i).foldl cancelUnmap s) (leadOf s q)

/-- UNMAP_TIMEOUT (R379, R418): the unmap of slot id is refused; a launch that completes in the cycle of the expiry counts first, so the
refusal is made as that cycle ends. -/
def execUnmapTimeout (s : State) : Host.Outcome State Fault Refusal :=
  let p := s.subj.id
  match slotAt s p with
  | none => .next s
  | some x =>
    if !x.drn || x.unmap != s.subj.val then .next s
    else if !s.subj.flag then .next (addTimer s (s.cyc + 1) ⟨.unmapTimeout, { s.subj with flag := true }⟩)
    else
      let s := putSlot s p (some { x with drn := false, ref := true })
      let s := hostEvent s (leadOf s (p / 16)) 3 p x.queue 0 (s.cyc - 1)
      .next (addReady (abandonQuiesce s (p / 16) true) ⟨.entryAdmission, { id := p }⟩)

/-! ### QMAP, QUNMAP and QKICK -/

/-- R369: the slot sB names, if it belongs to the partition. -/
def slotOperand (s : State) (b : Nat) : Option Nat :=
  let p := (readS s b).toNat % 64
  if sameQuarter s (quarterOf (myCore s)) (p / 16) then some p else none

/-- QMAP (R369, R378, R379). -/
def execQmap (a b : Nat) (s : State) : Host.Outcome State Fault Refusal :=
  let va := (readS s a).toNat
  let lead := myLead s
  if va % 64 ≠ 0 then trap s 0x04
  else match rangeCheck (me s) va 64 .read with
    | .trap code va ia => trapAddr s code va ia
    | .ok ia =>
      let queue := (ia - creg s lead .sched 0x000) / 64
      let x := queueRead s lead queue
      match slotOperand s b with
      | none => trap s 0x04
      | some p =>
        if ia < creg s lead .sched 0x000 ∨ (ia - creg s lead .sched 0x000) % 64 ≠ 0 ∨ creg s lead .sched 0x008 ≤ queue
            ∨ (slotAt s p).isSome ∨ (slotOf s lead queue).isSome ∨ (quarterSt s lead).pend.any (fun e => e.1 == queue)
            ∨ !queueEnabled x ∨ (bitAt x 70 ∧ (me s).pl < 2) then trap s 0x04
        else .next (request s (.qmap a b) 2 none [queue, p] .none)

/-- R379: an accepted QMAP. -/
def acceptQmap (s : State) (r : Req) : State :=
  mapSlot (dropReq s r) (leadCore s (r.key / 4)) (r.args.getD 1 0) (r.args.getD 0 0)

/-- QUNMAP (R379). -/
def execQunmap (b : Nat) (s : State) : Host.Outcome State Fault Refusal :=
  match slotOperand s b with
  | none => trap s 0x04
  | some p => if (slotAt s p).isNone then trap s 0x04 else .next (request s (.qunmap b) 2 none [p] .none)

/-- R379: an accepted QUNMAP. -/
def acceptQunmap (s : State) (r : Req) : State := startUnmap (dropReq s r) (r.args.getD 0 0)

/-- QKICK (R379). -/
def execQkick (b : Nat) (s : State) : Host.Outcome State Fault Refusal :=
  match slotOperand s b with
  | none => trap s 0x04
  | some p => if (slotAt s p).isNone then trap s 0x04 else .next (request s (.qkick b) 2 none [p] .none)

/-- R379: an accepted QKICK. -/
def acceptQkick (s : State) (r : Req) : State :=
  let p := r.args.getD 0 0
  let s := dropReq s r
  match slotAt s p with
  | none => s
  | some x =>
    let d := queueRead s (leadOf s (p / 16)) x.queue
    addReady (putSlot s p (some { slotFields d x with stalled := false, drn := false })) ⟨.entryAdmission, { id := p }⟩

/-! ### Teams on clusters -/

/-- R380: team a stands before team b in a die's list. -/
def teamBefore (s : State) (a b : Team) : Bool :=
  let x := teamLaunch s a
  let y := teamLaunch s b
  decide (y.pri < x.pri) || (x.pri == y.pri && (decide (a.since < b.since) ||
    (a.since == b.since && (decide (x.lnum < y.lnum) || (x.lnum == y.lnum && decide (a.num ≤ b.num))))))

/-- R380: the waiting teams of a die whose core set holds a cluster, in order. -/
def waitingTeams (s : State) (cluster : Nat) : List Team :=
  (s.teams.filter fun t => t.cluster.isNone && t.die == cluster / 12 && bitAt (teamLaunch s t).cset cluster).mergeSort (teamBefore s)

/-- R411: a core of the cluster is fenced. -/
def clusterFenced (s : State) (cluster : Nat) : Bool := (clusterCores cluster).any (coreFenced s)

/-- R24: what travels with a core; its queue, board and window are then empty. -/
def liftCore (s : State) (launch core : Nat) : State × CoreImage :=
  let u := coreAt s core
  (updCore s core fun u => { u with
      rq := u.rq.filter fun r => r.launch != launch
      board := [], winBase := 0, winLen := 0, winAlloc := 0, winNext := none, credits := [] },
   { credits := u.credits, rq := u.rq.filter fun r => r.launch == launch, board := u.board, winBase := u.winBase, winLen := u.winLen, winAlloc := u.winAlloc
     winNext := u.winNext })

/-- R24: the cores of a cluster lifted in order. -/
def liftCores (launch : Nat) : List Nat → State → State × List CoreImage
  | [], s => (s, [])
  | c :: cs, s =>
    let (s, i) := liftCore s launch c
    let (s, is) := liftCores launch cs s
    (s, i :: is)

/-- R24, R58: the offset of a notice's block in its producer's scratchpad, where it lies there. -/
def blockOffset (n : Notice) : Option Nat :=
  match windowOf (n.key / 4) (fld n.img 119 64) with
  | .scratch c off => if c = n.key / 4 then some off else none
  | _ => none

/-- R24: a notice of a core's outbox goes with the image of a team: its block and its retention word. -/
def holdNotice (s : State) (team : Nat) (n : Notice) : Notice :=
  let core := n.key / 4
  { n with
    out := true, team, late := [], kept := spGets s core n.word 16
    block := match blockOffset n with | some off => spGets s core off (imgSize n.img) | none => [] }

/-- R24: a notice of a team that is back, on the same core position of a cluster: its block and its retention word are put down there. -/
def putDown (cluster : Nat) (s : State) (n : Notice) : State :=
  let key := 32 * cluster + n.key % 32
  let core := key / 4
  let off := blockOffset n
  let img := match off with | some o => setFld n.img 119 64 (spAddr core o) | none => n.img
  let s := spPut s core n.word n.kept
  let s := match off with | some o => spPut s core o n.block | none => s
  let s := putNotice s { n with key, img, out := false, block := [], kept := [], late := [] }
  let s := { s with reqs := s.reqs.map fun r => match r.job with
    | .pull p => if p.notice = n.id then { r with job := .pull { p with ia := fld img 119 64 } } else r
    | _ => r }
  sweepNotice (n.late.foldl (fun s e => arrive s core n.word e.1 e.2 false) s) n.id

/-- R24: every context of a team is saved: it leaves its cluster and begins to wait. -/
def teamOut (s : State) (t : Team) (cluster : Nat) : State :=
  let ks := (clusterKeys s cluster).filter fun k => ctxLaunch (ctxOf s k) == t.launch
  let outs := (ks.map fun k => (k, futOf (ctxOf s k))) ++ (parkedOn s cluster t.launch).map fun p => (p.1, futOf p.2)
  let s := ks.foldl liftCtx s
  let (s, image) := liftCores t.launch (clusterCores cluster) s
  let s := { s with notices := s.notices.map fun n =>
    if n.key / 32 = cluster ∧ n.chunk.isNone ∧ !n.posted ∧ !n.out then holdNotice s t.id n else n }
  updTeam s t.id fun t => { t with cluster := none, last := some cluster, leaving := false, slice := none, since := s.cyc, image, outs }

/-- R24: what travelled with one core is put down. -/
def dropCore (s : State) (core : Nat) (i : CoreImage) : State :=
  updCore s core fun u => { u with
    rq := i.rq ++ u.rq, credits := u.credits ++ i.credits.map fun c => { c with key := 4 * core + c.key % 4 }, board := i.board, winBase := i.winBase, winLen := i.winLen, winAlloc := i.winAlloc, winNext := i.winNext }

/-- R52: the launch formats of a core's banks. -/
def loadFormats (s : State) (tmpl core : Nat) : State :=
  let u := coreAt s core
  updCore s core fun v => { v with
    fmts := (List.range (spBanks u.vreg u.tile)).foldl (fun m b => sins m b (Config.bankTable tmpl b % 12)) v.fmts
    fmtPend := [] }

/-- R47: cores of a cluster on which tasks of a team are placed as it becomes resident. -/
def placedCores (t : Team) (cluster : Nat) : List Nat :=
  (clusterCores cluster).filter fun c => t.todo.any (fun p => p.1 % 8 == c % 8) || t.outs.any fun o => o.1 % 32 / 4 == c % 8

/-- R380: a team becomes resident on a free cluster: saved contexts go on, others wait for their start.  A core on which none is placed
keeps its configuration (R47). -/
def teamIn (s : State) (t : Team) (cluster : Nat) : State :=
  let l := teamLaunch s t
  let cores := clusterCores cluster
  let s := updTeam s t.id fun t => { t with cluster := some cluster, since := s.cyc, image := [], outs := [], ran := true }
  let (vreg, tile) := ppwConfig l.ppw
  let s := (placedCores t cluster).foldl (fun s c =>
    if (vreg, tile) = ((coreAt s c).vreg, (coreAt s c).tile) then s else setConfig s c vreg tile) s
  let s := if t.ran then s else cores.foldl (fun s c => loadFormats s l.tmpl c) s
  let s := (t.image.zip cores).foldl (fun s (i, c) => dropCore s c i) s
  let s := (s.notices.filter fun n => n.out && n.team == t.id).foldl (putDown cluster) s
  let s := t.outs.foldl (fun s (k, fut) => dropCtx s k (32 * cluster + k % 32) fut) s
  let s := cores.foldl fillCore s
  if t.todo.isEmpty then startSlice s t else s

/-- R24: a team is to be swapped out. -/
def swapOut (s : State) (t : Team) (cluster : Nat) : State :=
  let s := updTeam s t.id fun t => { t with leaving := true }
  let s := ((clusterKeys s cluster).filter fun k => ctxLaunch (ctxOf s k) == t.launch).foldl raiseYield s
  addReady s ⟨.teamSwapIn, { id := cluster }⟩

/-- R381: the resident teams of a core set on a die, the first to be swapped out first: lowest priority, most recent, higher cluster. -/
def victims (s : State) (t : Team) : List (Team × Nat) :=
  let cset := (teamLaunch s t).cset
  let rs := s.teams.filterMap fun r => match r.cluster with
    | some k => if k / 12 = t.die ∧ bitAt cset k ∧ !r.leaving then some (r, k) else none
    | none => none
  (rs.filter fun r => decide ((teamLaunch s r.1).pri < (teamLaunch s t).pri)).mergeSort fun a b =>
    let x := (teamLaunch s a.1).pri
    let y := (teamLaunch s b.1).pri
    decide (x < y) || (x == y && (decide (b.1.since < a.1.since) || (a.1.since == b.1.since && decide (b.2 ≤ a.2))))

/-- R380, R381, R411: the clusters of a die that are free, or are being swapped out. -/
def clustersComing (s : State) (die : Nat) : List Nat :=
  ((List.range 12).map (12 * die + ·)).filter fun k => !clusterFenced s k &&
    match residentOf s k with | some r => r.leaving | none => true

/-- R380, R381: the slice of a resident team ends in this cycle, and no team waited for its cluster. -/
def sliceOver (s : State) (t : Team) : Bool :=
  s.timers.any fun e => e.2.ev == .teamSliceEnd && e.2.subj.flag && e.2.subj.id == t.id && t.slice == some e.2.subj.val

/-- R381: the team that makes way for a waiting team of higher priority: one whose slice ends in this cycle, or the first victim. -/
def victimFor (s : State) (t : Team) : Option (Team × Nat) :=
  match (victims s t).find? fun v => sliceOver s v.1 with
  | some v => some v
  | none => (victims s t).head?

/-- R381: the waiting teams of a die in order, over the clusters that are coming: each has one of its core set, or makes the scheduler
swap out a victim. -/
def victimEach : List Team → List Nat → State → State
  | [], _, s => s
  | t :: ts, pool, s =>
    match pool.find? fun k => bitAt (teamLaunch s t).cset k with
    | some k => victimEach ts (pool.filter (· != k)) s
    | none => match victimFor s t with
      | some (v, k) => victimEach ts pool (swapOut s v k)
      | none => victimEach ts pool s

/-- R381: a victim for each waiting team of higher priority that no cluster is coming for. -/
def swapForPriority (s : State) (die : Nat) : State :=
  victimEach ((s.teams.filter fun t => t.cluster.isNone && t.die == die).mergeSort (teamBefore s)) (clustersComing s die) s

/-- TEAM_SWAP_IN (R24, R380, R381): cluster id: a team that is out leaves it, and the first waiting team takes it where it is free. -/
def execTeamSwapIn (s : State) : Host.Outcome State Fault Refusal :=
  let cluster := s.subj.id
  let s := match residentOf s cluster with
    | some t =>
      if t.leaving && ((clusterKeys s cluster).filter fun k => ctxLaunch (ctxOf s k) == t.launch).all
          (fun k => ((ctxOf s k).saved || (ctxOf s k).halted) && !ctxClaimed s k) then teamOut s t cluster else s
    | none => s
  match residentOf s cluster, waitingTeams s cluster with
  | none, t :: _ =>
    if !clusterFenced s cluster && (placedCores t cluster).all fun c => configFits s c (teamLaunch s t).ppw then
      .next (sweepTeam (swapForPriority (teamIn s t cluster) t.die) (8 * cluster))
    else .next s
  | some _, t :: _ => .next (swapForPriority s t.die)
  | _, [] => .next s

/-- TEAM_SLICE_END (R23, R380, R381): the slice of team id that began in cycle val ends: it is swapped out where another may take its
place; where none has come by the end of that cycle, it goes on. -/
def execTeamSliceEnd (s : State) : Host.Outcome State Fault Refusal :=
  match teamOf s s.subj.id with
  | none => .next s
  | some t =>
    match t.cluster with
    | none => .next s
    | some cluster =>
      if t.leaving || t.slice != some s.subj.val then .next s
      else if (waitingTeams s cluster).any fun w => decide ((teamLaunch s t).pri ≤ (teamLaunch s w).pri) then
        .next (swapOut s t cluster)
      else if !s.subj.flag then .next (addTimer s (s.cyc + 1) ⟨.teamSliceEnd, { s.subj with flag := true }⟩)
      else .next (sliceFrom s t (s.cyc - 1))

end Sys2Proof.Machine
end

