-- ==== Sys2Proof/Machine/Image.lean ====
section
/-!
DEFINITION. The context-save image (R120, R198, R362 to R364): its bytes, its checks, and the context it gives.
-/

namespace Sys2Proof.Machine

/-! ### The image of a context -/

/-- R362, R363: the size of an image with this partition word. -/
def imageSize (ppw : Word) : Nat := 0x0D00 + 256 * vregCount (ppwConfig ppw).1 + 4096 * tileCount (ppwConfig ppw).2

/-- R363: where the tail of the image begins. -/
def imageTail (ppw : Word) : Nat := imageSize ppw - 0x400

/-- R363: the header. -/
def imageHeader (c : Ctx) : Nat :=
  c.pc.toNat + c.ppw.toNat * 2 ^ 64 + c.pl * 2 ^ 128 + c.regs.loop.active.toNat * 2 ^ 130 + c.wt.toNat * 2 ^ 131
    + (c.regs.f ||| 1).toNat * 2 ^ 132 + c.regs.ep * 2 ^ 148 + c.regs.pin * 2 ^ 155 + c.xst.toNat * 2 ^ 160
    + min c.wdc (2 ^ 32 - 1) * 2 ^ 224 + (futOf c).toNat * 2 ^ 256 + c.xepc.toNat * 2 ^ 320 + c.xepl * 2 ^ 384
    + c.tword * 2 ^ 386 + c.asn * 2 ^ 404 + c.lnum * 2 ^ 448

/-- n zero bytes. -/
def zeros (n : Nat) : List Byte := List.replicate n 0

/-- Dwords as bytes. -/
def dwords (ws : List Word) : List Byte := ws.flatMap fun w => toBytes 8 w.toNat

/-- R363: the loop state. -/
def imageLoop (r : Regs) : List Byte :=
  ((List.range 6).flatMap fun i => toBytes 4 (sget 0 r.lc i).toNat) ++ zeros 8 ++ dwords [r.loop.endPc]
  ++ dwords ((List.range 4).map fun j => r.loop.base.getD j 0) ++ zeros 56
  ++ dwords ((List.range 16).map fun w => r.loop.desc.getD w 0)

/-- R363: the format code of a pass. -/
def fmtCode (f : Fmt) : Nat := ((List.range 16).find? fun i => Fmt.ofCode i == some f).getD 0

/-- R209, R363: a pass entry; i = 1 for the later one.  A pass that is to restart is saved as a suspended one. -/
def imagePass (p : Pass) (i : Nat) : List Byte :=
  dwords [p.aBase, p.aStride, p.bBase, p.bStride]
  ++ toBytes 8 (fmtCode p.fmt + (p.kb - 1) * 2 ^ 4 + 2 ^ 10 + p.wa.toNat * 2 ^ 11 + p.wb.toNat * 2 ^ 12 + p.z.toNat * 2 ^ 13
      + p.kbn * 2 ^ 14 + p.susp.op.toNat * 2 ^ 20 + p.susp.row * 2 ^ 21 + p.susp.fc * 2 ^ 26 + p.susp.rdy.toNat * 2 ^ 30 + i * 2 ^ 31
      + p.mpat.toNat * 2 ^ 32)
  ++ dwords [p.mcfg] ++ toBytes 8 (p.q + (p.st == .suspended || p.susp.rdy).toNat * 2 ^ 4) ++ zeros 8

/-- R363: the first dword of a slip buffer's state; a fifth entry (log 56) stays with the device. -/
def imageSlip (b : SlipBuf) : List Byte := toBytes 8 (b.lag + min 4 b.entries.length * 2 ^ 32) ++ zeros 56

/-- R363: a wake token. -/
def imageToken (t : Token) : Nat := t.word / 16 + t.gen * 2 ^ 17 + 2 ^ 33

/-- R363: a saved slip entry, at a distance from the one before it. -/
def imageEntry (e : SlipEntry) (dist : Nat) : List Byte :=
  let places := scalarPlaces e.work.op.ins
  let at_ (i : Nat) : Word := match (places.zip e.work.caps).find? (fun p => p.1 == i) with | some p => p.2.2 | none => 0
  dwords (e.work.raw :: (List.range 4).map at_) ++ toBytes 8 (dist + 2 ^ 32 + e.pred.toNat * 2 ^ 33)

/-- R363: the four saved entries of a buffer. -/
def imageEntries (b : SlipBuf) : List Byte :=
  (List.range 4).flatMap fun i =>
    match b.entries[i]? with
    | some e => imageEntry e (match (if i = 0 then none else b.entries[i - 1]?) with
      | some d => e.work.issued - d.work.issued
      | none => 0)
    | none => zeros 48

/-- R363: the image of a context with its passes, oldest first. -/
def imageOf (c : Ctx) (ps : List Pass) : List Byte :=
  let r := c.regs
  let v := vregCount (ppwConfig c.ppw).1
  let t := tileCount (ppwConfig c.ppw).2
  let gen (i : Nat) : Nat := ((c.savedGens.find? fun g => g.1 == i).map Prod.snd).getD 0
  toBytes 64 (imageHeader c)
  ++ dwords ((List.range 64).map fun n => if n = 0 then 0 else sget 0 r.s n)
  ++ dwords ((List.range 8).map fun n => if n = 0 then BitVec.allOnes 64 else sget 0 r.m n)
  ++ dwords ((List.range 64).map fun n => sget 0 r.n n)
  ++ imageLoop r
  ++ dwords ((List.range 16).map fun i => (sget {} c.range i).word)
  ++ ((List.range 16).flatMap fun i => toBytes 2 (gen i))
  ++ toBytes 8 (match c.savedWait with | some (w, g) => w / 16 + g * 2 ^ 17 + 2 ^ 33 | none => 0)
  ++ dwords [r.eppc] ++ zeros 16 ++ dwords [r.mcfg, r.mpat.setWidth 64, c.mrp] ++ zeros 8
  ++ ((List.range 2).flatMap fun i => match ps[i]? with | some p => imagePass p i | none => zeros 64)
  ++ zeros 32 ++ imageSlip c.slipV ++ imageSlip c.slipM ++ imageSlip c.slipL ++ imageSlip c.slipX
  ++ ((List.range 16).flatMap fun i => toBytes 8 ((c.wake[i]?.map imageToken).getD 0))
  ++ dwords [c.tvec, c.trec] ++ toBytes 4 c.cycLim ++ toBytes 4 c.yd ++ toBytes 4 c.pinLim ++ zeros 100
  ++ ((List.range v).flatMap fun n => toBytes 256 (sget 0 r.v n).toNat)
  ++ ((List.range t).flatMap fun n => toBytes 4096 (sget 0 c.q n).toNat)
  ++ ((List.range 16).flatMap fun i => dwords [(sget {} c.rregs i).w0, (sget {} c.rregs i).w1])
  ++ imageEntries c.slipV ++ imageEntries c.slipM ++ imageEntries c.slipL ++ imageEntries c.slipX

/-! ### Reading an image -/

/-- A number of n bytes at an offset of an image. -/
def imgNum (b : List Byte) (o n : Nat) : Nat := ofBytes ((b.drop o).take n)

/-- A dword of an image. -/
def imgWord (b : List Byte) (o : Nat) : Word := BitVec.ofNat 64 (imgNum b o 8)

/-- The partition word of an image. -/
def imgPpw (b : List Byte) : Word := imgWord b 8

/-- R363: the offset of entry i of slip buffer j. -/
def imgEntryAt (b : List Byte) (j i : Nat) : Nat := imageTail (imgPpw b) + 0x100 + 48 * (4 * j + i)

/-- R362: a reserved bit of the image is set. -/
def imgReserved (b : List Byte) : Bool :=
  let z (o n : Nat) : Bool := imgNum b o n != 0
  let h := imgNum b 0 64
  bitAt h 159 || fld h 447 420 != 0 || fld h 167 164 != 0 || fld h 183 182 != 0 || fld h 223 213 != 0
    || z 0x498 8 || z 0x4C8 56 || (List.range 16).any (fun i => fld (imgNum b (0x580 + 8 * i) 8) 63 50 != 0)
    || fld (imgNum b 0x620 8) 63 34 != 0 || z 0x630 16 || mcfgReserved (imgNum b 0x640 8) || z 0x64C 4
    || fld (imgNum b 0x650 8) 63 22 != 0 || z 0x658 8
    || (List.range 2).any (fun i => mcfgReserved (imgNum b (0x688 + 64 * i) 8) || fld (imgNum b (0x690 + 64 * i) 8) 63 5 != 0
      || z (0x698 + 64 * i) 8)
    || z 0x6E0 32
    || (List.range 4).any (fun j => fld (imgNum b (0x700 + 64 * j) 8) 63 35 != 0 || z (0x708 + 64 * j) 56)
    || (List.range 16).any (fun i => fld (imgNum b (0x800 + 8 * i) 8) 63 34 != 0)
    || z 0x89C 100
    || (List.range 4).any fun j => (List.range 4).any fun i => fld (imgNum b (imgEntryAt b j i + 40) 8) 63 34 != 0

/-- R363: range register i of an image. -/
def imgRange (b : List Byte) (i : Nat) : RangeReg :=
  let o := imageTail (imgPpw b) + 16 * i
  ⟨imgWord b o, imgWord b (o + 8)⟩

/-- R362: the image is malformed for a core. -/
def imageMalformed (s : State) (core : Nat) (b : List Byte) : Bool :=
  imgReserved b
    || (List.range 16).any (fun i => rangeRefused (imgRange b i).w0.toNat (imgRange b i).w1.toNat)
    || decide (creg s (leadCore s core) .xlate 0x008 ≤ fld (imgNum b 0 64) 419 404)
    || !configFits s core (imgPpw b)

/-- R363: a saved slip entry of an image; the device's own copy of it says what the image does not hold. -/
def entryFrom (fresh : Nat) (kept : Option SlipEntry) (b : List Byte) (j i due : Nat) : Option SlipEntry :=
  let o := imgEntryAt b j i
  let raw := imgWord b o
  let x := imgNum b (o + 40) 8
  match decodeSlot (slotKind (j + 3)) raw with
  | some op =>
    if bitAt x 32 then
      let places := scalarPlaces op.ins
      let caps := (opScalars op).zip (places.map fun p => imgWord b (o + 8 + 8 * p))
      let w : Work :=
        match kept with
        | some e => { e.work with op, raw, caps, issued := due }
        | none => { op, slot := j + 3, raw, pc := BitVec.ofNat 64 (Config.lost fresh (16 + 4 * j + i)), bseq := i + 1, issued := due
                    buf := true, caps }
      some { work := w, due, pred := bitAt x 33 }
    else none
  | none => none

/-- R363: the entries of a slip buffer, spaced as they were. -/
def entriesFrom (fresh : Nat) (kept : List SlipEntry) (b : List Byte) (j : Nat) : List Nat → Nat → List SlipEntry
  | [], _ => []
  | i :: is, due =>
    let due := due + imgNum b (imgEntryAt b j i + 40) 4
    match entryFrom fresh kept[i]? b j i due with
    | some e => e :: entriesFrom fresh kept b j is due
    | none => entriesFrom fresh kept b j is due

/-- R363: a buffer's entries that an image has no room for, as the device kept them, spaced from the last one of the image. -/
def entriesBeyond (kept es : List SlipEntry) : List SlipEntry :=
  match kept[3]?, es.getLast? with
  | some p, some l => (kept.drop 4).map fun e =>
      let due := l.due + (e.work.issued - p.work.issued)
      { e with due, work := { e.work with issued := due } }
  | _, _ => []

/-- R363: a slip buffer of an image. -/
def slipFrom (fresh : Nat) (kept : SlipBuf) (b : List Byte) (j : Nat) : SlipBuf :=
  let x := imgNum b (0x700 + 64 * j) 8
  let es := entriesFrom fresh kept.entries b j (List.range (min 4 (fld x 34 32))) 0
  { lag := fld x 31 0, entries := es ++ if es.length = 4 then entriesBeyond kept.entries es else [] }

/-- R209, R363: the passes of an image, in their order; they restart from row 0 as though suspended with RDY = 1. -/
def passesFrom (id : Nat) (maps : Sparse RangeReg) (b : List Byte) : List Pass :=
  let one (i : Nat) : Option (Bool × Pass) :=
    let o := 0x660 + 64 * i
    let x := imgNum b (o + 32) 8
    let y := imgNum b (o + 48) 8
    let f := bankFmt (fld x 3 0)
    if bitAt x 10 then
      some (bitAt x 31,
        { id, q := fld y 3 0, pair := f == .b64, fmt := f, kb := fld x 9 4 + 1, kbn := fld x 19 14
          aBase := imgWord b o, aStride := imgWord b (o + 8), bBase := imgWord b (o + 16), bStride := imgWord b (o + 24)
          wa := bitAt x 11, wb := bitAt x 12, z := bitAt x 13, mcfg := imgWord b (o + 40), mpat := BitVec.ofNat 32 (fld x 63 32)
          susp := { fc := fld x 29 26, op := bitAt x 20, row := fld x 25 21, rdy := true }, paced := false, maps, stop := true })
    else none
  let ps := (List.range 2).filterMap one
  let qs := (ps.filter fun p => !p.1).map Prod.snd ++ (ps.filter fun p => p.1).map Prod.snd
  ((List.range 2).zip qs).map fun (i, p) => { p with id := id + i }

/-- R363: the registers of an image. -/
def regsFrom (old : Regs) (b : List Byte) : Regs :=
  let h := imgNum b 0 64
  let list (n o : Nat) : Sparse Word := (List.range n).map fun i => (i, imgWord b (o + 8 * i))
  { s := (list 64 0x40).drop 1, f := BitVec.ofNat 16 (fld h 147 132) &&& ~~~ 1, m := (list 8 0x240).drop 1, n := list 64 0x280
    v := (List.range (vregCount (ppwConfig (imgPpw b)).1)).map fun i => (i, BitVec.ofNat 2048 (imgNum b (0x900 + 256 * i) 256))
    lc := (List.range 6).map fun i => (i, BitVec.ofNat 32 (imgNum b (0x480 + 4 * i) 4))
    loop := { active := bitAt h 130, nest := old.loop.nest, body := old.loop.body, endPc := imgWord b 0x4A0
              desc := (List.range 16).map fun w => imgWord b (0x500 + 8 * w)
              base := (List.range 4).map fun j => imgWord b (0x4A8 + 8 * j) }
    mcfg := imgWord b 0x640, mpat := BitVec.ofNat 32 (imgNum b 0x648 4), ep := fld h 154 148, eppc := imgWord b 0x628
    eppl := old.eppl, pin := fld h 158 155 }

/-- R363: a token of an image. -/
def tokenFrom (x : Nat) : Option Token := if bitAt x 33 then some ⟨fld x 16 0 * 16, fld x 32 17⟩ else none

/-- The task with a future. -/
def withFut (h : Word) (t : TaskRun) : TaskRun := { t with record := { t.record with fut := h } }

/-- R362, R363: the context an image gives, over what the device has kept of it.  The PC is loaded as the image has it, also where it is no
multiple of 64: the spec does not call such an image malformed (DESIGN CHOICE, log 61). -/
def ctxFrom (s : State) (kept : Ctx) (b : List Byte) : Ctx :=
  let h := imgNum b 0 64
  let v := vregCount (ppwConfig (imgPpw b)).1
  let regs := regsFrom kept.regs b
  let rregs := (List.range 16).map fun i => (i, rangeReg (imgRange b i).w0 (imgRange b i).w1)
  let w := imgNum b 0x620 8
  let c : Ctx :=
    { kept with
      pc := imgWord b 0, ppw := ppwOf (ppwConfig (imgPpw b)).1 (ppwConfig (imgPpw b)).2, pl := fld h 129 128, regs
      q := (List.range (tileCount (ppwConfig (imgPpw b)).2)).map fun i => (i, BitVec.ofNat 32768 (imgNum b (0x900 + 256 * v + 4096 * i) 4096))
      mrp := imgWord b 0x650, asn := fld h 419 404, lnum := fld h 511 448, xst := BitVec.ofNat 64 (fld h 223 160), wdc := fld h 255 224
      xepc := imgWord b 40, xepl := fld h 385 384, tword := fld h 403 386, tvec := imgWord b 0x880, trec := imgWord b 0x888
      cycLim := imgNum b 0x890 4, yd := imgNum b 0x894 4, pinLim := imgNum b 0x898 4, rregs, flights := []
      range := (List.range 16).map fun i => (i, { word := imgWord b (0x580 + 8 * i), armed := s.cyc })
      savedGens := (List.range 16).map fun i => (i, imgNum b (0x600 + 2 * i) 2)
      savedWait := if bitAt w 33 then some (fld w 16 0 * 16, fld w 32 17) else none
      wake := (List.range 16).filterMap fun i => tokenFrom (imgNum b (0x800 + 8 * i) 8)
      slipV := slipFrom s.fresh kept.slipV b 0, slipM := slipFrom s.fresh kept.slipM b 1, slipL := slipFrom s.fresh kept.slipL b 2
      slipX := slipFrom s.fresh kept.slipX b 3, passes := passesFrom s.nextId rregs b, fetched := [], wt := bitAt h 131 }
  let c : Ctx := { c with task := c.task.map (withFut (BitVec.ofNat 64 (fld h 319 256))) }
  { c with mark := { markOf c with bseq := c.bseq - 5 }, stalled := c.savedWait.map Prod.fst, awaiting := none, agwait := none, region := { seq := 1 }, nextRegion := {}, nextMark := none, markWait := false, checkDue := .none }

/-- R362: a context of which the device has kept nothing: what no image holds is free. -/
def unkeptCtx (fresh : Nat) : Ctx :=
  let w (i : Nat) : Word := BitVec.ofNat 64 (Config.lost fresh i)
  { bseq := 5, miss := w 0, inService := (w 1).toNat % 2 == 1
    regs := { loop := { nest := (w 2).toNat % 4, body := w 3 }, eppl := (w 11).toNat % 3 }
    task := some {
      record := { ker := w 4, epi := w 5, trip := (w 6).toNat % 2 ^ 32, itr := (w 7).toNat % 64, scope := (w 8).toNat % 6 }
      phase := match (w 9).toNat % 3 with | 0 => .prologue | 1 => .kernel | _ => .epilogue
      iter := (w 10).toNat % 2 ^ 32 } }

end Sys2Proof.Machine
end

