-- ==== Sys2Proof/Machine/Privileged.lean ====
section
/-!
DEFINITION. The privileged instructions (R352, R353): range registers and the partition word (R358, R359), limits (R357), the return from
a service (R356), shoot-down (R360), saving and loading contexts (R361, R362), and connection keys (R368).
-/

namespace Sys2Proof.Machine

/-! ### Range registers, the partition word and limits -/

/-- RNGR (R358). -/
def execRngr (d a : Nat) (w : Bool) (s : State) : Host.Outcome State Fault Refusal :=
  let r := sget {} (me s).rregs ((readS s a).toNat % 16)
  .next (writeS s 1 d (if w then r.w1 else r.w0))

/-- RNGW (R358, R387): the register changes after the bundle. -/
def execRngw (a b c : Nat) (s : State) : Host.Outcome State Fault Refusal :=
  let w0 := readS s b
  let w1 := readS s c
  if rangeRefused w0.toNat w1.toNat then trap s 0x04
  else .next { s with iss := { s.iss with rng := some ((readS s a).toNat % 16, rangeReg w0 w1) } }

/-- PPWSET (R44, R139, R359): the partition word changes once every slot of the bundle has read. -/
def execPpwset (a : Nat) (s : State) : Host.Outcome State Fault Refusal :=
  let x := readS s a
  let core := myCore s
  let u := coreAt s core
  if ppwMalformed x.toNat then trap s 0x04
  else if ppwConfig x ≠ (u.vreg, u.tile) ∧ (coreKeys core).any (fun k => k != s.at_ && (ctxOf s k).st != .free) then trap s 0x04
  else .next { s with iss := { s.iss with ppw := some x } }

/-- WDSET (R357): counts that run are compared with the new limit from the next cycle on. -/
def execWdset (a : Nat) (sel : WdSel) (imm : BitVec 32) (s : State) : Host.Outcome State Fault Refusal :=
  let v := (readS s a).toNat + imm.toNat
  if v < 1024 ∨ 2 ^ 32 ≤ v then trap s 0x04
  else
    let c := me s
    let k := s.at_
    match sel with
    | .cyc => .next (addTimer { s with iss := { s.iss with wdLim := some v } } (s.cyc + 1) ⟨.watchdogExpiry, subjOf k⟩)
    | .yd =>
      let s := setMe s { c with yd := v }
      .next (if c.yieldReq then
          addTimer s (max (s.cyc + 1) (c.yieldAt + v)) ⟨.yieldDeadlineExpiry, { subjOf k with val := c.yieldAt }⟩ else s)
    | .pin =>
      let s := setMe s { c with pinLim := v }
      .next (if c.reclaim then armPinLimit s k (me s) (futOf c).toNat c.reclaimAt else s)

/-- PRET (R356). -/
def execPret (s : State) : Host.Outcome State Fault Refusal :=
  let c := me s
  if c.pl < c.xepl then trap s 0x03
  else if c.xepc.toNat % 64 ≠ 0 then trap s 0x05
  else .next (trapReturn s)

/-- HALT (R361): the context stops at the boundary after the bundle. -/
def execHalt (s : State) : Host.Outcome State Fault Refusal := .next { s with iss := { s.iss with halt := true } }

/-! ### Shoot-down -/

/-- SHOOT (R360): the context waits from its next bundle on. -/
def execShoot (a b c : Nat) (all : Bool) (s : State) : Host.Outcome State Fault Refusal :=
  let x := (readS s a).toNat
  let n := (readS s b).toNat
  let z := (readS s c).toNat
  if x % 2 ^ 16 ≠ 0 ∨ n % 2 ^ 16 ≠ 0 ∨ (!all ∧ 2 ^ 16 ≤ z) then trap s 0x04
  else
    let t : Shoot :=
      { id := s.nextId, key := s.at_, q := myLead s, asn := if all then none else some z, lo := x / 2 ^ 16
        n := if n = 0 then none else some (n / 2 ^ 16) }
    let s := updMe { s with nextId := s.nextId + 1, shoots := s.shoots ++ [t] } fun c => { c with shooting := some t.id }
    .next (eager s ⟨.shootComplete, { subjOf s.at_ with id := t.id }⟩)

/-- R360: the shoot covers a run of n pages of an address space. -/
def shootCovers (t : Shoot) (q asn page n : Nat) : Bool :=
  t.q == q && (match t.asn with | some a => a == asn | none => true) &&
    match t.n with
    | some m => decide (page < t.lo + m) && decide (t.lo < page + n)
    | none => true

/-- R360, R391: the pages a cached leaf covers. -/
def tlbCovered (t : Shoot) (e : TlbEntry) : Bool :=
  if e.huge then shootCovers t e.q e.asn (e.page / 2 ^ 13 * 2 ^ 13) (2 ^ 13) else shootCovers t e.q e.asn e.page 1

/-- R393: a released store of the partition that has still to perform was translated through an entry the shoot covers. -/
def shootWaits (s : State) (t : Shoot) : Bool :=
  s.ctxs.any fun (k, c) => leadCore s (k / 4) == t.q && c.late.any fun g => g.pa.isSome && shootCovers t t.q c.asn (g.ia / 2 ^ 16) 1

/-- SHOOT_COMPLETE (R360, R393, R398): every cache has dropped the covered entries, and walks begun before are marked for discard, once what
was translated through them has performed. -/
def execShootComplete (s : State) : Host.Outcome State Fault Refusal :=
  match s.shoots.find? (fun t => t.id == s.subj.id) with
  | none => .next s
  | some t =>
    if shootWaits s t then .next (addTimer s (s.cyc + 1) ⟨.shootComplete, s.subj⟩) else
    let s := { s with
      shoots := s.shoots.filter fun x => x.id != t.id
      tlb := s.tlb.filter fun e => !tlbCovered t e
      xreqs := s.xreqs.map fun x => if (x.asn :: x.joined).any (fun a => shootCovers t x.quarter a x.page 1) then { x with shot := true } else x }
    .next (wake (updCtx s t.key fun c => if c.shooting = some t.id then { c with shooting := none } else c) t.key)

/-! ### Saving and loading contexts -/

/-- R362: CTXSAVE's target is halted, or stopped by the queue scheduler with its save not yet taken. -/
def saveTarget (c : Ctx) : Bool := c.halted || (c.st == .stopping && c.why == .save && !c.saved)

/-- R57, R59: the bytes of an image from one intermediate address to another are ones that the executing context may write, or read. -/
def imageReach (s : State) (p : Perm) (a b : Nat) : Bool :=
  match p with
  | .read => blockOk s (myCore s) (me s).pl a b
  | _ => windowOk s (quarterOf (myCore s)) (me s).pl (windowOf (myCore s) a) && windowOk s (quarterOf (myCore s)) (me s).pl (windowOf (myCore s) b)

/-- R362: the checks CTXSAVE and CTXLOAD share; the size is that of the part of the image that is known. -/
def imageCheck (s : State) (va b : Nat) (sw : BitVec 17) (target : Ctx → Bool) (size : Nat) (p : Perm) : ExecCheck :=
  if va % 64 ≠ 0 ∨ 4 ≤ b then .trap 0x04 0 0
  else
    let k := 4 * myCore s + b
    if k = s.at_ ∨ !target (ctxOf s k) then .trap 0x04 0 0
    else match rangeCheck (me s) va size p with
      | .trap code va ia => .trap code va ia
      | .ok ia =>
        if !imageReach s p ia (ia + size - 1) then .trap 0x0B va ia
        else if wordOutside s sw then .trap 0x0B 0 (16 * sw.toNat)
        else .ok [k, ia, va]

/-- CTXSAVE (R362). -/
def execCtxsave (a b : Nat) (sw : BitVec 17) (s : State) : Host.Outcome State Fault Refusal :=
  let t := ctxOf s (4 * myCore s + (readS s b).toNat % 4)
  match imageCheck s (readS s a).toNat (readS s b).toNat sw saveTarget (imageSize t.ppw) .write with
  | .trap code va ia => trapAddr s code va ia
  | .ok args => .next (request s (.ctxsave a b sw) 2 (some sw) args .none)

/-- CTXLOAD (R362). -/
def execCtxload (a b : Nat) (sw : BitVec 17) (h : Bool) (s : State) : Host.Outcome State Fault Refusal :=
  match imageCheck s (readS s a).toNat (readS s b).toNat sw (fun c => c.st == .free) 64 .read with
  | .trap code va ia => trapAddr s code va ia
  | .ok args => .next (request s (.ctxload a b sw h) 2 (some sw) args .none)

/-- R362: an accepted CTXSAVE writes its image later. -/
def acceptCtxsave (s : State) (r : Req) : State := eager s ⟨.contextImageComplete, { subjOf r.key with id := r.id }⟩

/-- R362: a CTXLOAD that loads nothing sets ERR on its sync word. -/
def loadFails (s : State) (r : Req) : State := fillCore (dropReq (flagWord s r 6) r) (r.key / 4)

/-- R362: CTXLOAD at its acceptance reads the image; a page that waits for its service is tried again. -/
def acceptCtxload (s : State) (r : Req) : State :=
  let core := r.key / 4
  let ia := r.args.getD 1 0
  let va := r.args.getD 2 0
  let again (s : State) : State :=
    addTimer (putReq s { r with accepted := false }) (s.cyc + 1) ⟨.engineAcceptance, { subjOf r.key with id := r.id }⟩
  match readFor r 64 ia s with
  | (s, .inr .wait) => again s
  | (s, .inr _) => loadFails s r
  | (s, .inl hs) =>
    let n := imageSize (imgPpw hs)
    if ppwMalformed (imgPpw hs).toNat then loadFails s r
    else match rangeCheck (ctxOf s r.key) va n .read with
      | .trap code va ia => reqTrapAt (dropReq s r) r code va ia
      | .ok _ =>
        match readFor r n ia s with
        | (s, .inr .wait) => again s
        | (s, .inr _) => loadFails s r
        | (s, .inl bs) =>
          if imageMalformed s core bs then loadFails s r
          else eager (putReq s { r with data := bs }) ⟨.contextImageComplete, { subjOf r.key with id := r.id }⟩

/-- R362: the image of the target is written, counted, and the target is free. -/
def saveImage (s : State) (r : Req) : State :=
  let k := r.args.getD 0 0
  let core := k / 4
  let again (s : State) : State := addTimer s (s.cyc + 1) ⟨.contextImageComplete, { subjOf r.key with id := r.id }⟩
  let c := ctxOf s k
  if c.st = .free then dropReq (flagWord s r 5) r
  else if !c.saved && !c.halted then again s
  else
    let bs := imageOf (saveWaits s k c) ((coreAt s core).passes.filter fun p => p.ctx == k % 4 && decide (p.kbn < p.kb))
    match spots s r.key r.asn (r.args.getD 1 0) bs.length true with
    | (s, .wait) => again s
    | (s, .fail _) => dropReq (flagWord s r 6) r
    | (s, .ok cs) =>
      let s := countReq (cs.foldl (fun s ps => writeSpots s ps bs) s) r bs.length
      let s := if futOf c = 0 then s else { s with parked := c :: s.parked.filter fun p => futOf p != futOf c }
      fillCore (sweepTeam (dropReq (freeCtx s k) r) core) core

/-- R30, R271, R362: the future of a loaded context names its core, and one that is being reclaimed sends it its reclaim request. -/
def loadedFuture (s : State) (k h : Nat) : State :=
  let q := leadCore s (k / 4)
  if futStale s q h then s
  else
    let s := setFutCore s q h (k / 4)
    if futSt (futRead s q (futIndex h)) = 5 then requestReclaim s k else s

/-- R362, R364: the image is loaded, counted, and the target is halted or ready. -/
def loadImage (s : State) (r : Req) (h : Bool) : State :=
  let k := r.args.getD 0 0
  let core := k / 4
  let b := r.data
  if (ctxOf s k).st ≠ .free || !configFits s core (imgPpw b) then loadFails s r
  else
    let fut := BitVec.ofNat 64 (fld (imgNum b 0 64) 319 256)
    let kept := match s.parked.find? (fun p => futOf p == fut && fut != 0) with
      | some p => p
      | none => unkeptCtx s.fresh
    let c := ctxFrom s kept b
    let (vreg, tile) := ppwConfig c.ppw
    let s := if (vreg, tile) = ((coreAt s core).vreg, (coreAt s core).tile) then s else setConfig s core vreg tile
    let s := updCore { s with nextId := s.nextId + 2 } core fun u =>
      { u with passes := u.passes ++ c.passes.map fun p => { p with ctx := k % 4 } }
    let c := { c with passes := [], st := .stopping, why := .halt, halted := true, saved := false }
    let s := putCtx { s with parked := s.parked.filter fun p => futOf p != fut } k (refreshWaits s core c)
    let s := dropReq (countReq s r b.length) r
    loadedFuture (if h then s else resumeHere s k) k fut.toNat

/-- CONTEXT_IMAGE_COMPLETE (R362): the image of CTXSAVE or CTXLOAD request id is complete. -/
def execContextImageComplete (s : State) : Host.Outcome State Fault Refusal :=
  match reqOf s s.subj.id with
  | none => .next s
  | some r =>
    match r.ins with
    | .ctxsave .. => .next (if r.accepted then saveImage s r else s)
    | .ctxload _ _ _ h => .next (if r.accepted && !r.data.isEmpty then loadImage s r h else s)
    | _ => .next s

/-! ### Connection keys -/

/-- R368: the fields of a key record are refused. -/
def keyRefused (x : Nat) : Bool := fld x 1023 658 != 0 || decide (fld x 655 600 < fld x 599 544)

/-- CKEY (R368). -/
def execCkey (a b : Nat) (sw : BitVec 17) (s : State) : Host.Outcome State Fault Refusal :=
  let off := (readS s a).toNat
  let c := (readS s b).toNat
  if off % 64 ≠ 0 ∨ 4096 ≤ c then trap s 0x04
  else if !sameQuarter s (quarterOf (myCore s)) (c / 1024) then trap s 0x1E
  else if mySp s < off + 128 then trapAddr s 0x0B 0 (spAddr (myCore s) off)
  else if keyRefused (spNum s (myCore s) off 128) then trap s 0x04
  else if wordOutside s sw then trapAddr s 0x0B 0 (16 * sw.toNat)
  else .next (request s (.ckey a b sw) 3 (some sw) [c, off] .none)

/-- R368, R421: an accepted CKEY: the record is read and zeroed, the keys are installed, or zero keys close the connection. -/
def acceptCkey (s : State) (r : Req) : State :=
  let core := r.key / 4
  let c := r.args.getD 0 0
  let off := r.args.getD 1 0
  let x := spNum s core off 128
  let s := spPut s core off (zeros 128)
  let old := connOf s c
  let s :=
    if fld x 511 0 = 0 then closeConn s c false
    else putConn s c
      { opened := true, txk := fld x 255 0, rxk := fld x 511 256, oldRxk := if old.opened then some old.rxk else none, oldRxc := old.rxc
        asn := fld x 527 512, peer := fld x 543 528, wbase := fld x 599 544, wlim := fld x 655 600, wrd := bitAt x 656, wwr := bitAt x 657 }
  dropReq (countReq s r 128) r

end Sys2Proof.Machine
end

