-- ==== Sys2Proof/Machine/BankFormat.lean ====
section
/-!
DEFINITION. When a bank-format write takes effect (R52): once no operation accepted before it still touches its bank.
-/

namespace Sys2Proof.Machine

/-- R50, R57, R58: addresses from one to another, issued by a core, meet a bank of a core's scratchpad, in any window that shows it. -/
def meetsBank (core bank actor a b : Nat) : Bool :=
  let meets (x : Nat) : Bool := decide (x + 32768 * bank ≤ b) && decide (a < x + 32768 * (bank + 1))
  meets (spAddr core 0) || meets (0x400000000 + core / 8 * 0x200000) || (actor == core && meets 0)

/-- R255, R296: bytes of an AGLOAD's image, at an intermediate address, where it lies in a scratchpad. -/
def loadBytes (r : Req) (s : State) (ia : Nat) : Nat :=
  let h := ofBytes (asIssued r ia (mgets s (coreForm (r.key / 4) ia) 64))
  64 + 32 * fld h 15 0 + 2 * fld h 31 16

/-- R52: an accepted request touches a bank of a core's scratchpad. -/
def reqTouches (s : State) (r : Req) (core bank : Nat) : Bool :=
  let actor := r.key / 4
  let meets (a n : Nat) : Bool := decide (0 < n) && meetsBank core bank actor a (a + n - 1)
  match r.job, r.ins with
  | .copy c, _ =>
    let clean (a b : Nat) : Bool := !meetsBank core bank actor a b
    (c.fill.isNone && (sourceReach clean c.desc (nestCount c.desc 0) c.src).bad.isSome)
      || (destReach s r.accAt actor clean c.desc (nestCount c.desc 0) (if c.fill.isSome then none else some (c.src : Int)) c.dst).bad.isSome
  | .pull p, _ => meets (spAddr actor p.dst) (if p.conv then convBytes p.srcF p.dstF p.n else p.n) || meets (p.ia + p.base) p.n
  | .tree t, _ => meets (spAddr t.root t.dst) t.len
  | .run j, _ =>
    match graphOf s j.graph with
    | some x => (List.range x.nodes.length).any fun i =>
      !j.counted.contains i &&
        let n := x.nodes.getD i 0
        let m := j.moved.getD i 0
        let k := fld n 55 32 - m
        ((nodeAddr j (fld n 11 8) (fld n 127 64 + m) k .read).any fun a => meets a k)
          || (nodeAddr j (fld n 15 12) (fld n 191 128 + m) k .write).any fun a => meets a k
    | none => false
  | .remote j, .rput _ _ _ _ v =>
    if v then (match reqRange s r (j.local_ + j.sent) (j.n - j.sent) .read with | .inl ia => meets ia (j.n - j.sent) | .inr _ => false)
    else meets (spAddr actor (j.local_ + j.sent)) (j.n - j.sent)
  | _, .agload .. => (match reqRange s r (r.args.getD 0 0) 64 .read with | .inl ia => meets ia (loadBytes r s ia) | .inr _ => false)
  | _, .ctxsave .. => meets (r.args.getD 1 0) (imageSize (ctxOf s (r.args.getD 0 0)).ppw)
  | _, .sld .. => meets (spAddr actor (r.args.getD 3 0)) (r.args.getD 4 0)
  | _, _ => false

/-- R52: a result of a context in flight still touches a bank of a core's scratchpad: bytes to load, a drain's stores, or elements of an
atomic. -/
def flightTouches (k : Nat) (f : Flight) (core bank : Nat) : Bool :=
  match f.src with
  | .load _ _ _ bs | .tolerant _ _ _ _ bs => bs.any fun b => b.fwd.isNone && meetsBank core bank (k / 4) b.ia b.ia
  | .stores _ bs => k / 4 == core && bs.any fun b => b.1 / 32768 == bank
  | .atomic i es _ _ _ => es.any fun e => meetsBank core bank (k / 4) e.2.1 (e.2.1 + accessSize i - 1)
  | _ => false

/-- R52: stores of context k to a bank that have executed and not performed.  DESIGN CHOICE (log 22): the write's own context waits only for
those that a mark has released, since nothing else of it could go on. -/
def storesTo (k : Nat) (c : Ctx) (core bank owner at_ : Nat) : Bool :=
  (if k = owner then c.late else gated c).any fun g => decide (g.exec ≤ at_) && meetsBank core bank (k / 4) g.ia g.ia

/-- R52: an operation accepted in the cycle of a format write or earlier still touches the bank. -/
def oldFormatUsed (s : State) (core : Nat) (w : FmtWrite) : Bool :=
  (s.cores.any fun (c, u) => u.passes.any fun p =>
    decide (p.exec ≤ w.exec) && (unreadSpans s (4 * c + p.ctx) p).any fun x => meetsBank core w.bank c x.1 (x.1 + x.2.1 - 1)) ||
  (s.ctxs.any fun (k, c) =>
    storesTo k c core w.bank (4 * core + w.ctx) w.exec || c.flights.any fun f => decide (f.exec ≤ w.exec) && flightTouches k f core w.bank) ||
  s.reqs.any fun r => r.accepted && decide (r.accAt ≤ w.exec) && reqTouches s r core w.bank

/-- BANK_FORMAT_TAKES_EFFECT (R52): the writes of a core that no operation under way predates take effect. -/
def execBankFormatTakesEffect (s : State) : Host.Outcome State Fault Refusal :=
  let core := s.subj.core
  let u := coreAt s core
  let (wait, now) := u.fmtPend.partition fun w => decide (s.cyc ≤ w.exec) || oldFormatUsed s core w
  let s := updCore s core fun u =>
    { u with fmts := now.foldl (fun m w => sins m w.bank w.code) u.fmts, fmtPend := wait }
  let s := now.foldl (fun s w => wake s (4 * core + w.ctx)) s
  .next (if wait.isEmpty then s else addTimer s (s.cyc + 1) ⟨.bankFormatTakesEffect, s.subj⟩)

end Sys2Proof.Machine
end

