-- ==== Sys2Proof/Machine/StateStore.lean ====
section
/-!
DEFINITION. The state store (R278, R279, R304 to R314, R350, R397): sequences, sillage rings, state pages and their share counts.
-/

namespace Sys2Proof.Machine

/-! ### The instructions -/

/-- R278: a state-store request with its operands. -/
def stateRequest (s : State) (i : Instr) (d : Nat) (sw : Option (BitVec 17)) (args : List Nat) (data : List Byte) :
    Host.Outcome State Fault Refusal :=
  let id := s.nextId
  let s := requestFor s i 2 sw args [.s d]
  .next { s with reqs := s.reqs.map fun r => if r.id == id then { r with data } else r }

/-- R278: SSNAP, SROLL and SDROP of a snapshot: sequence and position. -/
def snapRequest (s : State) (i : Instr) (d a b : Nat) : Host.Outcome State Fault Refusal :=
  let x := (readS s a).toNat
  let y := (readS s b).toNat
  if 2 ^ 32 ≤ x ∨ 2 ^ 48 ≤ y then trap s 0x04 else stateRequest s i d none [x, y] []

/-- SSNAP (R278, R309). -/
def execSsnap (d a b : Nat) (s : State) : Host.Outcome State Fault Refusal := snapRequest s (.ssnap d a b) d a b

/-- SROLL (R278, R310). -/
def execSroll (d a b : Nat) (s : State) : Host.Outcome State Fault Refusal := snapRequest s (.sroll d a b) d a b

/-- SFORK (R278, R311): source, position and new sequence. -/
def execSfork (d a b : Nat) (s : State) : Host.Outcome State Fault Refusal :=
  let x := (readS s a).toNat
  let y := (readS s b).toNat
  if 2 ^ 48 ≤ y then trap s 0x04 else stateRequest s (.sfork d a b) d none [x % 2 ^ 32, y, x / 2 ^ 32] []

/-- SDROP (R278, R312). -/
def execSdrop (d a b : Nat) (sq : Bool) (s : State) : Host.Outcome State Fault Refusal :=
  if sq then
    (if 2 ^ 32 ≤ (readS s a).toNat then trap s 0x04 else stateRequest s (.sdrop d a b sq) d none [(readS s a).toNat, 0] [])
  else snapRequest s (.sdrop d a b sq) d a b

/-- R278: the descriptors of SLD and SST are refused. -/
def pageDescBad (x y : Nat) : Bool :=
  let n := fld y 40 24
  fld x 63 60 != 0 || fld y 63 41 != 0 || fld x 59 44 % 16 != 0 || fld y 23 0 % 16 != 0 || n % 16 != 0 || decide (n < 16)
    || decide (65536 < n) || decide (65536 < fld x 59 44 + n)

/-- SLD and SST (R278): sequence, layer, offset, scratchpad offset and length; SST reads its bytes as it executes (R101). -/
def pageRequest (s : State) (i : Instr) (d a b : Nat) (sw : BitVec 17) (store : Bool) : Host.Outcome State Fault Refusal :=
  let x := (readS s a).toNat
  let y := (readS s b).toNat
  let sp := fld y 23 0
  let n := fld y 40 24
  if pageDescBad x y then trap s 0x04
  else if mySp s < sp + n then trapAddr s 0x0B 0 (spAddr (myCore s) sp)
  else if wordOutside s sw then trapAddr s 0x0B 0 (16 * sw.toNat)
  else stateRequest s i d (some sw) [fld x 31 0, fld x 43 32, fld x 59 44, sp, n] (if store then spGets s (myCore s) sp n else [])

/-- SLD (R278, R313). -/
def execSld (d a b : Nat) (sw : BitVec 17) (s : State) : Host.Outcome State Fault Refusal :=
  pageRequest s (.sld d a b sw) d a b sw false

/-- SST (R278, R305, R306). -/
def execSst (d a b : Nat) (sw : BitVec 17) (s : State) : Host.Outcome State Fault Refusal :=
  pageRequest s (.sst d a b sw) d a b sw true

/-! ### Share counts -/

/-- R306: references dropped, frame by frame; a page whose count falls to zero is freed. -/
def dropRefs (s : State) (q : Nat) (fs : List Nat) : State := fs.foldl (fun s f => if f = 0 then s else dropFrame s q f) s

/-- R307: the copies that one more reference to each of these frames needs: those that would take a count above 65,535. -/
def copiesFor (s : State) (q : Nat) (fs : List Nat) : Nat :=
  (((fs.filter (· != 0)).eraseDups).map fun f => frameCount s q f + fs.count f - 65535).sum

/-- R307: n pages reserved. -/
def reserve (q : Nat) : Nat → State → Option (List Nat × State)
  | 0, s => some ([], s)
  | n + 1, s => (popFrame s q true).bind fun (g, s) => (reserve q n s).map fun (gs, s) => (g :: gs, s)

/-- R306, R307: one more reference to each frame of a table; where a count is saturated, the reference goes to a copy in one of the pages
reserved. -/
def raiseRefs (q : Nat) : List Nat → List Nat → State → List Nat × State
  | [], _, s => ([], s)
  | f :: fs, gs, s =>
    if f = 0 then (raiseRefs q fs gs s).map (f :: ·) id
    else if frameCount s q f < 65535 then (raiseRefs q fs gs (setFrameCount s q f (frameCount s q f + 1))).map (f :: ·) id
    else match gs with
      | g :: gs => (raiseRefs q fs gs (setFrameCount (copyFrame s f g) q g 1)).map (g :: ·) id
      | [] => (raiseRefs q fs [] s).map (f :: ·) id

/-- R312: drop a ring entry: it is invalid, and its table's references drop. -/
def dropEntry (s : State) (q : Nat) (x : Seq) (i : Nat) : State :=
  let e := ringEntry s q x i
  let fs := tableOf s q (fld e 255 192) x.nl
  dropRefs (putEntry s q x i (setBit e 48 false)) q fs

/-- R308: a valid entry for a frozen table. -/
def entryWord (p ord tbl : Nat) (fs : List Nat) : Nat :=
  p + 2 ^ 48 + (fs.any frameAway).toNat * 2 ^ 49 + (fs.filter (· != 0)).length * 2 ^ 64 + ord * 2 ^ 128 + tbl * 2 ^ 192

/-- R308: the ring entry that a sequence no longer has, or does not have yet, keeps its table's place alone. -/
def emptyEntry (e : Nat) : Nat := fld e 255 192 * 2 ^ 192

/-- R308, R309: the order number of the last snapshot taken. -/
def lastOrd (s : State) (q : Nat) (x : Seq) : Nat := ((List.range 16).map fun i => fld (ringEntry s q x i) 191 128).foldl max 0

/-- R309: the entry that a new snapshot takes: an invalid one, or the one with the lowest ORD. -/
def snapPlace (s : State) (q : Nat) (x : Seq) : Nat :=
  let valid := ringValid s q x
  match (List.range 16).find? (fun i => !valid.contains i) with
  | some i => i
  | none => (valid.mergeSort fun i j => decide (fld (ringEntry s q x i) 191 128 ≤ fld (ringEntry s q x j) 191 128)).headD 0

/-- R397: the bytes of a layer table of a slot. -/
def tableRoom (s : State) (q : Nat) (x : Seq) : Nat := 8 * layerCount (fld (sysNum s q x.at_ 64) 75 64)

/-- R308, R397: where the tables of a quarter's state store stand: intermediate address and bytes. -/
def tableSpans (s : State) (q : Nat) : List (Nat × Nat) :=
  (creg s q .xlate 0x040, 64 * creg s q .xlate 0x048) :: (List.range (creg s q .xlate 0x048)).flatMap fun slot =>
    let a := creg s q .xlate 0x040 + 64 * slot
    let y := sysNum s q a 64
    let x : Seq := ⟨a, 0, fld y 191 128, fld y 255 192⟩
    (x.ltab, tableRoom s q x) :: (x.ring, 512) ::
      ((List.range 16).filter fun i => fld (ringEntry s q x i) 255 192 != 0).map fun i => (fld (ringEntry s q x i) 255 192, tableRoom s q x)

/-- The first 64-byte aligned address from one on at which n bytes meet none of these pieces. -/
def clearFrom (used : List (Nat × Nat)) (n : Nat) : Nat → Nat → Nat
  | 0, a => a
  | k + 1, a => match used.find? fun u => decide (a < u.1 + u.2) && decide (u.1 < a + n) with
    | some u => clearFrom used n k ((u.1 + u.2 + 63) / 64 * 64)
    | none => a

/-- R308: where an entry's frozen table stands: the place the entry has, or, for operation id, one that the spec leaves open, clear of every
other table. -/
def frozenPlace (s : State) (q id : Nat) (x : Seq) (e : Nat) : Nat :=
  if fld e 255 192 = 0 then
    clearFrom (tableSpans s q) (tableRoom s q x) (tableSpans s q).length (Config.lost id 64 % 2 ^ 40 * 64)
  else fld e 255 192

/-! ### Applying operations -/

/-- R6, R395: the frame table has a malformed entry for one of these frames. -/
def countsBad (s : State) (q : Nat) (fs : List Nat) : Bool := fs.any fun f => f != 0 && frameBad s q f

/-- What an operation comes to: a status with a finished state, pages still to come in, a wait, or system software's service. -/
inductive StateEnd where
  | done (st : Nat) (s : State)
  | pages (fs : List Nat) (s : State)
  | wait (s : State)
  | ask
deriving Repr

/-- R441: intermediate addresses that an operation needs are found in the system address space: none says that one waits, false that
one cannot be found. -/
def findSys (q : Nat) (write : Bool) : List Nat → State → State × Option Bool
  | [], s => (s, some true)
  | a :: as, s =>
    match resolvePage s q 0 a write with
    | (s, .ok ..) => findSys q write as s
    | (s, .wait) => (s, none)
    | (s, _) => (s, some false)

/-- R279, R441: an operation goes on where these addresses are found; it waits, or ends with status 0x6, where one is not. -/
def withSys (q : Nat) (write : Bool) (as : List Nat) (s : State) (go : State → StateEnd) : StateEnd :=
  match findSys q write as s with
  | (s, none) => .wait s
  | (s, some false) => .done 6 s
  | (s, some true) => go s

/-- R6, R395: an operation goes on where the frame table's entries that it reads are well formed, and ends with status 0x6 where one is not
(DESIGN CHOICE, log 42). -/
def withCounts (q : Nat) (fs : List Nat) (s : State) (go : State → StateEnd) : StateEnd :=
  if countsBad s q fs then .done 6 s else go s

/-- R307: an operation goes on with the pages it needs reserved: system software is asked first where it serves them, and without them the
operation ends with status 0x5. -/
def withPages (ask : Bool) (q n : Nat) (s : State) (go : List Nat → State → StateEnd) : StateEnd :=
  if n ≠ 0 ∧ ask = true then .ask
  else match reserve q n s with
    | none => .done 5 s
    | some (gs, s) => go gs s

/-- The two ends of a piece of memory. -/
def ends (a n : Nat) : List Nat := [a, a + n - 1]

/-- The ends of the frozen tables of ring entries. -/
def frozenEnds (s : State) (q : Nat) (x : Seq) (is : List Nat) : List Nat :=
  is.flatMap fun i => ends (fld (ringEntry s q x i) 255 192) (8 * x.nl)

/-- R309: SSNAP, for operation id; ask says that system software serves saturated counts. -/
def applySnap (s : State) (ask : Bool) (q p id : Nat) (x : Seq) : StateEnd :=
  if (ringAt s q x p).isSome then .done 3 s
  else
    let i := snapPlace s q x
    let tbl := frozenPlace s q id x (ringEntry s q x i)
    withSys q false (ends x.ltab (8 * x.nl)) s fun s =>
    withSys q true (ends x.ring 512 ++ ends tbl (8 * x.nl)) s fun s =>
      let live := tableOf s q x.ltab x.nl
      let ord := lastOrd s q x + 1
      let drop (s : State) : State := if bitAt (ringEntry s q x i) 48 then dropEntry s q x i else s
      let old := if bitAt (ringEntry s q x i) 48 then tableOf s q (fld (ringEntry s q x i) 255 192) x.nl else []
      withCounts q (live ++ old) s fun s =>
      withPages ask q (copiesFor (drop s) q live) s fun gs s =>
        let (fs, s) := raiseRefs q live gs (drop s)
        .done 0 (putEntry (putTable s q tbl fs) q x i (entryWord p ord tbl fs))

/-- R310, R314: SROLL; a demoted page that it makes live, or copies, comes in. -/
def applyRoll (s : State) (ask : Bool) (q p : Nat) (x : Seq) : StateEnd :=
  match ringAt s q x p with
  | none => .done 2 s
  | some i =>
    let later := (ringValid s q x).filter fun j => decide (p < fld (ringEntry s q x j) 47 0)
    withSys q false (frozenEnds s q x (i :: later)) s fun s =>
    withSys q true (ends x.ring 512 ++ ends x.ltab (8 * x.nl)) s fun s =>
      let frozen := tableOf s q (fld (ringEntry s q x i) 255 192) x.nl
      let live := tableOf s q x.ltab x.nl
      withCounts q (frozen ++ live ++ later.flatMap fun j => tableOf s q (fld (ringEntry s q x j) 255 192) x.nl) s fun s =>
      withPages ask q (copiesFor s q frozen) s fun gs s =>
        let (fs, s) := raiseRefs q frozen gs s
        let s := later.foldl (fun s j => dropEntry s q x j) (dropRefs (putTable s q x.ltab fs) q live)
        match ((frozen ++ fs).filter frameAway).eraseDups with
        | [] => .done 0 s
        | away => .pages away s

/-- R311, R397: SFORK, for operation id. -/
def applyFork (s : State) (ask : Bool) (q p n id : Nat) (x : Seq) : StateEnd :=
  if (seqOf s q n).isSome then .done 3 s
  else match ringAt s q x p with
    | none => .done 2 s
    | some i =>
      let a := seqSlot s q n
      let y := sysNum s q a 64
      let new : Seq := ⟨a, x.nl, fld y 191 128, fld y 255 192⟩
      if bitAt y 44 ∨ layerCount (fld y 75 64) < x.nl then .done 5 s
      else
        withSys q false (ends new.ring 512) s fun s =>
        if seqMalformed y || ringMalformed s q new then .done 6 s
        else
        withSys q false (frozenEnds s q x [i]) s fun s =>
        withSys q true (a :: ends new.ltab (8 * x.nl) ++ ends new.ring 512) s fun s =>
        let tbl := frozenPlace s q id new (ringEntry s q new 0)
        withSys q true (ends tbl (8 * x.nl)) s fun s =>
          let fs := tableOf s q (fld (ringEntry s q x i) 255 192) x.nl
          withCounts q fs s fun s =>
          withPages ask q (copiesFor s q (fs ++ fs)) s fun gs s =>
            let (both, s) := raiseRefs q (fs ++ fs) gs s
            let frozen := both.drop x.nl
            let s := (List.range 16).foldl (fun s i => putEntry s q new i (emptyEntry (ringEntry s q new i)))
              (putTable (putTable s q new.ltab (both.take x.nl)) q tbl frozen)
            .done 0 (sysPut (putEntry s q new 0 (entryWord p 1 tbl frozen)) q a 8 (n + x.nl % 4096 * 2 ^ 32 + 2 ^ 44))

/-- R312: SDROP; a sequence that ceases to exist leaves no count of snapshots behind (R308). -/
def applyDrop (s : State) (q p : Nat) (whole : Bool) (x : Seq) : StateEnd :=
  if whole then
    withSys q false (frozenEnds s q x (ringValid s q x)) s fun s =>
    withSys q true (x.at_ :: ends x.ring 512 ++ ends x.ltab (8 * x.nl)) s fun s =>
      withCounts q (tableOf s q x.ltab x.nl ++ (ringValid s q x).flatMap fun i => tableOf s q (fld (ringEntry s q x i) 255 192) x.nl) s fun s =>
      let s := (ringValid s q x).foldl (fun s i => dropEntry s q x i) s
      let s := (List.range 16).foldl (fun s i => putEntry s q x i (emptyEntry (ringEntry s q x i))) s
      let live := tableOf s q x.ltab x.nl
      let s := dropRefs (putTable s q x.ltab (live.map fun _ => 0)) q live
      .done 0 (sysPut s q x.at_ 8 (setBit (sysNum s q x.at_ 8) 44 false))
  else match ringAt s q x p with
    | none => .done 2 s
    | some i =>
      withSys q false (frozenEnds s q x [i]) s fun s =>
      withSys q true (ends x.ring 512) s fun s =>
      withCounts q (tableOf s q (fld (ringEntry s q x i) 255 192) x.nl) s fun s => .done 0 (dropEntry s q x i)

/-- R305, R306: the state with the layer's live page writable, and its frame: a null entry takes a zeroed page, a shared page is
copied first. -/
def ownPage (s : State) (q l : Nat) (x : Seq) : Option (State × Nat) :=
  let f := fld (sysNum s q (x.ltab + 8 * l) 8) 35 0
  let point (s : State) (g : Nat) : State := sysPut (setFrameCount s q g 1) q (x.ltab + 8 * l) 8 g
  if f = 0 then
    match popFrame s q true with
    | some (g, s) => some (point (zeroFrame s g) g, g)
    | none => none
  else if frameCount s q f ≤ 1 then some (s, f)
  else match popFrame s q true with
    | some (g, s) => some (setFrameCount (point (copyFrame s f g) g) q f (frameCount s q f - 1), g)
    | none => none

/-- R305, R306, R314: SST; the copy of a demoted page reads it. -/
def applySst (s : State) (q : Nat) (r : Req) (x : Seq) : StateEnd :=
  let l := r.args.getD 1 0
  if x.nl ≤ l then .done 4 s
  else
    withSys q true [x.ltab + 8 * l] s fun s =>
      let f := fld (sysNum s q (x.ltab + 8 * l) 8) 35 0
      withCounts q [f] s fun s =>
      match ownPage s q l x with
      | none => .done 5 s
      | some (s, g) =>
        let s := countReq (mputs s (paAddr (g * 2 ^ 16 + r.args.getD 2 0)) r.data) r r.data.length
        if g ≠ f ∧ frameAway f then .pages [f] s else .done 0 s

/-- R279: the bytes of an SLD land and are counted. -/
def landSld (s : State) (r : Req) (bs : List Byte) : State := countReq (spPut s (r.key / 4) (r.args.getD 3 0) bs) r bs.length

/-- R305, R313, R314: SLD. -/
def applySld (s : State) (q : Nat) (r : Req) (x : Seq) : StateEnd :=
  let l := r.args.getD 1 0
  let n := r.args.getD 4 0
  if x.nl ≤ l then .done 4 s
  else
    withSys q false [x.ltab + 8 * l] s fun s =>
      let f := fld (sysNum s q (x.ltab + 8 * l) 8) 35 0
      if f = 0 then .done 0 (landSld s r (zeros n))
      else
        let bs := mgets s (paAddr (f * 2 ^ 16 + r.args.getD 2 0)) n
        if frameAway f then .pages [f] (putReq s { r with data := bs }) else .done 0 (landSld s r bs)

/-- R6, R279, R304 to R314: a state-store operation takes effect, or ends with status 0x6 at a malformed table entry (DESIGN CHOICE, log 42);
served says that system software has answered it (R307). -/
def applyState (s : State) (r : Req) (served : Bool) : StateEnd :=
  let q := leadCore s (r.key / 4)
  let ask := !served && modeBit s q 6
  let a := r.args.getD 0 0
  let p := r.args.getD 1 0
  let n := r.args.getD 2 0
  if creg s q .xlate 0x048 = 0 then .done 1 s
  else
    withSys q false [seqSlot s q a] s fun s =>
      match seqOf s q a with
      | none => .done 1 s
      | some x =>
        let ringed (go : State → StateEnd) : StateEnd :=
          withSys q false (ends x.ring 512) s fun s => if ringMalformed s q x then .done 6 s else go s
        if seqMalformed (sysNum s q x.at_ 64) then .done 6 s
        else match r.ins with
        | .ssnap .. => ringed fun s => applySnap s ask q p r.id x
        | .sroll .. => ringed fun s => applyRoll s ask q p x
        | .sfork .. => withSys q false [seqSlot s q n] s fun s =>
            if (seqOf s q n).isSome then .done 3 s
            else ringed fun s => applyFork s ask q p n r.id x
        | .sdrop _ _ _ whole => ringed fun s => applyDrop s q p whole x
        | .sst .. => applySst s q r x
        | .sld .. => applySld s q r x
        | _ => .done 0 s

/-! ### Order and completion -/

/-- A state-store operation. -/
def isStateOp : Instr → Bool
  | .ssnap .. | .sroll .. | .sfork .. | .sld .. | .sst .. | .sdrop .. => true
  | _ => false

/-- R278: the sequences an operation names. -/
def opSeqs (r : Req) : List Nat := match r.ins with
  | .sfork .. => [r.args.getD 0 0, r.args.getD 2 0]
  | _ => [r.args.getD 0 0]

/-- R279: an accepted operation on a common sequence that was accepted earlier has not taken effect. -/
def stateBehind (s : State) (r : Req) : Bool :=
  s.reqs.any fun x => x.accepted && isStateOp x.ins && decide (x.acc < r.acc) && x.job == .none
    && leadCore s (x.key / 4) == leadCore s (r.key / 4) && (opSeqs x).any (opSeqs r).contains

/-- The destination of a state-store operation. -/
def stateDest : Instr → Nat
  | .ssnap d .. | .sroll d .. | .sfork d .. | .sld d .. | .sst d .. | .sdrop d .. => d
  | _ => 0

/-- The step of a state-store operation. -/
def stateStep (r : Req) : Event := ⟨.stateOpComplete, { subjOf r.key with id := r.id }⟩

/-- R279: an operation ends with a status: its sync word is told, its result lands, and operations behind it go on. -/
def endState (s : State) (r : Req) (st : Nat) : State :=
  let s := if st = 0 then s else if st = 7 then flagWord s r 5 else flagWord s r 6
  let s := dropReq (answerS s r (stateDest r.ins) st) r
  (s.reqs.filter fun x => x.accepted && isStateOp x.ins).foldl (fun s x => eager s (stateStep x)) s

/-- R314: the frame of a demoted page of every table, replaced in a table. -/
def replaceFrame (q f g tbl nl : Nat) (s : State) : State :=
  (List.range nl).foldl (fun s l =>
    if fld (sysNum s q (tbl + 8 * l) 8) 35 0 = f then
      let s := sysPut s q (tbl + 8 * l) 8 g
      setFrameCount (setFrameCount s q g (frameCount s q g + 1)) q f (frameCount s q f - 1)
    else s) s

/-- R308, R314: a sequence's tables with a page that has come in, and the DEM bits of its ring. -/
def replaceInSeq (q f g : Nat) (s : State) (slot : Nat) : State :=
  match slotSeq s q slot with
  | some x =>
    (ringValid s q x).foldl (fun s i => setDem q x (replaceFrame q f g (fld (ringEntry s q x i) 255 192) x.nl s) i)
      (replaceFrame q f g x.ltab x.nl s)
  | none => s

/-- R314: the frames whose page-ins an operation waits for. -/
def pendOf (r : Req) : List Nat := match r.job with
  | .state j => j.pend
  | _ => []

/-- R314: the cycle in which an operation took effect. -/
def effectCyc (r : Req) : Nat := match r.job with
  | .state j => j.cyc
  | _ => 0

/-- R324: the operation whose effect raised the first miss on a page, among those that wait for it. -/
def firstMiss (s : State) (r : Req) (f : Nat) : Req :=
  (s.reqs.filter fun x => (pendOf x).contains f).foldl
    (fun best x => if effectCyc x < effectCyc best || (effectCyc x == effectCyc best && decide (x.acc < best.acc)) then x else best) r

/-- R314, R324: a state page's intermediate address, which a layer table does not hold: it is free. -/
def statePage (s : State) : Nat := Config.lost s.fresh 65 % 2 ^ 40 * 2 ^ 16

/-- R314, R324: the record of a state page's page-in, for the operation that raised the first miss. -/
def stateTierRecord (ia : Nat) (r : Req) (fail : Bool) : List Byte :=
  tierRecord { id := 0, quarter := 0, asn := 0, ia, entry := 0, core := r.key / 4, ctx := r.key % 4, src := 3, cyc := effectCyc r } fail

/-- R314: the operation with a frame no longer to come in. -/
def arrived (f : Nat) (fail : Bool) (r : Req) : Req :=
  match r.job with
  | .state j => if j.pend.contains f then { r with job := .state { j with pend := j.pend.filter (· != f), failed := j.failed || fail } } else r
  | _ => r

/-- R306, R314, R322, R324: the first page an operation waits for comes in, or its page-in fails, recorded in the ring of the page's quarter; one
that has been freed since gives nothing back. -/
def statePageIn (s : State) (r : Req) (f : Nat) : State :=
  let q := leadCore s (r.key / 4)
  let ia := statePage s
  let recd (fail : Bool) (t : State) : State :=
    ringAppend { t with reqs := t.reqs.map (arrived f fail) } (homeSlice s q ia / 64) tierRing (stateTierRecord ia (firstMiss s r f) fail)
  match popFrame s q true with
  | none => recd true s
  | some (g, s) =>
    let held := frameCount s q f
    let s := setFrameCount (copyFrame s f g) q g 0
    let s := (List.range (creg s q .xlate 0x048)).foldl (replaceInSeq q f g) s
    let s := if held ≠ 0 ∧ frameCount s q f = 0 then pushFrame s q f else s
    recd false (if frameCount s q g = 0 then pushFrame s q g else s)

/-- R314: an operation whose pages have come in finishes. -/
def finishState (s : State) (r : Req) (j : StateJob) : State :=
  if j.failed then endState s r 6
  else match r.ins with
    | .sld .. => endState (landSld s r r.data) r 0
    | _ => endState s r 0

/-- R279: an accepted operation. -/
def acceptState (s : State) (r : Req) : State := eager s (stateStep r)

/-- STATE_OP_COMPLETE (R279, R306, R307, R314): operation id takes effect, a page it waits for comes in, or it finishes; flag says that
system software has answered it, with status code. -/
def execStateOpComplete (s : State) : Host.Outcome State Fault Refusal :=
  match reqOf s s.subj.id with
  | none => .next s
  | some r =>
    if !r.accepted || !isStateOp r.ins then .next s
    else match r.job with
      | .state j =>
        match j.pend with
        | f :: _ => .next (eager (statePageIn s r f) (stateStep r))
        | [] => .next (finishState s r j)
      | _ =>
        if stateBehind s r then .next s
        else if s.subj.flag && s.subj.code == 5 then .next (endState s r 5)
        else match applyState s r s.subj.flag with
          | .ask => .next s
          | .wait s => .next (addTimer s (s.cyc + 1) (stateStep r))
          | .done st s => .next (endState s r st)
          | .pages fs s =>
            let r := match reqOf s r.id with | some r => r | none => r
            .next (eager (putJob s r (.state { pend := fs, cyc := s.cyc })) (stateStep r))

end Sys2Proof.Machine
end

