-- ==== Sys2Proof/Machine/Slice.lean ====
section
/-!
DEFINITION. Memory-side slices: tenants (R328, R329), triggers and their queues (R330 to R332), and HMSG (R281).
-/

namespace Sys2Proof.Machine

/-- R330: the enabled slot of an address space. -/
def asnSlot (s : State) (n asn : Nat) : Option Nat :=
  (List.range 4).find? fun t => tenantOn s n t && fld (tenantWord s n t 1) 15 0 == asn

/-- R328: pieces of two regions meet. -/
def regionsMeet (a b : Nat × Nat) : Bool := decide (a.1 < b.1 + b.2) && decide (b.1 < a.1 + a.2)

/-- R328: a write of w0 that sets EN is refused. -/
def enableRefused (s : State) (n t w0 : Nat) : Bool :=
  let others := (List.range 4).filter fun u => u != t && tenantOn s n u
  decide (64 < fld w0 13 8 + fld w0 22 16) || decide (64 < fld w0 29 24 + fld w0 38 32)
    || others.any (fun u => regionsMeet (codeRegion w0) (codeRegion (tenantWord s n u 0))
      || regionsMeet (dataRegion w0) (dataRegion (tenantWord s n u 0)))
    || decide (fld w0 55 40 < 64)
    || (List.range 8).any fun k =>
      bitAt (tenantWord s n t (2 + 2 * k)) 0 && decide (fld (tenantWord s n t (3 + 2 * k)) 55 16 < fld (tenantWord s n t (2 + 2 * k)) 55 16)

/-- R328: the writable bits of a descriptor dword. -/
def descMask (w : Nat) : Nat :=
  if w = 0 then 0x00FFFF7F3F7F3F01
  else if w = 1 then 0xFFFF
  else if w < 18 then (if w % 2 = 0 then 0x00FFFFFFFFFF0007 else 0x00FFFFFFFFFF0000)
  else 0

/-- R338: the time limit of the invocation that runs at a slice, for a slot whose descriptor has changed: its last cycle is no earlier than
this one. -/
def limitAnew (s : State) (n t : Nat) : State :=
  match (sliceOf s n).run with
  | some r =>
    if r.inv.slot = t then
      addTimer s (max (s.cyc + 1) (r.first + fld (tenantWord s n t 0) 55 40)) ⟨.handlerTimeLimit, { id := n, val := r.inv.id }⟩
    else s
  | none => s

/-- The state with a descriptor dword written; reserved bits stay zero. -/
def putDesc (s : State) (n i v : Nat) : State :=
  let s := updSlice s n fun u => { u with desc := sins u.desc i (v &&& descMask (i % 32)) }
  if i % 32 = 0 then limitAnew s n (i / 32) else s

/-- TENANT_ENABLE (R328): a write of val to w0 of slot code of slice id sets EN, or is refused and leaves EN at 0. -/
def execTenantEnable (s : State) : Host.Outcome State Fault Refusal :=
  let n := s.subj.id
  let t := s.subj.code % 4
  let v := s.subj.val
  .next (putDesc s n (32 * t) (if enableRefused s n t v then setBit v 0 false else v))

/-! ### Faults -/

/-- R338: a handler fault record in the engine fault ring. -/
def handlerFault (s : State) (n cause : Nat) (i : Invoke) (pc : Nat) : State :=
  ringAppend s (n / 64) efRing
    (toBytes 32 (cause + i.key * 2 ^ 8 + i.slot * 2 ^ 16 + n * 2 ^ 32 + i.a1 % 2 ^ 56 * 2 ^ 64 + pc % 2 ^ 16 * 2 ^ 128 + i.cyc % 2 ^ 64 * 2 ^ 192))

/-! ### Triggers -/

/-- R332: a trigger's place in its queue: behind earlier cycles, and by key and requester core within its own. -/
def invokeIns (i : Invoke) : List Invoke → List Invoke
  | [] => [i]
  | j :: js =>
    if j.cyc < i.cyc ∨ (j.cyc = i.cyc ∧ (j.key < i.key ∨ (j.key = i.key ∧ j.core ≤ i.core))) then j :: invokeIns i js else i :: j :: js

/-- R338: in a cycle from now on, the trigger of an invocation takes its default action. -/
def putAbort (s : State) (n : Nat) (i : Invoke) : State × Event :=
  (updSlice s n fun u => { u with aborts := u.aborts ++ [i] }, ⟨.handlerAbort, { id := n, val := i.id, flag := true }⟩)

/-- R332: a trigger finds its queue full: the last one of the cycle takes its default action at once; false says that it is the trigger
itself. -/
def overflow (s : State) (n : Nat) (i : Invoke) : State × Bool :=
  let q := invokeIns i (sliceOf s n).queue
  let s := updSlice s n fun u => { u with ovf := (u.ovf + 1) % 2 ^ 32 }
  match q.getLast? with
  | some j =>
    if j.id = i.id then (s, false)
    else
      let (s, e) := putAbort (updSlice { s with nextId := s.nextId + 1 } n fun u => { u with queue := q.dropLast }) n j
      (addReady s e, true)
  | none => (s, false)

/-- R330, R332: a trigger for a slot is queued; false says that it takes its default action. -/
def raiseTrigger (s : State) (n : Nat) (i : Invoke) : State × Bool :=
  let i := { i with id := s.nextId, cyc := s.cyc }
  let e := tableEntry s n i.slot i.key
  if e = 0 then (s, false)
  else if e % 2 = 1 ∨ (codeRegion (tenantWord s n i.slot 0)).2 ≤ e then
    -- the record's PC is that of no invocation: a free value
    (handlerFault s n 7 i (Config.lost s.fresh 66), false)
  else if 32 ≤ (sliceOf s n).queue.length then overflow s n i
  else
    let idle := (sliceOf s n).run.isNone
    let s := updSlice { s with nextId := s.nextId + 1 } n fun u => { u with queue := invokeIns i u.queue }
    (if idle then addTimer s (s.cyc + 1) ⟨.handlerInvocationStart, { id := n }⟩ else s, true)

/-- R333: what a trigger of keys 0 to 2 on a line, for the context that asked first, gives its handler. -/
def lineInvoke (key slot line k : Nat) : Invoke :=
  { id := 0, key, slot, a1 := line, a2 := if key = 2 then 0 else k / 4 + k % 4 * 2 ^ 12, core := k / 4, ctx := k % 4 }

/-- R330, R331: a trigger on a line of a slice is queued; false says that it takes its default action. -/
def raiseLine (s : State) (n key line k : Nat) : State × Bool :=
  match lineOwner s n line with
  | none => (s, false)
  | some t => raiseTrigger s n (lineInvoke key t line k)

/-- R330: the slice and the line that the step of a trigger names. -/
def stepLine (s : State) : Nat × Nat := (homeSlice s (leadCore s s.subj.core) s.subj.id, s.subj.id / 64 * 64)

/-- R330: the trigger of a line's stage: it is queued, and the line waits for the handler's verdict, or the line goes on. -/
def stageTrigger (s : State) (n key line : Nat) (f : LineFetch) (next : State → State) : State :=
  match raiseLine s n key line f.key with
  | (s, true) => putFetch s n { f with asked := true }
  | (s, false) => next s

/-- MISS_TRIGGER (R330, R332): a request has found line id absent. -/
def execMissTrigger (s : State) : Host.Outcome State Fault Refusal :=
  let (n, l) := stepLine s
  match fetchOf s n l with
  | some f => .next (if f.stage = .miss ∧ f.asked = false then stageTrigger s n 0 l f fun s => (arriveLine s n f).1 else s)
  | none => .next s

/-- FILL_TRIGGER (R330): the fetched data of line id has arrived. -/
def execFillTrigger (s : State) : Host.Outcome State Fault Refusal :=
  let (n, l) := stepLine s
  match fetchOf s n l with
  | some f => .next (if f.stage = .fill ∧ f.asked = false then stageTrigger s n 1 l f fun s => (placeLine s n f).1 else s)
  | none => .next s

/-- EVICTION_TRIGGER (R330): the frame of line id has been chosen for eviction. -/
def execEvictionTrigger (s : State) : Host.Outcome State Fault Refusal :=
  let (n, l) := stepLine s
  match evictionOf s n l with
  | some (f, i) => .next (if f.asked = false then stageTrigger s n 2 l f fun s => installLine s n i f else s)
  | none => .next s

/-- R333, R338: what follows the end of an invocation on a line: verdict v, 0 for the default action. -/
def lineVerdict (s : State) (n : Nat) (i : Invoke) (v : Nat) : State :=
  match i.key with
  | 0 => match fetchOf s n i.a1 with
    | some f => if v = 1 then (placeLine s n { f with supplied := true }).1 else (arriveLine s n { f with asked := false }).1
    | none => s
  | 1 => match fetchOf s n i.a1 with
    | some f => if v = 1 then giveLine s n i.a1 else (placeLine s n f).1
    | none => s
  | 2 => match evictionOf s n i.a1 with
    | some (f, j) => installLine s n j f
    | none => s
  | _ => s

/-! ### HMSG -/

/-- HMSG (R281): the slice's address is checked; the request names it, the message and the code. -/
def execHmsg (d a b : Nat) (sw : BitVec 17) (code : BitVec 4) (s : State) : Host.Outcome State Fault Refusal :=
  let va := (readS s a).toNat
  match rangeCheck (me s) va 1 .read with
  | .trap c va ia => trapAddr s c va ia
  | .ok ia =>
    match windowOf (myCore s) ia with
    | .memory | .cxl =>
      if wordOutside s sw then trapAddr s 0x0B 0 (16 * sw.toNat)
      else .next (requestFor s (.hmsg d a b sw code) 2 (some sw) [ia, (readS s b).toNat] [.s d])
    | _ => trapAddr s 0x0B va ia

/-- R281: the reply of an HMSG. -/
def hmsgReply (s : State) (r : Req) (v : Nat) (err : Bool) : State :=
  let d := match r.ins with | .hmsg d .. => d | _ => 0
  let s := countReq s r 1
  dropReq (answerS (if err then flagWord s r 6 else s) r d v) r

/-- R281, R330: an accepted HMSG is queued at its slice, or finds no handler. -/
def acceptHmsg (s : State) (r : Req) (code : Nat) : State :=
  let ia := r.args.getD 0 0
  let n := homeSlice s (leadCore s (r.key / 4)) ia
  match asnSlot s n r.asn with
  | none => hmsgReply s r 0 true
  | some t =>
    match raiseTrigger s n { id := 0, key := 16 + code, slot := t, a1 := ia, a2 := r.args.getD 1 0, a3 := r.key / 4, core := r.key / 4
                             ctx := r.key % 4, req := r.id } with
    | (s, true) => s
    | (s, false) => hmsgReply s r 0 true

end Sys2Proof.Machine
end

