-- ==== Sys2Proof/Machine/KvChain.lean ====
section
/-!
DEFINITION. KV page chains (R280, R315 to R317, R319, R339): the chain slots of a core, their walkers and the chain-step triggers.
-/

namespace Sys2Proof.Machine

/-- R280: a chain slot of a core. -/
def chainAt (s : State) (core n : Nat) : Chain := sget {} (coreAt s core).chains n

/-- The state with a chain slot replaced. -/
def putChain (s : State) (core n : Nat) (c : Chain) : State := updCore s core fun u => { u with chains := sins u.chains n c }

/-- The step of a chain's walker. -/
def walkStep (core n gen : Nat) : Event := ⟨.chainWalkStep, { core, id := n, val := gen }⟩

/-! ### Instructions -/

/-- KVST (R280). -/
def execKvst (d a : Nat) (sw : BitVec 17) (s : State) : Host.Outcome State Fault Refusal :=
  let va := (readS s a).toNat
  if va % 2 ^ 16 ≠ 0 then trap s 0x04
  else if wordOutside s sw then trapAddr s 0x0B 0 (16 * sw.toNat)
  else .next (requestFor s (.kvst d a sw) 2 (some sw) [va] [.s d])

/-- R280: an accepted KVST takes a free chain slot. -/
def acceptKvst (s : State) (r : Req) (d : Nat) : State :=
  let core := r.key / 4
  match (List.range 8).find? (fun n => !(chainAt s core n).live) with
  | none => answerS (dropReq s r) r d (2 ^ 64 - 1)
  | some n =>
    let g := (chainAt s core n).gen
    let s := putChain s core n
      { gen := g, live := true, key := r.key, fut := r.fut, asn := r.asn, word := r.word.getD 0, maps := (ctxOf s r.key).rregs
        start := BitVec.ofNat 64 (r.args.getD 0 0) }
    eager (answerS (dropReq s r) r d (n + g * 2 ^ 8)) (walkStep core n g)

/-- KVNX (R280). -/
def execKvnx (d b : Nat) (s : State) : Host.Outcome State Fault Refusal :=
  .next (requestFor s (.kvnx d b) 2 none [(readS s b).toNat] [.s d])

/-- KVNX.end (R280). -/
def execKvnxEnd (d b : Nat) (s : State) : Host.Outcome State Fault Refusal :=
  .next (requestFor s (.kvnxEnd d b) 2 none [(readS s b).toNat] [.s d])

/-- R280: the KVNX requests a live slot has still to answer, in acceptance order. -/
def chainWants (s : State) (core n gen : Nat) : List Req :=
  (s.reqs.filter fun r => r.accepted && r.key / 4 == core &&
    match r.ins with
    | .kvnx .. => r.args.getD 0 0 % 8 == n && fld (r.args.getD 0 0) 15 8 == gen
    | _ => false).mergeSort fun a b => decide (a.acc ≤ b.acc)

/-- The destination of a KVNX. -/
def kvnxDest : Instr → Nat
  | .kvnx d _ | .kvnxEnd d _ => d
  | _ => 0

/-- R280: a KVNX answers a page word. -/
def answerKvnx (s : State) (r : Req) (w : Nat) : State := answerS (dropReq s r) r (kvnxDest r.ins) w

/-- R280: the slot is free; its generation advances, and requests on the old one are stale. -/
def freeChain (s : State) (core n : Nat) : State :=
  let c := chainAt s core n
  (chainWants s core n c.gen).foldl (fun s r => answerKvnx s r 4) (putChain s core n { gen := (c.gen + 1) % 256 })

/-- R280: an accepted KVNX or KVNX.end.  DESIGN CHOICE (log 39): a free slot answers bit [2] also where the handle's generation is the slot's. -/
def acceptKvnx (s : State) (r : Req) (ends : Bool) : State :=
  let core := r.key / 4
  let h := r.args.getD 0 0
  let n := h % 8
  let c := chainAt s core n
  if !c.live || c.gen != fld h 15 8 then answerKvnx s r 4
  else if ends then freeChain (answerKvnx s r 2) core n
  else eager s (walkStep core n c.gen)

/-! ### The walker -/

/-- R316: a header is malformed. -/
def headerMalformed (h : Nat) : Bool :=
  let str := fld h 207 192
  fld h 127 121 != 0 || fld h 511 212 != 0 || fld h 15 0 != 0 || str % 16 != 0 || decide (str < 16) || decide (65472 < str)
    || decide (65472 < fld h 191 176 * str) || decide (12 ≤ fld h 211 208)

/-- What reading a header answers. -/
inductive HeaderEnd where
  | ok (h ia : Nat)
  | wait
  | unreadable (ia : Nat)
deriving DecidableEq, Repr

/-- R316, R317, R319: the walker reads the header of a page, quarantined or not. -/
def readHeader (s : State) (core : Nat) (c : Chain) (va : Word) : State × HeaderEnd :=
  let q := leadCore s core
  match rangeCheck { rregs := c.maps } va.toNat 64 .read with
  | .trap _ _ ia => (s, .unreadable ia)
  | .ok ia =>
    match windowOf core ia with
    | .memory | .cxl =>
      match pageWalk s q c.asn ia with
      | .quarantined _ e huge =>
        match requestLine s c.key false ia with
        | (s, true) => (s, .wait)
        | (s, false) => (takeGiven s c.key, .ok (ofBytes (mgets s (paAddr (leafPa e huge ia)) 64)) ia)
      | _ =>
      match reachLines s c.key c.asn false false [ia] with
      | (s, true) => (s, .wait)
      | (s, false) =>
        match resolvePage s q c.asn ia false with
        | (s, .ok pa _) => (s, .ok (ofBytes (mgets s (paAddr pa) 64)) ia)
        | (s, .wait) => (s, .wait)
        | (s, _) => (s, .unreadable ia)
    | _ => (s, .unreadable ia)

/-- R316: the chain ends at an unreadable or malformed header. -/
def breakChain (s : State) (core n : Nat) (c : Chain) (cause ia : Nat) : State :=
  let s := arrive s (c.key / 4) c.word 0 false true
  let s := putChain s core n { c with plain := false, pages := c.pages ++ [{ st := 2 }] }
  logFault s (quarterOf core) cause 0 core (c.key % 4) ia 0

/-- R317: the page is resident and counts, or its page-in starts and counts when it has ended. -/
def makeResident (s : State) (core : Nat) (c : Chain) (ia : Nat) : State :=
  countPage s { quarter := leadCore s core, asn := c.asn, ia, core, ctx := c.key % 4, count := (c.key, c.fut, c.word) }

/-- R317: the walker's own step on a page whose header it has read: the page is found, or the chain breaks. -/
def hardwareStep (s : State) (core n : Nat) (c : Chain) (va : Word) (h ia : Nat) : State :=
  if headerMalformed h then breakChain s core n c 0x23 ia
  else makeResident (putChain s core n { c with plain := false, pages := c.pages ++ [{ va, ia, next := BitVec.ofNat 64 (fld h 63 0) }] }) core c ia

/-- R339: a chain-step trigger for the page at the end of the list; false says that the hardware takes the step, as it does one whose
trigger has taken its default action. -/
def askHandler (s : State) (core n : Nat) (c : Chain) (ia : Nat) : State × Bool :=
  let sl := homeSlice s (leadCore s core) ia
  if c.plain || !(sliceOf s sl).chain then (s, false)
  else match asnSlot s sl c.asn with
    | none => (s, false)
    | some t =>
      raiseTrigger s sl { id := 0, key := 3, slot := t, a1 := ia / 2 ^ 16 * 2 ^ 16, a2 := core + c.key % 4 * 2 ^ 12, a3 := c.pages.length, core
                          ctx := c.key % 4, chain := (n, c.gen) }

/-- R317: where the chain goes on: the virtual address of the page after those found; none where it has ended. -/
def nextPage (c : Chain) : Option Word :=
  match c.pages.getLast? with
  | none => some c.start
  | some p => if p.st ≠ 0 ∨ p.asked then none else some p.next

/-- R280: ST of a page as KVNX returns it; a page away has its page-in started. -/
def pageStatus (s : State) (core : Nat) (c : Chain) (ia : Nat) : State × Nat :=
  let q := leadCore s core
  match pageWalk s q c.asn ia with
  | .quarantined .. => (s, 3)
  | .leaf _ e _ => if leafAway e then (tierMiss s q c.asn ia core (c.key % 4) 2 none, 1) else (s, 0)
  | _ => (s, 0)

/-- R317, R323: the pages of a chain whose page-ins failed are to be made resident once more. -/
def reviveOwed (s : State) (c : Chain) : State :=
  { s with owed := s.owed.map fun w => if w.count == (c.key, c.fut, c.word) then { w with idle := false } else w }

/-- R280, R317: the oldest KVNX of a slot whose page has been found is answered, and its walker goes on from there. -/
def serveKvnx (s : State) (core n : Nat) : Option State :=
  let c := chainAt s core n
  match chainWants s core n c.gen, c.pages[c.ret]? with
  | r :: _, some p =>
    if p.asked then none
    else if p.st = 2 then some (freeChain (answerKvnx s r 2) core n)
    else
      let (s, st) := pageStatus s core c p.ia
      some (reviveOwed (putChain (answerKvnx s r (st + p.va.toNat / 2 ^ 16 * 2 ^ 16)) core n { chainAt s core n with ret := c.ret + 1 }) c)
  | _, _ => none

/-- R317: the walker looks at the next page of a chain. -/
def walkOn (s : State) (core n : Nat) (c : Chain) (va : Word) : State :=
  if va = 0 ∧ !c.pages.isEmpty then putChain s core n { c with pages := c.pages ++ [{ st := 2 }] }
  else match readHeader s core c va with
    | (s, .wait) => s
    | (s, .unreadable ia) => breakChain s core n c 0x27 ia
    | (s, .ok h ia) =>
      match askHandler s core n c ia with
      | (s, true) => putChain s core n { c with pages := c.pages ++ [{ va, ia, next := BitVec.ofNat 64 (fld h 63 0), asked := true }] }
      | (s, false) => hardwareStep s core n c va h ia

/-- CHAIN_WALK_STEP (R280, R317): slot id of a core in generation val answers a KVNX, or its walker goes one page on, up to four pages
ahead. -/
def execChainWalkStep (s : State) : Host.Outcome State Fault Refusal :=
  let core := s.subj.core
  let n := s.subj.id % 8
  let c := chainAt s core n
  if !c.live || c.gen != s.subj.val then .next s
  else match serveKvnx s core n with
    | some s => .next (eager s (walkStep core n c.gen))
    | none =>
      if c.pages.length < c.ret + max 4 (chainWants s core n c.gen).length then
        match nextPage c with
        | some va =>
          let t := walkOn s core n c va
          .next (if (chainAt t core n).pages.length = c.pages.length then addTimer t (t.cyc + 1) (walkStep core n c.gen)
            else eager t (walkStep core n c.gen))
        | none => .next s
      else .next s

/-- R339: the chain slot, and its page that waits for a chain step's verdict. -/
def stepOf (s : State) (i : Invoke) : Option (Nat × Chain × ChainPage) :=
  let c := chainAt s i.core i.chain.1
  if c.live ∧ c.gen = i.chain.2 then
    match c.pages.getLast? with
    | some p => if p.asked then some (i.chain.1, c, p) else none
    | none => none
  else none

/-- R333, R339: the verdict of a chain step: 0 counts the page, 1 waits for its page-in, 2 breaks the chain; none falls back to the
hardware's step. -/
def chainVerdict (s : State) (i : Invoke) (v : Option Nat) : State :=
  match stepOf s i with
  | none => s
  | some (n, c, p) =>
    let settled : Chain := { c with pages := c.pages.dropLast ++ [{ p with asked := false }] }
    let back : Chain := { c with pages := c.pages.dropLast }
    let s := match v with
      | some 0 => countChain (putChain s i.core n settled) (c.key, c.fut, c.word)
      | some 1 => makeResident (putChain s i.core n settled) i.core c p.ia
      | some 2 => breakChain s i.core n back 0x23 p.ia
      | _ =>
        match readHeader s i.core back p.va with
        | (s, .ok h ia) => hardwareStep s i.core n back p.va h ia
        | (s, .unreadable ia) => breakChain s i.core n back 0x27 ia
        | (s, .wait) => putChain s i.core n { back with plain := true }
    eager s (walkStep i.core n c.gen)

/-- CHAIN_STEP_TRIGGER (R339): a chain slot in handler mode raises its trigger: slot id of a core, in generation val, looks at the next
page it must make resident. -/
def execChainStepTrigger (s : State) : Host.Outcome State Fault Refusal :=
  let core := s.subj.core
  let n := s.subj.id % 8
  let c := chainAt s core n
  if c.live && c.gen == s.subj.val && decide (c.pages.length < c.ret + 4) then
    match nextPage c with
    | some va => .next (walkOn s core n c va)
    | none => .next s
  else .next s

end Sys2Proof.Machine
end

