-- ==== Sys2Proof/Machine/Riscv.lean ====
section
/-!
DEFINITION. The handler core (R325 to R327, R329, R335, R336): RV64I with M, A, C, Zicsr, Zba and Zbb over the handler's address map,
as the RISC-V unprivileged specification that R325 names defines them.
-/

namespace Sys2Proof.Machine

/-! ### Memory -/

/-- Where an address of the handler's map lies (R326). -/
inductive HPlace where
  | code (off : Nat)
  | data (off : Nat)
  | service (off : Nat)
  | fill (off : Nat)
  | tags (off : Nat)
  | window (ia : Nat)
  | none
deriving DecidableEq, Repr

/-- An access lies in a region. -/
def inRegion (r : Nat × Nat) (a n : Nat) : Bool := decide (r.1 ≤ a) && decide (a + n ≤ r.1 + r.2)

/-- R326, R329: the place of n bytes, for the tenant with descriptor dword w0. -/
def hplace (w0 a n : Nat) : HPlace :=
  if a + n ≤ 0x10000 then (if inRegion (codeRegion w0) a n then .code a else .none)
  else if 0x10000 ≤ a ∧ a + n ≤ 0x20000 then (if inRegion (dataRegion w0) (a - 0x10000) n then .data a else .none)
  else if 0x20000 ≤ a ∧ a + n ≤ 0x20040 then .service (a - 0x20000)
  else if 0x30000 ≤ a ∧ a + n ≤ 0x30040 then .fill (a - 0x30000)
  else if 0x1000000 ≤ a ∧ a + n ≤ 0x1800000 then .tags (a - 0x1000000)
  else if 2 ^ 63 ≤ a ∧ a - 2 ^ 63 + n ≤ 2 ^ 56 then .window (a - 2 ^ 63)
  else .none

/-- What an access or an instruction of a handler answers: a value, a wait, or an abort with a cause of R338. -/
inductive HEnd (α : Type) where
  | ok (v : α)
  | wait
  | abort (cause : Nat)
deriving Repr

/-- R329, R335: the storage address of a line-window access of n bytes, or of a supplied line; rd and wr say what the tenant must grant, st
that the page must take a write. -/
def windowPage (s : State) (sl : Nat) (r : HandlerRun) (ia n : Nat) (rd wr st : Bool) : State × HEnd Nat :=
  let t := r.inv.slot
  let q := sliceLead s sl
  if ia % n ≠ 0 then (s, .abort 5)
  else match windowOf (288 * (sl / 64)) ia with
    | .memory | .cxl =>
      if homeSlice s q ia ≠ sl ∨ !tenantReaches s sl t ia rd wr then (s, .abort 3)
      else match resolvePage s q (fld (tenantWord s sl t 1) 15 0) ia st with
        | (s, .ok pa _) => (s, .ok (paAddr pa))
        | (s, .wait) => (s, .wait)
        | (s, _) => (s, .abort 3)
    | _ => (s, .abort 3)

/-- R331, R335: a line-window access; a line that the slice does not hold is brought in first, with no trigger. -/
def windowPlace (s : State) (sl : Nat) (r : HandlerRun) (ia n : Nat) (rd wr st : Bool) : State × HEnd Nat :=
  match windowPage s sl r ia n rd wr st with
  | (s, .ok p) => (bringLines s sl [ia / 64 * 64], .ok p)
  | x => x

/-- R336: commands of the invocation that are outstanding. -/
def cmdsOut (s : State) (sl : Nat) (r : HandlerRun) : Nat :=
  ((sliceOf s sl).cmds.filter fun c => c.inv == r.inv.id && c.stat == 0).length

/-- R336: the value of a service register. -/
def serviceValue (s : State) (sl : Nat) (r : HandlerRun) (i : Nat) : Nat :=
  match i with
  | 0 => r.addr
  | 1 => r.len
  | 3 => match r.cmd with
    | some id => (((sliceOf s sl).cmds.find? fun c => c.id == id).map Cmd.stat).getD 0
    | none => 0
  | 4 => cmdsOut s sl r
  | _ => 0

/-- R335: a tag view entry as the tenant reads it: a frame that holds no line, or another tenant's, reads zero. -/
def tagEntry (s : State) (sl : Nat) (r : HandlerRun) (i : Nat) : Nat :=
  let t := r.inv.slot
  match (sget [] s.frames sl).find? fun p => p.1 == i with
  | some (_, f) =>
    if tenantReaches s sl t f.ia false false then
      let ms := match lookLeaf s (sliceLead s sl) (fld (tenantWord s sl t 1) 15 0) f.ia with | some e => bitAt e 6 | none => false
      1 + f.dirty.toNat * 2 + ms.toNat * 4 + t * 8 + f.ia / 64 * 2 ^ 14
    else 0
  | none => 0

/-- The fill buffer's bytes: what it holds before the invocation writes it is left open. -/
def fillByte (r : HandlerRun) (i : Nat) : Byte :=
  match r.fill.find? (fun e => e.1 == i) with
  | some (_, b) => b
  | none => BitVec.ofNat 8 (Config.lost r.inv.id (128 + i))

/-- A read of n bytes, for an access that must be granted rd and wr and may write where st says so. -/
def hread (s : State) (sl : Nat) (r : HandlerRun) (a n : Nat) (rd wr st : Bool) : State × HEnd Nat :=
  match hplace (tenantWord s sl r.inv.slot 0) a n with
  | .code o | .data o => (s, .ok (ofBytes (mgets s (sliceAddr sl o) n)))
  | .service o => (s, .ok (ofBytes ((List.range n).map fun i => BitVec.ofNat 8 (serviceValue s sl r ((o + i) / 8) / 2 ^ (8 * ((o + i) % 8))))))
  | .fill o => (s, .ok (ofBytes ((List.range n).map fun i => fillByte r (o + i))))
  | .tags o => (s, .ok (ofBytes ((List.range n).map fun i => BitVec.ofNat 8 (tagEntry s sl r ((o + i) / 8) / 2 ^ (8 * ((o + i) % 8))))))
  | .window ia =>
    match windowPlace s sl r ia n rd wr st with
    | (s, .ok p) => (s, .ok (ofBytes (mgets s p n)))
    | (s, .wait) => (s, .wait)
    | (s, .abort c) => (s, .abort c)
  | .none => (s, .abort 3)

/-- R336: a byte written to a service register. -/
def serviceByte (r : HandlerRun) (o v : Nat) : HandlerRun :=
  let put (x : Nat) : Nat := setFld x (8 * (o % 8) + 7) (8 * (o % 8)) v
  match o / 8 with
  | 0 => { r with addr := put r.addr }
  | 1 => { r with len := put r.len }
  | _ => r

/-- R337: the step of a service command. -/
def cmdEvent (code : Nat) : Instr :=
  match code with
  | 1 => .prefetchCommand
  | 2 => .fillCommand
  | 3 => .postNotice
  | _ => .pageInCommand

/-- R336, R337: a command is issued; unknown codes are refused at once, and handler services may be host-assisted. -/
def issueCmd (s : State) (sl : Nat) (r : HandlerRun) (code : Nat) : State × HandlerRun :=
  let known := decide (1 ≤ code) && decide (code ≤ 4)
  let c : Cmd := { id := s.nextId, inv := r.inv.id, code, addr := r.addr, len := r.len, slot := r.inv.slot, core := r.inv.core
                   ctx := r.inv.ctx, stat := if known then 0 else 2 }
  let s := updSlice { s with nextId := s.nextId + 1 } sl fun u => { u with cmds := u.cmds ++ [c] }
  (if known && !modeBit s (sliceLead s sl) 5 then addReady s ⟨cmdEvent code, { id := sl, val := c.id }⟩ else s, { r with cmd := some c.id })

/-- A write of the low n bytes of v. -/
def hwrite (s : State) (sl : Nat) (r : HandlerRun) (a n v : Nat) : State × HEnd HandlerRun :=
  let bs := toBytes n v
  match hplace (tenantWord s sl r.inv.slot 0) a n with
  | .data o => (mputs s (sliceAddr sl o) bs, .ok r)
  | .service o =>
    let r' := (List.range n).foldl (fun r i => serviceByte r (o + i) (v / 2 ^ (8 * i) % 256)) r
    if o ≤ 0x10 ∧ 0x10 < o + n then
      (if 16 ≤ cmdsOut s sl r then (s, .wait)
       else
         let (s, r) := issueCmd s sl r' (v % 2 ^ (8 * n) / 2 ^ (8 * (0x10 - o)))
         (s, .ok r))
    else (s, .ok r')
  | .fill o => (s, .ok { r with fill := (bs.zip (List.range n)).foldl (fun m (b, i) => sins m (o + i) b) r.fill })
  | .window ia =>
    -- an eviction's line takes no write (R334)
    if r.inv.key = 2 ∧ r.inv.a1 = ia / 64 * 64 then (s, .abort 3)
    else match windowPlace s sl r ia n false true true with
    | (s, .ok p) => (soilLine (mputs s p bs) (sliceLead s sl) ia, .ok r)
    | (s, .wait) => (s, .wait)
    | (s, .abort c) => (s, .abort c)
  | _ => (s, .abort 3)

/-! ### Compressed instructions -/

/-- Form I. -/
def encI (op f3 rd rs1 imm : Nat) : Nat := op + rd * 2 ^ 7 + f3 * 2 ^ 12 + rs1 * 2 ^ 15 + imm % 2 ^ 12 * 2 ^ 20

/-- Form R. -/
def encR (op f3 f7 rd rs1 rs2 : Nat) : Nat := op + rd * 2 ^ 7 + f3 * 2 ^ 12 + rs1 * 2 ^ 15 + rs2 * 2 ^ 20 + f7 * 2 ^ 25

/-- Form S. -/
def encS (f3 rs1 rs2 imm : Nat) : Nat :=
  0x23 + fld imm 4 0 * 2 ^ 7 + f3 * 2 ^ 12 + rs1 * 2 ^ 15 + rs2 * 2 ^ 20 + fld imm 11 5 * 2 ^ 25

/-- Form B. -/
def encB (f3 rs1 rs2 imm : Nat) : Nat :=
  0x63 + fld imm 11 11 * 2 ^ 7 + fld imm 4 1 * 2 ^ 8 + f3 * 2 ^ 12 + rs1 * 2 ^ 15 + rs2 * 2 ^ 20 + fld imm 10 5 * 2 ^ 25 + fld imm 12 12 * 2 ^ 31

/-- Form J. -/
def encJ (rd imm : Nat) : Nat :=
  0x6F + rd * 2 ^ 7 + fld imm 19 12 * 2 ^ 12 + fld imm 11 11 * 2 ^ 20 + fld imm 10 1 * 2 ^ 21 + fld imm 20 20 * 2 ^ 31

/-- The low w bits sign-extended to 64. -/
def sx (w x : Nat) : Nat := ofSigned 64 (toSigned w x)

/-- Quadrant 0. -/
def expand0 (c : Nat) : Option Nat :=
  let rd := 8 + fld c 4 2
  let rs := 8 + fld c 9 7
  let w := fld c 12 10 * 8 + fld c 6 6 * 4 + fld c 5 5 * 64
  let d := fld c 12 10 * 8 + fld c 6 5 * 64
  match fld c 15 13 with
  | 0 =>
    let imm := fld c 12 11 * 16 + fld c 10 7 * 64 + fld c 6 6 * 4 + fld c 5 5 * 8
    if imm = 0 then none else some (encI 0x13 0 rd 2 imm)
  | 2 => some (encI 0x03 2 rd rs w)
  | 3 => some (encI 0x03 3 rd rs d)
  | 6 => some (encS 2 rs rd w)
  | 7 => some (encS 3 rs rd d)
  | _ => none

/-- The arithmetic of quadrant 1 on the eight popular registers. -/
def expandArith (c : Nat) : Option Nat :=
  let rd := 8 + fld c 9 7
  let rs := 8 + fld c 4 2
  let imm := fld c 6 2 + fld c 12 12 * 32
  match fld c 11 10 with
  | 0 => some (encI 0x13 5 rd rd imm)
  | 1 => some (encI 0x13 5 rd rd (imm + 0x400))
  | 2 => some (encI 0x13 7 rd rd (sx 6 imm))
  | _ =>
    match fld c 12 12, fld c 6 5 with
    | 0, 0 => some (encR 0x33 0 0x20 rd rd rs)
    | 0, 1 => some (encR 0x33 4 0 rd rd rs)
    | 0, 2 => some (encR 0x33 6 0 rd rd rs)
    | 0, 3 => some (encR 0x33 7 0 rd rd rs)
    | 1, 0 => some (encR 0x3B 0 0x20 rd rd rs)
    | 1, 1 => some (encR 0x3B 0 0 rd rd rs)
    | _, _ => none

/-- Quadrant 1. -/
def expand1 (c : Nat) : Option Nat :=
  let rd := fld c 11 7
  let imm := fld c 6 2 + fld c 12 12 * 32
  let j := fld c 5 3 * 2 + fld c 11 11 * 16 + fld c 2 2 * 32 + fld c 7 7 * 64 + fld c 6 6 * 128 + fld c 10 9 * 256 + fld c 8 8 * 1024
    + fld c 12 12 * 2048
  let b := fld c 4 3 * 2 + fld c 11 10 * 8 + fld c 2 2 * 32 + fld c 6 5 * 64 + fld c 12 12 * 256
  match fld c 15 13 with
  | 0 => some (encI 0x13 0 rd rd (sx 6 imm))
  | 1 => if rd = 0 then none else some (encI 0x1B 0 rd rd (sx 6 imm))
  | 2 => some (encI 0x13 0 rd 0 (sx 6 imm))
  | 3 =>
    if imm = 0 then none
    else if rd = 2 then
      some (encI 0x13 0 2 2 (sx 10 (fld c 6 6 * 16 + fld c 2 2 * 32 + fld c 5 5 * 64 + fld c 4 3 * 128 + fld c 12 12 * 512)))
    else some (0x37 + rd * 2 ^ 7 + sx 6 imm % 2 ^ 20 * 2 ^ 12)
  | 4 => expandArith c
  | 5 => some (encJ 0 (sx 12 j))
  | 6 => some (encB 0 (8 + fld c 9 7) 0 (sx 9 b))
  | _ => some (encB 1 (8 + fld c 9 7) 0 (sx 9 b))

/-- Quadrant 2. -/
def expand2 (c : Nat) : Option Nat :=
  let rd := fld c 11 7
  let rs := fld c 6 2
  match fld c 15 13 with
  | 0 => some (encI 0x13 1 rd rd (rs + fld c 12 12 * 32))
  | 2 => if rd = 0 then none else some (encI 0x03 2 rd 2 (fld c 6 4 * 4 + fld c 12 12 * 32 + fld c 3 2 * 64))
  | 3 => if rd = 0 then none else some (encI 0x03 3 rd 2 (fld c 6 5 * 8 + fld c 12 12 * 32 + fld c 4 2 * 64))
  | 4 =>
    if fld c 12 12 = 0 then
      (if rs = 0 then (if rd = 0 then none else some (encI 0x67 0 0 rd 0)) else some (encR 0x33 0 0 rd 0 rs))
    else if rs = 0 then (if rd = 0 then some 0x00100073 else some (encI 0x67 0 1 rd 0))
    else some (encR 0x33 0 0 rd rd rs)
  | 6 => some (encS 2 2 rs (fld c 12 9 * 4 + fld c 8 7 * 64))
  | 7 => some (encS 3 2 rs (fld c 12 10 * 8 + fld c 9 7 * 64))
  | _ => none

/-- A compressed instruction as the instruction it stands for. -/
def expandC (c : Nat) : Option Nat :=
  if c = 0 then none
  else match c % 4 with
    | 0 => expand0 c
    | 1 => expand1 c
    | _ => expand2 c

/-! ### Arithmetic -/

/-- A value of 64 bits as a signed integer. -/
def sg (x : Nat) : Int := toSigned 64 x

/-- Signed division, with the results the M extension gives for a zero divisor. -/
def divS (w : Nat) (x y : Nat) : Nat :=
  if y % 2 ^ w = 0 then 2 ^ w - 1 else ofSigned w (Int.tdiv (toSigned w x) (toSigned w y))

/-- The remainder of signed division. -/
def remS (w : Nat) (x y : Nat) : Nat :=
  if y % 2 ^ w = 0 then x % 2 ^ w else ofSigned w (Int.tmod (toSigned w x) (toSigned w y))

/-- Unsigned division. -/
def divU (w : Nat) (x y : Nat) : Nat := if y % 2 ^ w = 0 then 2 ^ w - 1 else x % 2 ^ w / (y % 2 ^ w)

/-- The remainder of unsigned division. -/
def remU (w : Nat) (x y : Nat) : Nat := if y % 2 ^ w = 0 then x % 2 ^ w else x % 2 ^ w % (y % 2 ^ w)

/-- Rotation left by n of the low w bits. -/
def rotL (w x n : Nat) : Nat := x % 2 ^ w * 2 ^ (n % w) % 2 ^ w + x % 2 ^ w / 2 ^ (w - n % w)

/-- Arithmetic shift right of the low w bits. -/
def shrA (w x n : Nat) : Nat := ofSigned w (toSigned w x / (2 ^ n : Nat))

/-- Leading zeros of the low w bits. -/
def leadZeros (w x : Nat) : Nat := if x % 2 ^ w = 0 then w else w - 1 - Nat.log2 (x % 2 ^ w)

/-- Trailing zeros of the low w bits. -/
def trailZeros (w x : Nat) : Nat := ((List.range w).find? fun i => bitAt x i).getD w

/-- Ones among the low w bits. -/
def popCount (w x : Nat) : Nat := ((List.range w).filter fun i => bitAt x i).length

/-- OP: a register-register operation on 64 bits. -/
def rvOp (f3 f7 x y : Nat) : Option Nat :=
  let n := y % 64
  match f7, f3 with
  | 0x00, 0 => some (x + y)
  | 0x00, 1 => some (x * 2 ^ n)
  | 0x00, 2 => some (decide (sg x < sg y)).toNat
  | 0x00, 3 => some (decide (x < y)).toNat
  | 0x00, 4 => some (x ^^^ y)
  | 0x00, 5 => some (x / 2 ^ n)
  | 0x00, 6 => some (x ||| y)
  | 0x00, 7 => some (x &&& y)
  | 0x20, 0 => some (x + 2 ^ 64 - y)
  | 0x20, 4 => some (x ^^^ (2 ^ 64 - 1 - y))
  | 0x20, 5 => some (shrA 64 x n)
  | 0x20, 6 => some (x ||| (2 ^ 64 - 1 - y))
  | 0x20, 7 => some (x &&& (2 ^ 64 - 1 - y))
  | 0x01, 0 => some (x * y)
  | 0x01, 1 => some (ofSigned 128 (sg x * sg y) / 2 ^ 64)
  | 0x01, 2 => some (ofSigned 128 (sg x * (y : Int)) / 2 ^ 64)
  | 0x01, 3 => some (x * y / 2 ^ 64)
  | 0x01, 4 => some (divS 64 x y)
  | 0x01, 5 => some (divU 64 x y)
  | 0x01, 6 => some (remS 64 x y)
  | 0x01, 7 => some (remU 64 x y)
  | 0x05, 4 => some (if sg x < sg y then x else y)
  | 0x05, 5 => some (min x y)
  | 0x05, 6 => some (if sg x < sg y then y else x)
  | 0x05, 7 => some (max x y)
  | 0x10, 2 => some (y + 2 * x)
  | 0x10, 4 => some (y + 4 * x)
  | 0x10, 6 => some (y + 8 * x)
  | 0x30, 1 => some (rotL 64 x n)
  | 0x30, 5 => some (rotL 64 x (64 - n))
  | _, _ => none

/-- OP-IMM. -/
def rvImm (f3 imm x : Nat) : Option Nat :=
  let i := sx 12 imm
  let n := imm % 64
  match f3 with
  | 0 => some (x + i)
  | 2 => some (decide (sg x < sg i)).toNat
  | 3 => some (decide (x < i)).toNat
  | 4 => some (x ^^^ i)
  | 6 => some (x ||| i)
  | 7 => some (x &&& i)
  | 1 =>
    if imm / 64 = 0 then some (x * 2 ^ n)
    else match imm with
      | 0x600 => some (leadZeros 64 x)
      | 0x601 => some (trailZeros 64 x)
      | 0x602 => some (popCount 64 x)
      | 0x604 => some (sx 8 x)
      | 0x605 => some (sx 16 x)
      | _ => none
  | _ =>
    if imm / 64 = 0 then some (x / 2 ^ n)
    else if imm / 64 = 0x10 then some (shrA 64 x n)
    else if imm / 64 = 0x18 then some (rotL 64 x (64 - n))
    else if imm = 0x287 then some (ofBytes ((toBytes 8 x).map fun b => if b = 0 then 0 else 0xFF))
    else if imm = 0x6B8 then some (ofBytes (toBytes 8 x).reverse)
    else none

/-- OP-32: results before their sign extension; the .uw forms give 64 bits. -/
def rvOp32 (f3 f7 rs2 x y : Nat) : Option (Bool × Nat) :=
  let n := y % 32
  let w (v : Nat) : Option (Bool × Nat) := some (true, v)
  let u := x % 2 ^ 32
  match f7, f3 with
  | 0x00, 0 => w (x + y)
  | 0x00, 1 => w (x * 2 ^ n)
  | 0x00, 5 => w (u / 2 ^ n)
  | 0x20, 0 => w (x + 2 ^ 64 - y)
  | 0x20, 5 => w (shrA 32 x n)
  | 0x01, 0 => w (x * y)
  | 0x01, 4 => w (divS 32 x y)
  | 0x01, 5 => w (divU 32 x y)
  | 0x01, 6 => w (remS 32 x y)
  | 0x01, 7 => w (remU 32 x y)
  | 0x04, 0 => some (false, u + y)
  | 0x04, 4 => if rs2 = 0 then some (false, x % 2 ^ 16) else none
  | 0x10, 2 => some (false, y + 2 * u)
  | 0x10, 4 => some (false, y + 4 * u)
  | 0x10, 6 => some (false, y + 8 * u)
  | 0x30, 1 => w (rotL 32 x n)
  | 0x30, 5 => w (rotL 32 x (32 - n))
  | _, _ => none

/-- OP-IMM-32. -/
def rvImm32 (f3 imm x : Nat) : Option (Bool × Nat) :=
  let n := imm % 32
  match f3 with
  | 0 => some (true, x + sx 12 imm)
  | 1 =>
    if imm / 32 = 0 then some (true, x * 2 ^ n)
    else if imm / 64 = 2 then some (false, x % 2 ^ 32 * 2 ^ (imm % 64))
    else match imm with
      | 0x600 => some (true, leadZeros 32 x)
      | 0x601 => some (true, trailZeros 32 x)
      | 0x602 => some (true, popCount 32 x)
      | _ => none
  | 5 =>
    if imm / 32 = 0 then some (true, x % 2 ^ 32 / 2 ^ n)
    else if imm / 32 = 0x20 then some (true, shrA 32 x n)
    else if imm / 32 = 0x30 then some (true, rotL 32 x (32 - n))
    else none
  | _ => none

/-- The condition of a branch. -/
def rvCond (f3 x y : Nat) : Option Bool :=
  match f3 with
  | 0 => some (x == y)
  | 1 => some (x != y)
  | 4 => some (decide (sg x < sg y))
  | 5 => some (decide (sg y ≤ sg x))
  | 6 => some (decide (x < y))
  | 7 => some (decide (y ≤ x))
  | _ => none

/-- The value an AMO stores, on w bits. -/
def rvAmo (f5 w old y : Nat) : Option Nat :=
  let a := toSigned w old
  let b := toSigned w y
  match f5 with
  | 0x00 => some (old + y)
  | 0x01 => some y
  | 0x04 => some (old ^^^ y)
  | 0x08 => some (old ||| y)
  | 0x0C => some (old &&& y)
  | 0x10 => some (if a < b then old else y)
  | 0x14 => some (if a < b then y else old)
  | 0x18 => some (min (old % 2 ^ w) (y % 2 ^ w))
  | 0x1C => some (max (old % 2 ^ w) (y % 2 ^ w))
  | _ => none

/-! ### One instruction -/

/-- What one instruction of a handler comes to. -/
inductive HandlerEnd where
  | next (s : State) (r : HandlerRun)
  | wait (s : State)
  | ecall
  | abort (cause : Nat)
deriving Repr

/-- Register i; x0 reads zero. -/
def xreg (r : HandlerRun) (i : Nat) : Nat := if i = 0 then 0 else (sget 0 r.regs i).toNat

/-- The run with a register written and its pc moved. -/
def putX (r : HandlerRun) (i v pc : Nat) : HandlerRun :=
  { r with regs := if i = 0 then r.regs else sins r.regs i (BitVec.ofNat 64 v), pc }

/-- The instruction at the pc with its length, or the cause of an abort (R326). -/
def hfetch (s : State) (sl : Nat) (r : HandlerRun) : HEnd (Nat × Nat) :=
  let g := codeRegion (tenantWord s sl r.inv.slot 0)
  let at_ (n : Nat) : Nat := ofBytes (mgets s (sliceAddr sl r.pc) n)
  if !inRegion g r.pc 2 || decide (0x10000 < r.pc + 2) then .abort 3
  else if at_ 2 % 4 ≠ 3 then (match expandC (at_ 2) with | some i => .ok (i, 2) | none => .abort 2)
  else if !inRegion g r.pc 4 || decide (0x10000 < r.pc + 4) then .abort 3
  else .ok (at_ 4, 4)

/-- R327: a CSR as it is read. -/
def rvCsr (s : State) (sl : Nat) (r : HandlerRun) (n : Nat) : Option Nat :=
  match n with
  | 0xC00 => some s.cyc
  | 0xC02 => some r.ret
  | 0xCC0 => some (r.first + fld (tenantWord s sl r.inv.slot 0) 55 40 - s.cyc)
  | _ => none

/-- A load. -/
def rvLoad (s : State) (sl : Nat) (r : HandlerRun) (f3 rd a pc : Nat) : HandlerEnd :=
  if f3 = 7 then .abort 2
  else
    let n := 2 ^ (f3 % 4)
    match hread s sl r a n true false false with
    | (s, .ok v) => .next s (putX r rd (if f3 < 4 then sx (8 * n) v else v) pc)
    | (s, .wait) => .wait s
    | (_, .abort c) => .abort c

/-- A store. -/
def rvStore (s : State) (sl : Nat) (r : HandlerRun) (f3 a v pc : Nat) : HandlerEnd :=
  if 4 ≤ f3 then .abort 2
  else match hwrite s sl r a (2 ^ f3) v with
    | (s, .ok r) => .next s { r with pc }
    | (s, .wait) => .wait s
    | (_, .abort c) => .abort c

/-- The storage address an atomic reserves: data memory or the line window. -/
def lockPlace (s : State) (sl : Nat) (r : HandlerRun) (a n : Nat) : Nat :=
  match hplace (tenantWord s sl r.inv.slot 0) a n with
  | .data o => sliceAddr sl o
  | .window ia => match windowPlace s sl r ia n false true false with | (_, .ok p) => p | _ => 2 ^ 60 + a
  | _ => 2 ^ 60 + a

/-- LR, SC and the AMOs. -/
def rvAtomic (s : State) (sl : Nat) (r : HandlerRun) (i x y pc : Nat) : HandlerEnd :=
  let f3 := fld i 14 12
  let rd := fld i 11 7
  let n := 2 ^ f3
  let f5 := fld i 31 27
  if (f3 ≠ 2 ∧ f3 ≠ 3) ∨ (f5 = 2 ∧ fld i 24 20 ≠ 0) ∨ (f5 ≠ 2 ∧ f5 ≠ 3 ∧ (rvAmo f5 (8 * n) 0 0).isNone) then .abort 2
  else if x % n ≠ 0 then .abort 5
  else match f5 with
    | 0x02 =>
      match hread s sl r x n false true false with
        | (s, .ok v) =>
          let p := lockPlace s sl r x n
          .next { s with resv := (sl, p, n) :: s.resv.filter fun e => e.1 != sl } (putX r rd (sx (8 * n) v) pc)
        | (s, .wait) => .wait s
        | (_, .abort c) => .abort c
    | 0x03 =>
      -- the place must be writable whether or not the store is made
      match hread s sl r x n false true true with
      | (s, .ok _) =>
        let held := s.resv.contains (sl, lockPlace s sl r x n, n)
        let s := { s with resv := s.resv.filter fun e => e.1 != sl }
        if held then
          match hwrite s sl r x n y with
          | (s, .ok r) => .next s (putX r rd 0 pc)
          | (s, .wait) => .wait s
          | (_, .abort c) => .abort c
        else .next s (putX r rd 1 pc)
      | (s, .wait) => .wait s
      | (_, .abort c) => .abort c
    | f5 =>
      match hread s sl r x n false true true with
      | (s, .ok v) =>
        match rvAmo f5 (8 * n) v y with
        | some w =>
          match hwrite s sl r x n w with
          | (s, .ok r) => .next s (putX r rd (sx (8 * n) v) pc)
          | (s, .wait) => .wait s
          | (_, .abort c) => .abort c
        | none => .abort 2
      | (s, .wait) => .wait s
      | (_, .abort c) => .abort c

/-- SYSTEM: ECALL, EBREAK, WFI and the reads of CSRs (R325, R327). -/
def rvSystem (s : State) (sl : Nat) (r : HandlerRun) (i pc : Nat) : HandlerEnd :=
  let f3 := fld i 14 12
  if i = 0x00000073 then .ecall
  else if i = 0x00100073 then .abort 4
  else if i = 0x10500073 then .next s { r with pc }
  else if f3 % 4 < 2 ∨ fld i 19 15 ≠ 0 then .abort 2
  else match rvCsr s sl r (fld i 31 20) with
    | some v => .next s (putX r (fld i 11 7) v pc)
    | none => .abort 2

/-- R325: the instruction at the pc executes. -/
def rvStep (s : State) (sl : Nat) (r : HandlerRun) : HandlerEnd :=
  match hfetch s sl r with
  | .wait => .wait s
  | .abort c => .abort c
  | .ok (i, len) =>
    let rd := fld i 11 7
    let f3 := fld i 14 12
    let x := xreg r (fld i 19 15)
    let y := xreg r (fld i 24 20)
    let imm := fld i 31 20
    let pc := (r.pc + len) % 2 ^ 64
    let put (v : Option Nat) : HandlerEnd := match v with | some v => .next s (putX r rd (v % 2 ^ 64) pc) | none => .abort 2
    let put32 (v : Option (Bool × Nat)) : HandlerEnd :=
      put (v.map fun (w, v) => if w then sx 32 v else v)
    match i % 128 with
    | 0x37 => put (some (sx 32 (fld i 31 12 * 2 ^ 12)))
    | 0x17 => put (some (r.pc + sx 32 (fld i 31 12 * 2 ^ 12)))
    | 0x6F =>
      let off := sx 21 (fld i 30 21 * 2 + fld i 20 20 * 2 ^ 11 + fld i 19 12 * 2 ^ 12 + fld i 31 31 * 2 ^ 20)
      .next s (putX r rd pc ((r.pc + off) % 2 ^ 64))
    | 0x67 => if f3 ≠ 0 then .abort 2 else .next s (putX r rd pc ((x + sx 12 imm) % 2 ^ 64 / 2 * 2))
    | 0x63 =>
      let off := sx 13 (fld i 11 8 * 2 + fld i 30 25 * 2 ^ 5 + fld i 7 7 * 2 ^ 11 + fld i 31 31 * 2 ^ 12)
      match rvCond f3 x y with
      | some true => .next s { r with pc := (r.pc + off) % 2 ^ 64 }
      | some false => .next s { r with pc }
      | none => .abort 2
    | 0x03 => rvLoad s sl r f3 rd ((x + sx 12 imm) % 2 ^ 64) pc
    | 0x23 => rvStore s sl r f3 ((x + sx 12 (fld i 11 7 + fld i 31 25 * 32)) % 2 ^ 64) y pc
    | 0x13 => put (rvImm f3 imm x)
    | 0x33 => put (rvOp f3 (fld i 31 25) x y)
    | 0x1B => put32 (rvImm32 f3 imm x)
    | 0x3B => put32 (rvOp32 f3 (fld i 31 25) (fld i 24 20) x y)
    | 0x2F => rvAtomic s sl r i x y pc
    | 0x0F => if f3 = 0 then .next s { r with pc } else .abort 2
    | 0x73 => rvSystem s sl r i pc
    | _ => .abort 2

end Sys2Proof.Machine
end

