-- ==== Sys2Proof/Machine/Handlers.lean ====
section
/-!
DEFINITION. Invocations of handlers (R331 to R339): their start, instructions, verdicts, aborts and time limit, and their service commands.
-/

namespace Sys2Proof.Machine

/-- The state with a slice's running invocation changed. -/
def putRun (s : State) (sl : Nat) (r : Option HandlerRun) : State := updSlice s sl fun u => { u with run := r }

/-- R325: the next instruction's step, in a cycle of its own. -/
def retireNext (s : State) (sl : Nat) : State :=
  if s.schedule.isEmpty then addTimer s (s.cyc + 1) ⟨.handlerInstructionRetire, { id := sl }⟩ else s

/-- HANDLER_INVOCATION_START (R332, R333): the idle core of slice id starts the head of its queue. -/
def execHandlerInvocationStart (s : State) : Host.Outcome State Fault Refusal :=
  let sl := s.subj.id
  match (sliceOf s sl).run, (sliceOf s sl).queue with
  | none, i :: is =>
    let w0 := tenantWord s sl i.slot 0
    let (d, n) := dataRegion w0
    let regs : List (Nat × Nat) :=
      [(2, 0x10000 + d + n), (3, 0x10000 + d), (10, i.key), (11, i.a1), (12, i.a2), (13, i.a3)]
    let r : HandlerRun :=
      { inv := i, pc := (codeRegion w0).1 + tableEntry s sl i.slot i.key, first := s.cyc
        regs := regs.foldl (fun m (k, v) => sins m k (BitVec.ofNat 64 v)) [] }
    let s := updSlice s sl fun u => { u with queue := is, run := some r }
    let s := { s with resv := s.resv.filter fun e => e.1 != sl }
    .next (eager (addTimer s (s.cyc + fld w0 55 40) ⟨.handlerTimeLimit, { id := sl, val := i.id }⟩) ⟨.handlerInstructionRetire, { id := sl }⟩)
  | _, _ => .next s

/-- R332: the invocation is over: the head of the queue starts in the next cycle, or in this one where it ended with the last. -/
def endInvoke (s : State) (sl : Nat) (before : Bool) : State :=
  let s := updSlice s sl fun u => { u with run := none, cmds := u.cmds.filter fun c => c.stat == 0 }
  let e : Event := ⟨.handlerInvocationStart, { id := sl }⟩
  if (sliceOf s sl).queue.isEmpty then s else if before then addReady s e else addTimer s (s.cyc + 1) e

/-- R338: the default action of a trigger: verdict 0 on a line, hardware's walk of a chain step, a message's reply of 0 with ERR. -/
def defaultAction (s : State) (sl : Nat) (i : Invoke) : State :=
  if i.key < 3 then lineVerdict s sl i 0
  else if i.key = 3 then chainVerdict s i none
  else if 16 ≤ i.key then (match reqOf s i.req with | some r => hmsgReply s r 0 true | none => s)
  else s

/-- R338: the running invocation is aborted with a cause, and its trigger takes its default action from the next cycle on; an invocation at
its time limit ended with the last cycle. -/
def abortRun (s : State) (sl cause : Nat) (r : HandlerRun) : State :=
  let s := endInvoke (handlerFault s sl cause r.inv r.pc) sl (cause == 1)
  if cause = 1 then defaultAction s sl r.inv
  else
    let (s, e) := putAbort s sl r.inv
    addTimer s (s.cyc + 1) e

/-- R332, R338: the default action of trigger id of a slice, aborted in the cycle before or turned away by a full queue. -/
def afterAbort (s : State) (sl id : Nat) : State :=
  match (sliceOf s sl).aborts.find? fun i => i.id == id with
  | some i => defaultAction (updSlice s sl fun u => { u with aborts := u.aborts.filter fun j => j.id != id }) sl i
  | none => s

/-- HANDLER_INSTRUCTION_RETIRE (R325): one instruction of the invocation that runs at slice id; an ECALL or an abort has a step of its
own. -/
def execHandlerInstructionRetire (s : State) : Host.Outcome State Fault Refusal :=
  let sl := s.subj.id
  match (sliceOf s sl).run with
  | none => .next s
  | some r =>
    if r.last = some s.cyc then .next s
    else match rvStep s sl r with
      | .next s r => .next (retireNext (putRun s sl (some { r with last := some s.cyc, ret := r.ret + 1 })) sl)
      | .wait s => .next (retireNext s sl)
      | .ecall => .next (addReady s ⟨.handlerEcall, { id := sl }⟩)
      | .abort _ => .next (addReady s ⟨.handlerAbort, { id := sl }⟩)

/-- R333: the fill buffer becomes the line. -/
def supplyLine (s : State) (sl : Nat) (r : HandlerRun) : State × HEnd Unit :=
  match windowPage s sl r r.inv.a1 64 false true true with
  | (s, .ok p) => (mputs s p ((List.range 64).map (fillByte r)), .ok ())
  | (s, .wait) => (s, .wait)
  | (s, .abort c) => (s, .abort c)

/-- HANDLER_ECALL (R333): the invocation that runs at slice id ends with the verdict or reply in a0. -/
def execHandlerEcall (s : State) : Host.Outcome State Fault Refusal :=
  let sl := s.subj.id
  match (sliceOf s sl).run with
  | none => .next s
  | some r =>
    if r.last = some s.cyc then .next (addTimer s (s.cyc + 1) ⟨.handlerEcall, s.subj⟩)
    else match rvStep s sl r with
    | .ecall =>
      let v := xreg r 10
      let i := r.inv
      if 16 ≤ i.key then
        .next (match reqOf s i.req with | some q => hmsgReply (endInvoke s sl false) q v false | none => endInvoke s sl false)
      else match i.key, v with
        | 0, 0 | 1, 0 | 1, 1 | 2, 0 => .next (lineVerdict (endInvoke s sl false) sl i v)
        | 0, 1 =>
          match supplyLine s sl r with
          | (s, .ok _) => .next (lineVerdict (endInvoke s sl false) sl i 1)
          | (s, .wait) => .next (addTimer s (s.cyc + 1) ⟨.handlerEcall, s.subj⟩)
          | (s, .abort c) => .next (abortRun s sl c r)
        | 3, 0 | 3, 1 | 3, 2 => .next (chainVerdict (endInvoke s sl false) i (some v))
        | _, _ => .next (abortRun s sl 6 r)
    | _ => .next s

/-- HANDLER_ABORT (R332, R338): the instruction at the pc of the invocation that runs at slice id aborts it; in the next cycle its trigger
takes its default action, which flag names as trigger val. -/
def execHandlerAbort (s : State) : Host.Outcome State Fault Refusal :=
  let sl := s.subj.id
  if s.subj.flag then .next (afterAbort s sl s.subj.val)
  else match (sliceOf s sl).run with
  | none => .next s
  | some r =>
    if r.last = some s.cyc then .next (addTimer s (s.cyc + 1) ⟨.handlerAbort, s.subj⟩)
    else match rvStep s sl r with
    | .abort c => .next (abortRun s sl c r)
    | _ => .next s

/-- HANDLER_TIME_LIMIT (R338): invocation val of slice id has not ended by its last cycle. -/
def execHandlerTimeLimit (s : State) : Host.Outcome State Fault Refusal :=
  let sl := s.subj.id
  match (sliceOf s sl).run with
  | none => .next s
  | some r =>
    let last := r.first + fld (tenantWord s sl r.inv.slot 0) 55 40
    if r.inv.id ≠ s.subj.val then .next s
    else if last ≤ s.cyc then .next (abortRun s sl 1 r)
    else .next (addTimer s last ⟨.handlerTimeLimit, s.subj⟩)

/-! ### Service commands -/

/-- R337: the pending command of a step. -/
def cmdOf (s : State) : Option Cmd := (sliceOf s s.subj.id).cmds.find? fun c => c.id == s.subj.val && c.stat == 0

/-- R336: the state with a command's status. -/
def setCmd (s : State) (sl id stat : Nat) : State :=
  updSlice s sl fun u => { u with cmds := u.cmds.map fun c => if c.id == id then { c with stat } else c }

/-- R329, R337: a command's lines are not the tenant's to read. -/
def pageRefused (s : State) (sl : Nat) (c : Cmd) : Bool := !tenantReaches s sl c.slot c.addr true false

/-- R336, R337: the span's checks: its size, one page, and lines of the tenant. -/
def spanRefused (s : State) (sl : Nat) (c : Cmd) : Bool :=
  c.len % 64 != 0 || decide (c.len < 64) || decide (65536 < c.addr % 2 ^ 16 + c.len) || pageRefused s sl c

/-- R337: the page of a command is resident in the tenant's address space, away, or not to be found. -/
def cmdLeaf (s : State) (sl : Nat) (c : Cmd) : Option Nat :=
  lookLeaf s (sliceLead s sl) (fld (tenantWord s sl c.slot 1) 15 0) c.addr

/-- R391, R337: the leaf of a command's page, with the walk and the service that a read of it needs. -/
def cmdPage (s : State) (sl : Nat) (c : Cmd) : State × PageEnd :=
  resolvePage s (sliceLead s sl) (fld (tenantWord s sl c.slot 1) 15 0) c.addr false

/-- R331, R337: the lines of a command's span are in their home slice, where their page is resident. -/
def bringSpan (s : State) (sl : Nat) (c : Cmd) : State :=
  match cmdLeaf s sl c with
  | some e => if leafAway e then s else bringPage s (sliceLead s sl) none c.addr c.len
  | none => s

/-- R337: a command whose page waits for a walk or a service is looked at again in the next cycle. -/
def cmdAgain (s : State) (c : Cmd) : State := addTimer s (s.cyc + 1) ⟨cmdEvent c.code, s.subj⟩

/-- PREFETCH_COMMAND (R337): command val of slice id. -/
def execPrefetchCommand (s : State) : Host.Outcome State Fault Refusal :=
  match cmdOf s with
  | none => .next s
  | some c =>
    let sl := s.subj.id
    if spanRefused s sl c then .next (setCmd s sl c.id 2)
    else match cmdPage s sl c with
      | (s, .ok ..) => .next (setCmd (bringSpan s sl c) sl c.id 1)
      | (s, .wait) => .next (cmdAgain s c)
      | (s, _) => .next (setCmd s sl c.id 4)

/-- FILL_COMMAND (R337). -/
def execFillCommand (s : State) : Host.Outcome State Fault Refusal :=
  let sl := s.subj.id
  match cmdOf s with
  | none => .next s
  | some c =>
    if spanRefused s sl c then .next (setCmd s sl c.id 2)
    else match cmdPage s sl c with
      | (s, .ok _ e) => .next (if leafAway e then setCmd s sl c.id 1 else eager (bringSpan s sl c) ⟨.serviceCommandDone, { id := sl, val := c.id, code := 1 }⟩)
      | (s, .wait) => .next (cmdAgain s c)
      | (s, _) => .next (setCmd s sl c.id 4)

/-- POST_NOTICE (R282, R337): the image in data memory is published with the slice as its producer. -/
def execPostNotice (s : State) : Host.Outcome State Fault Refusal :=
  let sl := s.subj.id
  match cmdOf s with
  | none => .next s
  | some c =>
    let q := sliceLead s sl
    let img := ofBytes (mgets s (sliceAddr sl (0x10000 + c.addr)) 32)
    let ia := fld img 119 64
    let refused := !inRegion (dataRegion (tenantWord s sl c.slot 0)) c.addr 32 || imgMalformed s q img
      || windowOf (288 * (sl / 64)) ia != .memory || windowOf (288 * (sl / 64)) (ia + imgSize img - 1) != .memory
      || (List.range (imgSize img / 2 ^ 16 + 2)).any fun i =>
        decide ((ia / 2 ^ 16 + i) * 2 ^ 16 < ia + imgSize img) && !tenantReaches s sl c.slot ((ia / 2 ^ 16 + i) * 2 ^ 16) true false
    if refused then .next (setCmd s sl c.id 2)
    else if 16 ≤ (s.notices.filter fun n => imgProd n.img == 0x800 + sl).length then .next (setCmd s sl c.id 3)
    else
      let n : Notice :=
        { id := 0, img := imgPublished img ia (0x800 + sl), key := 4 * (0x800 + sl), asn := fld (tenantWord s sl c.slot 1) 15 0
          members := (imgConsumers s q img).getD [], posted := true, slice := sl }
      .next (setCmd (publish s n) sl c.id 1)

/-- PAGE_IN_COMMAND (R322, R337): the page of HSADDR comes in as for a tier miss. -/
def execPageInCommand (s : State) : Host.Outcome State Fault Refusal :=
  let sl := s.subj.id
  match cmdOf s with
  | none => .next s
  | some c =>
    let q := sliceLead s sl
    let asn := fld (tenantWord s sl c.slot 1) 15 0
    if pageRefused s sl c then .next (setCmd s sl c.id 2)
    else match cmdPage s sl c with
      | (s, .wait) => .next (cmdAgain s c)
      | (s, .ok _ e) =>
        if !leafAway e || bitAt e 12 then .next (setCmd s sl c.id 1)
        else
          let s := tierMiss s q asn c.addr c.core c.ctx 2 none
          .next { s with pageIns := s.pageIns.map fun p =>
            if p.quarter == q && p.asn == asn && p.ia == c.addr / 2 ^ 16 * 2 ^ 16 then { p with cmds := p.cmds ++ [(sl, c.id)] } else p }
      | (s, _) => .next (setCmd s sl c.id 4)

/-- SERVICE_COMMAND_DONE (R336, R337): command val of slice id ends with status code: a fill when every line is resident, a page-in when
it has ended. -/
def execServiceCommandDone (s : State) : Host.Outcome State Fault Refusal :=
  match cmdOf s with
  | none => .next s
  | some c =>
    let s := setCmd s s.subj.id c.id (if s.subj.code = 0 then 1 else s.subj.code)
    .next (match (sliceOf s s.subj.id).run with
      | some r => if r.inv.id = c.inv then s else
          updSlice s s.subj.id fun u => { u with cmds := u.cmds.filter fun x => x.id != c.id }
      | none => updSlice s s.subj.id fun u => { u with cmds := u.cmds.filter fun x => x.id != c.id })

end Sys2Proof.Machine
end

