-- ==== Sys2Proof/Machine/Translation.lean ====
section
/-!
DEFINITION. The translation homes' own steps: walks (R391, R392, R394) and the answers of system software (R398).
-/

namespace Sys2Proof.Machine

/-- R217, R218: an access of the context to the page is on its way: a load in flight, or a gated store. -/
def pageWanted (c : Ctx) (page : Nat) (write : Bool) : Bool :=
  if write then (c.region.gate ++ c.nextRegion.gate).any fun g => g.ia / 2 ^ 16 == page
  else c.flights.any fun f => match f.src with
    | .load _ _ _ bs | .tolerant _ _ _ _ bs => bs.any fun b => b.fwd.isNone && b.ia / 2 ^ 16 == page
    | _ => false

/-- TRANSLATION_WALK (R391, R394, R398): the home of page id walks for an access of the context that misses its cache, serves it, or hands
the walk or the service to system software; flag says that the access writes. -/
def execTranslationWalk (s : State) : Host.Outcome State Fault Refusal :=
  let k := keyOf s.subj
  let ia := s.subj.id
  match windowOf (k / 4) ia with
  | .memory | .cxl =>
    if pageWanted (ctxOf s k) (ia / 2 ^ 16) s.subj.flag then
      .next (resolveAs s (leadCore s (k / 4)) (ctxOf s k).asn ia s.subj.flag false).1
    else .next s
  | _ => .next s

/-- XANS (R347, R391, R398): the value val answers an outstanding request of quarter id, for every access that joined it; ref is the value last
written to XPTE. -/
def execXans (s : State) : Host.Outcome State Fault Refusal :=
  let q := s.subj.id
  let v := s.subj.val
  match s.xreqs.find? (fun x => x.quarter == q && x.failed.isNone && x.id % 2 ^ 16 == v % 2 ^ 16) with
  | none => .next s
  | some x =>
    let done (s : State) : State := { s with xreqs := s.xreqs.filter fun y => y.id != x.id }
    let s :=
      if fld v 17 16 = 1 then { s with xreqs := s.xreqs.map fun y => if y.id = x.id then { y with failed := some false } else y }
      else if fld v 17 16 = 2 ∧ !x.shot then
        (x.asn :: x.joined).foldl (fun s a => tlbFill s q a (x.page * 2 ^ 16) s.subj.ref noEntry false) (done s)
      else if fld v 17 16 = 3 then s
      else done s
    .next (notifyPasses s x.page)

end Sys2Proof.Machine
end

