-- ==== Sys2Proof/Machine/Errors.lean ====
section
/-!
DEFINITION. Uncorrectable errors (R410, R411).
-/

namespace Sys2Proof.Machine

/-- R411: a core is fenced; its other contexts stop at their next yield check. -/
def fenceCore (s : State) (core k : Nat) : State :=
  let off := 0x100 + 8 * (core % 288 / 64)
  let s := setCreg s (quarterOf core) .fault off (setBit (creg s (quarterOf core) .fault off) (core % 288 % 64) true)
  ((coreKeys core).filter fun j => j != k && (ctxOf s j).st != .free).foldl raiseYield s

/-- R411: the unit of a lasting error at a site is fenced: the core of the context, the line frame of a slice that holds the address, or a
physical frame. -/
def fenceSite (s : State) (site ia frame k : Nat) : State :=
  if site = 1 then fenceCore s (k / 4) k
  else if site = 2 then fenceFrame s (homeSlice s (leadCore s (k / 4)) ia) (ia / 64 * 64)
  else if site = 3 then { s with fenced := frame :: s.fenced.filter (· != frame), tlb := s.tlb.filter fun t => fld (leafPa t.leaf t.huge (t.page * 2 ^ 16)) 51 16 != frame }
  else s

/-- UNCORRECTABLE_ERROR (R401, R410, R411): the work of a context meets an error at site code, at intermediate address id, in frame val
where the site is one.  Its region is rolled back and run once more; a second error before the region's mark completes is lasting.  A
rollback that must wait for an after-mark is tried again in the next cycle. -/
def execUncorrectableError (s : State) : Host.Outcome State Fault Refusal :=
  let k := keyOf s.subj
  let c := ctxOf s k
  let log (cause : Nat) (s : State) : State := logFault s (quarterOf (k / 4)) cause s.subj.code (k / 4) (k % 4) s.subj.id 0
  if c.st = .free ∨ c.why = .done ∨ c.why = .fault ∨ c.why = .reclaim ∨ c.saved ∨ c.halted ∨ s.subj.code = 0 ∨ 3 < s.subj.code then .next s
  else if c.retry then
    .next (pendTrap (log 0x26 (fenceSite s s.subj.code s.subj.id s.subj.val k)) k { code := 0x1F })
  else if mustHold c (c.bseq + 1) then .next (addTimer (tryAfterMark s k) (s.cyc + 1) ⟨.uncorrectableError, s.subj⟩)
  else if c.reclaim ∧ c.mark.regs.pin = 0 then
    .next (addReady (log 0x25 (updCtx (rollback s k) k fun c => { c with st := .stopping, why := .reclaim })) ⟨.reclaimStop, subjOf k⟩)
  else
    -- R412: a context that was stopping to be saved stops once the retry has run to its mark
    let s := updCtx (rollback s k) k fun d => { d with retry := true, forced := d.forced || (c.st == .stopping && c.why == .save) }
    .next (log 0x25 (makeReady s k))

/-- LOAD_PIPE_REREAD (R206, R207, R410, R411): the pipe reads the data of an error once more: clean, or, with flag, lasting: in the scratchpad of
some core, or in memory, where code 2 says that a slice's line frame has failed. -/
def execLoadPipeReread (s : State) : Host.Outcome State Fault Refusal :=
  let core := s.subj.core
  match passOf s core s.subj.id with
  | none => .next s
  | some p =>
    let k := 4 * core + p.ctx
    if p.st ≠ .suspended ∨ p.susp.fc ≠ 3 then .next s
    else if !s.subj.flag then .next (passReady s core p)
    else
      let ia := p.susp.ia
      let unit := match windowOf core ia with | .scratch c _ => some c | _ => none
      let site := if unit.isSome then 1 else if s.subj.code = 2 then 2 else 3
      let frame := match anyLeaf s (leadCore s core) (ctxOf s k).asn ia with | some (_, pa) => pa / 2 ^ 16 | none => 0
      let t := match unit with | some c => fenceCore s c k | none => fenceSite s site ia frame k
      let s := logFault t (quarterOf core) 0x26 site core p.ctx ia 0
      .next (failPass s core p p.susp.op p.susp.row (operandFault p.susp.va ia))

end Sys2Proof.Machine
end

