-- ==== Sys2Proof/Machine/Power.lean ====
section
/-!
DEFINITION. Power tokens (R424), energy windows (R46, R425, R426) and clock steps (R427).
-/

namespace Sys2Proof.Machine

/-! ### Tokens -/

/-- R413: power tokens a quarter holds, in mW. -/
def tokens (s : State) (q : Nat) : Nat := creg s q .part 0x040

/-- The state with the tokens of a quarter changed. -/
def setTokens (s : State) (q n : Nat) : State := setCreg s q .part 0x040 (n % 2 ^ 24)

/-- R413: a give of a quarter was refused, or returned. -/
def giveRefused (s : State) (q : Nat) : State := setCreg s q .part 0x054 ((creg s q .part 0x054 + 1) % 2 ^ 32)

/-- PGIVE (R424): val is written to PGIVE of quarter id. -/
def execPgive (s : State) : Host.Outcome State Fault Refusal :=
  let q := s.subj.id
  let target := fld s.subj.val 3 0
  let amount := fld s.subj.val 27 4
  if 12 ≤ target then .next s
  else if tokens s q < amount + creg s q .part 0x048 then .next (giveRefused s q)
  else
    let n := (quarterSt s q).nextGive
    let s := updQuarter (setTokens s q (tokens s q - amount)) q fun u =>
      { u with gives := u.gives ++ [⟨n, target, amount⟩], nextGive := n + 1 }
    let s := addTimer s (s.cyc + 2 ^ 20) ⟨.tokenGiveTimeout, { id := q, val := n }⟩
    .next (if 8 ≤ target ∧ s.schedule.isEmpty then addTimer s (s.cyc + 1) ⟨.tokenMessage, { id := target - 8, code := 8 + q, ref := n }⟩ else s)

/-- R424: a quarter takes what it can hold of some tokens; the excess. -/
def takeTokens (s : State) (q n : Nat) : State × Nat :=
  let m := min n (creg s q .part 0x044 - tokens s q)
  (setTokens s q (tokens s q + m), n - m)

/-- R424: a give of quarter q is over: acknowledged, with this excess returned, or timed out with its whole amount. -/
def settleGive (s : State) (q n back : Nat) : State :=
  if (quarterSt s q).gives.any fun g => g.seq == n then
    updQuarter (setTokens s q (tokens s q + back)) q fun u => { u with gives := u.gives.filter fun g => g.seq != n }
  else s

/-- R424: a message of a sender of lower code that has arrived at the quarter in the same cycle. -/
def earlierMessage (s : State) (q code : Nat) : Bool :=
  s.timers.any fun t => decide (t.1 ≤ s.cyc) && t.2.ev == .tokenMessage && t.2.subj.ctx == 1 && t.2.subj.id == q && decide (t.2.subj.code < code)

/-- R422, R434: the management channels of the links are not keyed, or the package is not running. -/
def unlinked (s : State) : Bool := !s.boot.linked || s.boot.stat != 0

/-- TOKEN_MESSAGE (R422, R424): on a keyed management channel, message ref of the sender with target code code (a link 0 to 7, or a quarter) reaches quarter id; a peer's message
carries val mW.  With flag, it is the peer's acknowledgement of give ref, and returns val mW of it.  The gives that arrive in one cycle are added, in
the order of their senders, as that cycle ends (ctx 1). -/
def execTokenMessage (s : State) : Host.Outcome State Fault Refusal :=
  let q := s.subj.id
  let code := s.subj.code
  let n := s.subj.ref
  if unlinked s then .next s
  else if s.subj.flag then
    match (quarterSt s q).gives.find? (fun g => g.seq == n && decide (g.target < 8)) with
    | some g => .next (settleGive s q n (min s.subj.val g.amount))
    | none => .next s
  else if s.subj.ctx = 0 then .next (addTimer s (s.cyc + 1) ⟨.tokenMessage, { s.subj with ctx := 1 }⟩)
  else if earlierMessage s q code then .next (addTimer s s.cyc ⟨.tokenMessage, s.subj⟩)
  else if 12 ≤ code then .next s
  else if 8 ≤ code then
    match (quarterSt s (code - 8)).gives.find? (fun g => g.seq == n && g.target == 8 + q) with
    | none => .next s
    | some g =>
      let (s, back) := takeTokens s q g.amount
      .next (settleGive s (code - 8) n back)
  else if (quarterSt s q).heard.contains (code, n) then .next s
  else
    let (s, back) := takeTokens s q s.subj.val
    .next (updQuarter s q fun u =>
      { u with heard := (code, n) :: u.heard, back := if back = 0 then u.back else u.back ++ [⟨n, code, back⟩] })

/-- TOKEN_GIVE_TIMEOUT (R424): give val of quarter id was not acknowledged within 2^20 cycles. -/
def execTokenGiveTimeout (s : State) : Host.Outcome State Fault Refusal :=
  let q := s.subj.id
  match (quarterSt s q).gives.find? (fun g => g.seq == s.subj.val) with
  | some g => .next (giveRefused (settleGive s q g.seq g.amount) q)
  | none => .next s

/-! ### Holding cores -/

/-- The cores of a quarter that hold a context in use. -/
def quarterCores (s : State) (q : Nat) : List Nat :=
  ((s.ctxs.filter fun p => p.2.st != .free && quarterOf (p.1 / 4) == q).map fun p => p.1 / 4).eraseDups

/-- R15, R425, R427: the cores of a quarter go on: a ready context issues in the third cycle after. -/
def releaseCores (s : State) (q : Nat) : State :=
  if quarterHeld s q then s
  else (quarterCores s q).foldl (fun s c => updCore s c fun u => { u with selAt := max u.selAt (s.cyc + 3) }) s

/-! ### Energy -/

/-- R425: the budget of a quarter's window in 0.1 pJ: PTOK × 1.0894 nJ, less what was spent beyond the last one. -/
def energyBudget (s : State) (q : Nat) : Nat := tokens s q * 10894 - (quarterSt s q).debt

/-- The launches that hold tasks on a core. -/
def coreLaunches (s : State) (core : Nat) : List Nat :=
  (((coreKeys core).filter fun k => (ctxOf s k).task.isSome).map fun k => ctxLaunch (ctxOf s k)).eraseDups

/-- R426: the launches that cause a quarter's engines, slices, links and memory to act: they hold tasks on its cores, or saved ones with requests
there. -/
def busyLaunches (s : State) (q : Nat) : List Nat :=
  let here (p : Nat × Ctx) : Bool := quarterOf (p.1 / 4) == q && p.2.task.isSome
  let asks (p : Nat × Ctx) : Bool := here p && s.reqs.any fun r => r.key == p.1 && r.fut == futOf p.2
  (((s.ctxs.filter here) ++ s.saved.filter asks).map fun p => ctxLaunch p.2).eraseDups

/-- R426: energy charged to a launch. -/
def charge (s : State) (l n : Nat) : State := { s with joules := sins s.joules l (sget 0 s.joules l + n) }

/-- R425, R426: a core's energy of a cycle on its meter. -/
def meterCore (s : State) (core : Nat) : State :=
  let e := Config.energy s.cyc core
  let ls := coreLaunches s core
  let issued := (coreAt s core).last == s.cyc
  let l := ctxLaunch (ctxOf s (4 * core + (coreAt s core).sel))
  let s := updCore s core fun u => { u with meter :=
    { held := (u.meter.held ++ ls).eraseDups
      issues := if issued then sins u.meter.issues l (sget 0 u.meter.issues l + 1) else u.meter.issues
      busy := if issued then u.meter.busy + e else u.meter.busy
      idle := if issued then u.meter.idle else u.meter.idle + e } }
  updQuarter s (quarterOf core) fun u => { u with used := u.used + e }

/-- R425, R426: a quarter's other energy of a cycle: what each launch caused there, and what none did; its budget may now be reached. -/
def meterQuarter (s : State) (q : Nat) : State :=
  let s := (busyLaunches s q).foldl (fun s l =>
    let e := Config.energy s.cyc (2 ^ 64 + 4 * l + q)
    updQuarter (charge s l e) q fun u => { u with used := u.used + e }) s
  let e := Config.energy s.cyc (2048 + q)
  let s := updQuarter s q fun u => { u with used := u.used + e, idle := u.idle + e }
  updQuarter s q fun u => { u with spent := u.spent || decide (energyBudget s q ≤ u.used) }

/-- R425, R426: the meters of a cycle. -/
def meterCycle (s : State) : State :=
  (List.range 4).foldl meterQuarter (s.cores.foldl (fun s (c, _) => meterCore s c) s)

/-- R426: a core's window is shared among the launches whose tasks it held: the energy of issue cycles in proportion to theirs, that of other
cycles equally; a core that held none adds to PIDLE. -/
def shareCore (s : State) (core : Nat) : State :=
  let m := (coreAt s core).meter
  let total := (m.issues.map Prod.snd).foldl (· + ·) 0
  let s := updCore s core fun u => { u with meter := {} }
  if m.held.isEmpty then updQuarter s (quarterOf core) fun u => { u with idle := u.idle + m.busy + m.idle }
  else m.held.foldl (fun s l => charge s l (m.busy * sget 0 m.issues l / max 1 total + m.idle / m.held.length)) s

/-- R46, R426: the meters of a quarter's cores are read, and nrg and PIDLE follow, in microjoules. -/
def chargeEnergy (s : State) (q : Nat) : State :=
  let s := (s.cores.filter fun c => quarterOf c.1 == q).foldl (fun s (c, _) => shareCore s c) s
  setCreg { s with nrg := s.joules.map fun e => (e.1, e.2 / 10000000) } q .part 0x058 ((quarterSt s q).idle / 10000000 % 2 ^ 64)

/-- ENERGY_WINDOW (R46, R425, R426): a window of quarter id begins: what the last one spent beyond its budget comes off this one's. -/
def execEnergyWindow (s : State) : Host.Outcome State Fault Refusal :=
  let q := s.subj.id
  let s := chargeEnergy s q
  let was := (quarterSt s q).spent
  let excess := (quarterSt s q).used - energyBudget s q
  let s := updQuarter s q fun u => { u with used := 0, debt := excess }
  let s := updQuarter s q fun u => { u with spent := energyBudget s q == 0 }
  .next (if was then releaseCores s q else s)

/-! ### Clock steps -/

/-- R427: clock-step is enabled. -/
def stepOn (s : State) (q : Nat) : Bool := bitAt (creg s q .part 0x060) 0

/-- R427: cycles of a step. -/
def stepLen (s : State) (q : Nat) : Nat := fld (creg s q .part 0x060) 17 8 * 1024

/-- R413, R427: the current step number. -/
def stepNum (s : State) (q : Nat) : Nat := fld (creg s q .part 0x068) 47 0

/-- R427: the members whose markers a quarter waits for. -/
def stepLinks (s : State) (q : Nat) : List Nat := (List.range 8).filter fun i => bitAt (creg s q .part 0x060) (24 + i)

/-- R427: a step begins now: its end is timed. -/
def beginStep (s : State) (q : Nat) : State :=
  let s := updQuarter s q fun u => { u with stepAt := s.cyc, stepEnd := none }
  releaseCores (addTimer s (s.cyc + stepLen s q) ⟨.stepEnd, { id := q }⟩) q

/-- R427: all markers of an ended step have arrived: CSTEP advances and the next step begins. -/
def advanceStep (s : State) (q : Nat) : State :=
  let u := quarterSt s q
  let k := stepNum s q
  if stepOn s q && u.stepEnd.isSome && (stepLinks s q).all (fun l => u.marks.contains (l, k)) then
    let s := setCreg s q .part 0x068 (setFld (creg s q .part 0x068) 47 0 (k + 1))
    beginStep (updQuarter s q fun u => { u with marks := u.marks.filter fun m => m.2 != k }) q
  else s

/-- STEP_END (R427): the current step of quarter id has run its length: its markers are sent, and its cores are held. -/
def execStepEnd (s : State) : Host.Outcome State Fault Refusal :=
  let q := s.subj.id
  let u := quarterSt s q
  if !stepOn s q || u.stepEnd.isSome || decide (s.cyc < u.stepAt + stepLen s q) then .next s
  else
    let s := updQuarter s q fun u => { u with stepEnd := some s.cyc, told := (stepLinks s q).map fun l => (l, stepNum s q) }
    let s := addTimer s (s.cyc + 2 ^ 20) ⟨.stepMarkerTimeout, { id := q, val := stepNum s q, ref := s.cyc }⟩
    .next (advanceStep s q)

/-- STEP_MARKER (R422, R427): the marker for step val arrives on link code of quarter id, whose management channel is keyed. -/
def execStepMarker (s : State) : Host.Outcome State Fault Refusal :=
  let q := s.subj.id
  if unlinked s then .next s else .next (advanceStep (updQuarter s q fun u => { u with marks := (s.subj.code % 8, s.subj.val) :: u.marks }) q)

/-- STEP_MARKER_TIMEOUT (R427): a marker of step val, which ended in cycle ref, has not arrived at quarter id: it runs free. -/
def execStepMarkerTimeout (s : State) : Host.Outcome State Fault Refusal :=
  let q := s.subj.id
  if stepOn s q && (quarterSt s q).stepEnd == some s.subj.ref && stepNum s q == s.subj.val then
    let s := setCreg (setCreg s q .part 0x068 (setBit (creg s q .part 0x068) 48 true)) q .part 0x060 (setBit (creg s q .part 0x060) 0 false)
    .next (releaseCores (updQuarter s q fun u => { u with stepEnd := none }) q)
  else .next s

/-- R427: CSCFG of a quarter is written; a write that sets EN with S = 0 is ignored. -/
def putStepConfig (s : State) (q v : Nat) : State :=
  let v := v &&& 0xFF03FF01
  let was := stepOn s q
  if bitAt v 0 && fld v 17 8 == 0 then s
  else
    let s := setCreg s q .part 0x060 v
    if !bitAt v 0 then releaseCores (updQuarter s q fun u => { u with stepEnd := none }) q
    else if !was then beginStep s q
    else
      let at_ := max (s.cyc + 1) ((quarterSt s q).stepAt + stepLen s q)
      advanceStep (addTimer s at_ ⟨.stepEnd, { id := q }⟩) q

end Sys2Proof.Machine
end

