-- ==== Sys2Proof/Machine/Partition.lean ====
section
/-!
DEFINITION. Partitions: quiesce, flush and resume (R414, R417 to R419, R430 to R433), and writes to the windows of registers (R370, R371,
R373, R440).
-/

namespace Sys2Proof.Machine

/-! ### QCTL -/

/-- R417: QCTL of a quarter. -/
def qctl (s : State) (q : Nat) : Nat := creg s q .part 0x010

/-- The state with a bit of QCTL changed. -/
def setQctl (s : State) (q i : Nat) (b : Bool) : State := setCreg s q .part 0x010 (setBit (qctl s q) i b)

/-- R430: QACK as it stood at the start of the cycle of a write that takes effect now. -/
def ackBefore (s : State) (q : Nat) : Bool := bitAt (qctl s q) 1 && decide ((quarterSt s q).ackAt + 1 < s.cyc)

/-- QUIESCE_REQUEST (R418): QREQ of quarter id is written 1. -/
def execQuiesceRequest (s : State) : Host.Outcome State Fault Refusal :=
  let q := s.subj.id
  if quiescing s q then .next s
  else
    let s := ((List.range 16).map fun i => 16 * q + i).foldl startUnmap (setQctl s q 0 true)
    .next (eager s ⟨.quiesceComplete, { id := q }⟩)

/-- R418: nothing of the quarter is left to wait for. -/
def quarterQuiet (s : State) (q : Nat) : Bool :=
  (List.range 16).all (fun i => (slotAt s (16 * q + i)).isNone) &&
  s.ctxs.all (fun p => quarterOf (p.1 / 4) != q || p.2.st == .free) &&
  s.reqs.all (fun r => quarterOf (r.key / 4) != q) &&
  s.notices.all (fun n => (if n.chunk.isSome || n.posted then n.slice / 64 else quarterOf (n.key / 4)) != q) &&
  s.cores.all (fun p => quarterOf p.1 != q || p.2.board.all fun e => e.2.st == 0) &&
  s.pageIns.all (fun p => homeSlice s p.quarter p.ia / 64 != q) &&
  s.slices.all fun p => p.1 / 64 != q || (p.2.queue.isEmpty && p.2.run.isNone)

/-- QUIESCE_COMPLETE (R418): quarter id is quiesced once nothing of it is left; until then this step is tried again in the next cycle. -/
def execQuiesceComplete (s : State) : Host.Outcome State Fault Refusal :=
  let q := s.subj.id
  if !quiescing s q || bitAt (qctl s q) 1 then .next s
  else if quarterQuiet s q then .next (updQuarter (setQctl s q 1 true) q fun u => { u with ackAt := s.cyc })
  else .next (addTimer s (s.cyc + 1) ⟨.quiesceComplete, s.subj⟩)

/-! ### Configurations -/

/-- R414: the quarters a QSET names, if it is one a configuration may hold. -/
def qsetLegal (x : Nat) : Bool := [0b0001, 0b0010, 0b0100, 0b1000, 0b0011, 0b1100, 0b1111].contains x

/-- R414: a configuration of the four quarters, by NBR and MIL, is legal. -/
def configLegal (nbr mil : Nat → Nat) : Bool :=
  (List.range 4).all fun q =>
    let x := nbr q % 16
    x == mil q % 16 && bitAt x q && qsetLegal x &&
      (List.range 4).all fun p => !bitAt x p || (nbr p == nbr q && mil p == mil q)

/-- R414: the configuration the registers hold is legal. -/
def configOk (s : State) : Bool := configLegal (fun q => creg s q .part 0x000) (fun q => creg s q .part 0x008)

/-- R419, R430: NBR or MIL of a quarter is written: accepted while it is quiesced, or by the boot controller. -/
def putConfig (s : State) (off mask : Nat) : State :=
  let q := s.subj.id
  if s.subj.flag then
    let s := setCreg s q .part off (s.subj.val &&& mask)
    if off = 0 then updQuarter s q fun u => { u with joined := some (s.subj.val % 16) } else s
  else if ackBefore s q then setQctl (setCreg s q .part off (s.subj.val &&& mask)) q 4 false
  else s

/-- NBR_WRITE (R413, R419, R430): val is written to NBR of quarter id; flag says that the boot controller writes it. -/
def execNbrWrite (s : State) : Host.Outcome State Fault Refusal := .next (putConfig s 0x000 0xF)

/-- MIL_WRITE (R413, R419, R430): val is written to MIL of quarter id; flag says that the boot controller writes it. -/
def execMilWrite (s : State) : Host.Outcome State Fault Refusal := .next (putConfig s 0x008 0xFF0F)

/-! ### Flush -/

/-- FLUSH (R419, R430): FLUSH of quarter id is written 1. -/
def execFlush (s : State) : Host.Outcome State Fault Refusal :=
  let q := s.subj.id
  if ackBefore s q then
    .next (eager (updQuarter s q fun u => { u with flushing := true }) ⟨.flushComplete, { id := q }⟩)
  else .next s

/-- FLUSH_COMPLETE (R419, R432): nothing in quarter id holds a line or a translation. -/
def execFlushComplete (s : State) : Host.Outcome State Fault Refusal :=
  let q := s.subj.id
  if (quarterSt s q).flushing then
    let s := updQuarter s q fun u => { u with flushing := false }
    let s := setQctl (l1Flush { s with tlb := s.tlb.filter fun t => t.home / 64 != q, frames := s.frames.filter fun p => p.1 / 64 != q } q) q 4 true
    .next (eager s ⟨.resume, { id := q }⟩)
  else .next s

/-! ### Resume -/

/-- RESUME_REQUEST (R419, R430): QREQ of quarter id is written 0: the quiesce is abandoned, or a resume is asked for. -/
def execResumeRequest (s : State) : Host.Outcome State Fault Refusal :=
  let q := s.subj.id
  if !quiescing s q then .next s
  else if !ackBefore s q then .next (abandonQuiesce (setQctl s q 1 false) q false)
  else if !configOk s then .next (setQctl s q 5 true)
  else .next (eager (setQctl s q 0 false) ⟨.resume, { id := q }⟩)

/-- The quarters of a quarter's partition, in ascending order. -/
def partOf (s : State) (q : Nat) : List Nat := (List.range 4).filter fun p => bitAt (qset s q) p

/-- R371, R433: the quarter's own stacks were in force before: it was the lowest of its old partition. -/
def ledBefore (s : State) (q : Nat) : Bool :=
  let old := (quarterSt s q).joined.getD (2 ^ q)
  (List.range q).all fun p => !bitAt old p

/-- R433: the entries of a quarter's frame stack are appended to those of another. -/
def foldStack (lead q base count : Nat) (s : State) : State :=
  let n := creg s lead .xlate count
  let m := creg s q .xlate count
  let s := (List.range m).foldl (fun s i =>
    paPut s (creg s lead .xlate base + 8 * (n + i)) 8 (paNum s (creg s q .xlate base + 8 * i) 8)) s
  setCreg (setCreg s lead .xlate count ((n + m) % 2 ^ 32)) q .xlate count 0

/-- R431: a pending queue stands before another: by the cycle of its notify write, then by quarter. -/
def pendBefore (a b : Nat × Nat × Nat) : Bool := decide (a.2.2 < b.2.2) || (a.2.2 == b.2.2 && decide (a.1 ≤ b.1))

/-- RESUME (R371, R419, R431, R433): the quarters of quarter id's partition resume, where each has flushed, has QREQ 0 and holds a legal
configuration; the stacks of a quarter that joins are folded. -/
def execResume (s : State) : Host.Outcome State Fault Refusal :=
  let q := s.subj.id
  let ps := partOf s q
  if ps.all (fun p => bitAt (qctl s p) 1 && bitAt (qctl s p) 4 && !bitAt (qctl s p) 0) && configOk s then
    let lead := leadOf s q
    let others := ps.filter fun p => p != lead && ledBefore s p
    let s := others.foldl (fun s p => foldStack lead p 0x020 0x030 s) s
    let s := others.foldl (fun s p => foldStack lead p 0x028 0x034 s) s
    let s := ps.foldl (fun s p => setQctl s p 1 false) s
    let pend := (ps.flatMap fun p => (quarterSt s p).pend.map fun e => (p, e)).mergeSort pendBefore
    let s := ps.foldl (fun s p => updQuarter s p fun u => { u with pend := [], joined := some (qset s q) }) s
    let s := updQuarter s lead fun u => { u with pend := pend.map Prod.snd }
    .next (servePend s lead)
  else .next s

/-! ### Writes to control registers -/

/-- R371, R385, R408: the limit a register states for its value. -/
def limitBroken (b : CtlBlock) (off v : Nat) : Bool :=
  match b, off with
  | .sched, 0x000 | .sched, 0x048 | .xlate, 0x040 | .fault, 0x000 => v % 64 != 0
  | .sched, 0x010 | .xlate, 0x050 | .xlate, 0x068 | .fault, 0x018 => v % 32 != 0
  | .sched, 0x008 | .xlate, 0x008 => decide (65536 < v)
  | .sched, 0x018 => decide (2 ^ 20 < v)
  | .sched, 0x028 => v == 0
  | .sched, 0x040 => !((List.range 10).any fun i => v == 2 ^ (6 + i))
  | .sched, 0x050 => decide (12 < v)
  | .xlate, 0x000 => v % 512 != 0
  | .xlate, 0x010 => v % 4 != 0
  | _, _ => false

/-- R398: requests held back are written while the ring has room (fuel counts them). -/
def postAll (q : Nat) : Nat → State → State
  | 0, s => s
  | n + 1, s => if ringHasRoom s q xlateRing && s.xreqs.any (fun x => x.quarter == q && !x.posted) then postAll q n (postHeld s q) else s

/-- R411: fences lifted from cores: tasks are placed on them and teams on their clusters again. -/
def unfenced (s : State) (q first old new : Nat) : State :=
  ((List.range 64).filter fun i => bitAt old i && !bitAt new i && decide (first + i < 288)).foldl (fun s i =>
    let core := 288 * q + first + i
    let s := (coreKeys core).foldl (fun s k => if (ctxOf s k).saved then eager s ⟨.taskResume, subjOf k⟩ else s) (fillCore s core)
    addReady s ⟨.teamSwapIn, { id := clusterOf core }⟩) s

/-- R371, R440: a whole register without behaviour of its own is written. -/
def putPlain (s : State) (b : CtlBlock) (q : Nat) (r : CtlReg) (v : Nat) : State :=
  let old := creg s q b r.off
  match r.acc with
  | .hw => s
  | .w1c =>
    let new := old &&& (2 ^ r.width - 1 - v)
    let s := setCreg s q b r.off new
    if b = .fault ∧ 0x100 ≤ r.off then unfenced s q (64 * ((r.off - 0x100) / 8)) old new else s
  | .rw | .wo =>
    if limitBroken b r.off v then s
    else if b = .part ∧ r.off = 0x060 then putStepConfig s q v
    else
      let s := setCreg s q b r.off (if b = .sched ∧ r.off = 0x020 then v % 128 else v)
      if b = .xlate ∧ r.off = 0x078 then postAll q s.xreqs.length s else s

/-- R417, R419: a write to QCTL: its flags cleared, and the steps its other bits ask for. -/
def putQctl (s : State) (q v : Nat) : State × List Event :=
  let s := if bitAt v 2 then setQctl s q 2 false else s
  let s := if bitAt v 5 then setQctl s q 5 false else s
  let req := if bitAt v 0 then (if quiescing s q then [] else [Instr.quiesceRequest]) else (if quiescing s q then [Instr.resumeRequest] else [])
  (s, ((if bitAt v 3 then [Instr.flush] else []) ++ req).map fun i => ⟨i, { id := q }⟩)

/-- R440: one whole register is written, with the steps that a register of behaviour of its own asks for; boot says that the boot controller
writes it (R437). -/
def putCtl (s : State) (b : CtlBlock) (q : Nat) (boot : Bool) (r : CtlReg) (v : Nat) : State × List Event :=
  match b, r.off with
  | .part, 0x000 => (s, [⟨.nbrWrite, { id := q, val := v, flag := boot }⟩])
  | .part, 0x008 => (s, [⟨.milWrite, { id := q, val := v, flag := boot }⟩])
  | .part, 0x010 => putQctl s q v
  | .part, 0x040 => (if boot then setTokens s q v else s, [])
  | .part, 0x050 => (s, [⟨.pgive, { id := q, val := v }⟩])
  | .xlate, 0x080 => (s, [⟨.xans, { id := q, val := v, ref := creg s q .xlate 0x088 }⟩])
  | _, _ => (putPlain s b q r v, [])

/-- R440: the registers of a block that bytes from an offset cover whole, with what the bytes give them. -/
def coveredRegs (b : CtlBlock) (q off : Nat) (bs : List Byte) : List (CtlReg × Nat) :=
  ((ctlRegs b q).filter fun r => decide (off ≤ r.off) && decide (r.off + slotBytes r ≤ off + bs.length)).map fun r =>
    (r, ofBytes ((bs.drop (r.off - off)).take (slotBytes r)) % 2 ^ r.width)

/-- R440: bytes written to a block of a quarter, registers in ascending offset. -/
def writeBlock (s : State) (b : CtlBlock) (q off : Nat) (bs : List Byte) (boot : Bool) : State × List Event :=
  (coveredRegs b q off bs).foldl (fun (s, es) (r, v) => let (s, new) := putCtl s b q boot r v; (s, es ++ new)) (s, [])

/-- R385: what an atomic that read old writes from an offset of a translation block on: a count of a free-frame stack follows the pops and pushes
since. -/
def countsAfter (s : State) (q off old : Nat) (bs : List Byte) : List Byte :=
  (List.range (bs.length / 4)).flatMap fun i =>
    let o := off + 4 * i
    let v := ofBytes ((bs.drop (4 * i)).take 4)
    if o = 0x030 ∨ o = 0x034 then toBytes 4 ((v + creg s q .xlate o + 2 ^ 32 - old / 2 ^ (32 * i) % 2 ^ 32) % 2 ^ 32) else toBytes 4 v

/-! ### Slice control blocks -/

/-- R370: an offset of a slice's memories lies in the region of an enabled slot. -/
def regionTaken (s : State) (n off : Nat) : Bool :=
  (List.range 4).any fun t => tenantOn s n t &&
    let (b, z) := if off < 0x10000 then codeRegion (tenantWord s n t 0) else dataRegion (tenantWord s n t 0)
    decide (b ≤ off % 0x10000) && decide (off % 0x10000 < b + z)

/-- R328: a descriptor dword with some of its bytes written: changed, or for a write that sets EN the step that enables the slot. -/
def putDescBytes (s : State) (n i lo : Nat) (bs : List Byte) : State × List Event :=
  let old := toBytes 8 (sliceDesc s n i)
  let v := ofBytes (old.take lo ++ bs ++ old.drop (lo + bs.length))
  if i % 32 = 0 ∧ bitAt v 0 then (s, [⟨.tenantEnable, { id := n, code := i / 32, val := v }⟩]) else (putDesc s n i v, [])

/-- R328, R370: bytes written to a slice's control block (fuel counts pieces). -/
def writeSlice (n : Nat) : Nat → Nat → List Byte → State → State × List Event
  | 0, _, _, s => (s, [])
  | _, _, [], s => (s, [])
  | fuel + 1, off, b :: bs, s =>
    if off < 0x20000 then
      writeSlice n fuel (off + 1) bs (if regionTaken s n off then s else mput s (sliceAddr n off) b)
    else if off < 0x20400 then
      let m := min (bs.length + 1) (8 - off % 8)
      let (s, e) := putDescBytes s n ((off - 0x20000) / 8) (off % 8) ((b :: bs).take m)
      let (s, es) := writeSlice n fuel (off + m) ((b :: bs).drop m) s
      (s, e ++ es)
    else if off % 4 = 0 ∧ 3 ≤ bs.length then
      let v := ofBytes ((b :: bs).take 4)
      let s := if off = 0x20400 then updSlice s n fun u => { u with ovf := u.ovf &&& (2 ^ 32 - 1 - v) }
        else if off = 0x20408 then updSlice s n fun u => { u with chain := bitAt v 0 }
        else s
      writeSlice n fuel (off + 4) (bs.drop 3) s
    else writeSlice n fuel (off + 1) bs s

/-- REGISTER_WRITE (R370, R371, R373, R385, R408, R413, R434, R440): an agent of core writes data from intermediate address id of a window of
registers on, where the package runs; code 1 says that an atomic does, which read ref.  The steps that the write asks for come next, in order. -/
def execRegisterWrite (s : State) : Host.Outcome State Fault Refusal :=
  let j := s.subj
  let first (s : State) (es : List Event) : Host.Outcome State Fault Refusal :=
    .next { s with timers := (es.map fun e => (s.cyc, e)) ++ s.timers }
  if s.boot.stat ≠ 0 then .next s
  else match windowOf j.core j.id with
  | .ctl b q off =>
    let m := 0x1000 - off
    let bs := if j.code = 1 ∧ b = .xlate then countsAfter s q off j.ref (j.data.take m) else j.data.take m
    let (s, es) := writeBlock s b q off bs false
    first s (es ++ if j.data.length ≤ m then [] else [⟨.registerWrite, { j with id := j.id + m, data := j.data.drop m }⟩])
  | .slice n off =>
    let m := 0x40000 - off
    let (s, es) := writeSlice n j.data.length off (j.data.take m) s
    first s (es ++ if j.data.length ≤ m then [] else [⟨.registerWrite, { j with id := j.id + m, data := j.data.drop m }⟩])
  | .notify queue 0 =>
    if j.data.length = 8 then first s [⟨.notifyWrite, { core := j.core, id := queue, val := ofBytes (j.data.take 4) }⟩] else .next s
  | _ => .next s

end Sys2Proof.Machine
end

