-- ==== Sys2Proof/Machine/Boot.lean ====
section
/-!
DEFINITION. Bring-up (R434), signed images (R435, R436), the configuration (R437), attestation (R438) and the management commands of the
boot controller (R439).
-/

namespace Sys2Proof.Machine

/-- The state with the boot controller's record changed. -/
def updBoot (s : State) (f : Boot → Boot) : State := { s with boot := f s.boot }

/-! ### Images -/

/-- R435: the header of an image as a number. -/
def bootHeader (img : List Byte) : Nat := ofBytes (img.take 256)

/-- R435: payload bytes. -/
def payloadLen (h : Nat) : Nat := fld h 127 96

/-- R435: the payload of an image. -/
def payloadOf (img : List Byte) : List Byte := (img.drop 256).take (payloadLen (bootHeader img))

/-- R436: the key in a slot, if it holds one: a key of Byilarik that matches its digest, or an owner's key. -/
def slotKey (b : Boot) (n : Nat) : Option (List Byte) :=
  let key := sget [] (if n < 4 then b.vendor else b.owner) n
  if 8 ≤ n ∨ key.isEmpty then none
  else if n < 4 then (if shake256 key 64 = Config.romDigest n then some key else none)
  else some key

/-- R435, R436: an image of a kind passes, with its signature under the key of its slot. -/
def imagePasses (b : Boot) (kind : Nat) (img : List Byte) : Bool :=
  let h := bootHeader img
  decide (256 ≤ img.length) && img.length == 256 + payloadLen h
    && fld h 31 0 == 0x49584C50 && fld h 39 32 == kind
    && fld h 47 40 == 0 && fld h 1023 192 == 0 && fld h 2047 1936 == 0
    && payloadLen h % 16 == 0 && decide (payloadLen h ≤ 2 ^ 26)
    && (if kind = 1 then fld h 191 128 % 64 == 0 && decide (fld h 191 128 < payloadLen h) else fld h 191 128 == 0)
    && decide (sget 0 b.floors kind ≤ fld h 95 64)
    && (kind != 3 || decide (fld h 63 48 < 4)) &&
    match slotKey b (fld h 63 48) with
    | some key => ed448Verify key (img.take 128 ++ payloadOf img) ((img.drop 128).take 114)
    | none => false

/-- R434: the copy the boot controller uses of a kind: A, or B where A fails. -/
def chooseCopy (b : Boot) (kind : Nat) : Option (Nat × List Byte) :=
  ([0, 1].map fun c => (c, sget [] b.flash (2 * kind + c))).find? fun p => imagePasses b kind p.2

/-- R436: an image put to use raises the floor of its kind. -/
def raiseFloor (b : Boot) (kind : Nat) (img : List Byte) : Boot :=
  { b with floors := sins b.floors kind (fld (bootHeader img) 95 64) }

/-- R438: the measurement of an image. -/
def measure (img : List Byte) : List Byte := shake256 img 64

/-- R436: the owner's keys are loaded before step 2. -/
def loadKeys (b : Boot) : Boot :=
  match chooseCopy b 3 with
  | none => { b with owner := [] }
  | some (c, img) =>
    let p := payloadOf img
    raiseFloor { b with
      owner := [0, 1, 2, 3].map fun i => (4 + i, (p.drop (57 * i)).take 57)
      used := sins b.used 3 c, mkeys := measure img } 3 img

/-! ### Configuration -/

/-- R437: the records of a payload: intermediate address and value. -/
def configRecords (p : List Byte) : List (Nat × Nat) :=
  (List.range (p.length / 16)).map fun i => (ofBytes ((p.drop (16 * i)).take 8), ofBytes ((p.drop (16 * i + 8)).take 8))

/-- R437: the register a record addresses, if it may. -/
def recordReg (ia : Nat) : Option (CtlBlock × Nat × CtlReg) :=
  match windowOf 0 ia with
  | .ctl b q off => ((ctlRegs b q).find? fun r => r.off == off).map fun r => (b, q, r)
  | _ => none

/-- R437: one record is refused. -/
def recordRefused (r : Nat × Nat) : Bool :=
  match recordReg r.1 with
  | some (b, _, x) => limitBroken b x.off (r.2 % 2 ^ x.width) || (b == .part && x.off == 0x060 && bitAt r.2 0 && fld r.2 17 8 == 0)
  | none => r.1 != Config.pkgAddress || decide (2 ^ 16 ≤ r.2)

/-- R437: the last record of a register of the partition block gives its value. -/
def lastRecord (rs : List (Nat × Nat)) (q off dflt : Nat) : Nat :=
  match rs.reverse.find? (fun r => r.1 == 0xD00000000 + 0x1000 * q + off) with
  | some r => r.2
  | none => dflt

/-- R437: the configuration is refused, with nothing applied. -/
def recordsRefused (rs : List (Nat × Nat)) : Bool :=
  rs.any recordRefused
    || !configLegal (fun q => lastRecord rs q 0x000 (2 ^ q) &&& 0xF) (fun q => lastRecord rs q 0x008 (2 ^ q) &&& 0xFF0F)
    || decide (10000000 < ((List.range 4).map fun q => lastRecord rs q 0x040 2500000 % 2 ^ 24).foldl (· + ·) 0)

/-- What a step that a record asks for leaves. -/
def recordStep (s : State) (e : Event) : State :=
  let s := { s with subj := e.subj }
  let r := match e.ev with
    | .nbrWrite => execNbrWrite s
    | .milWrite => execMilWrite s
    | .quiesceRequest => execQuiesceRequest s
    | .resumeRequest => execResumeRequest s
    | .flush => execFlush s
    | .pgive => execPgive s
    | .xans => execXans s
    | _ => .next s
  match r with
  | .next t => t
  | _ => s

/-- R437: one record is applied, with the steps it asks for. -/
def applyRecord (s : State) (r : Nat × Nat) : State :=
  match recordReg r.1 with
  | some (b, q, x) => let (s, es) := putCtl s b q true x (r.2 % 2 ^ x.width); es.foldl recordStep s
  | none => { s with pkg := r.2 % 2 ^ 16 }

/-- R437: the records are applied in list order. -/
def applyRecords (s : State) (rs : List (Nat × Nat)) : State := rs.foldl applyRecord s

/-! ### Bring-up -/

/-- R434: the firmware's payload lies in core 0's scratchpad, where range register 0 maps virtual addresses from 0x10000 on; context c0 starts at its ENTRY
at PL 2. -/
def startFirmware (s : State) (img : List Byte) : State :=
  let s := mputs s (spAddr 0 0) ((payloadOf img).take (spSize s 0))
  let c : Ctx := { pc := BitVec.ofNat 64 (0x10000 + fld (bootHeader img) 191 128), pl := 2, task := some {}
                   rregs := [(0, ⟨0x1000F, 0x1F⟩)] }
  let s := putCtx s 0 { c with mark := markOf c }
  makeReady (updCore s 0 fun u => { u with gated := true }) 0

/-- POWER_GOOD (R422, R434 to R437): all four domains report power good, and bring-up runs; flag says that training failed in step 4, before the
management channels are keyed. -/
def execPowerGood (s : State) : Host.Outcome State Fault Refusal :=
  if s.boot.stat ≠ 1 then .next s
  else
    let s := updBoot s loadKeys
    match chooseCopy s.boot 1 with
    | none => .next (updBoot s fun b => { b with stat := 2 })
    | some (cf, fw) =>
      let s := updBoot s fun b => { b with used := sins b.used 1 cf, mfw := measure fw, svnf := fld (bootHeader fw) 95 64 }
      match chooseCopy s.boot 2 with
      | none => .next (updBoot s fun b => { b with stat := 3 })
      | some (cc, cfg) =>
        let s := updBoot s fun b => { b with used := sins b.used 2 cc, mcfg := measure cfg, svnc := fld (bootHeader cfg) 95 64 }
        let rs := configRecords (payloadOf cfg)
        let s := updBoot s fun b => { b with linked := !s.subj.flag }
        if s.subj.flag || recordsRefused rs then .next (updBoot s fun b => { b with stat := 4 })
        else
          let s := applyRecords s rs
          let s := updBoot s fun b => { raiseFloor (raiseFloor b 2 cfg) 1 fw with stat := 0 }
          .next (startFirmware s fw)

/-! ### Management -/

/-- R439: a management command is answered. -/
def replyWith (s : State) (code : Nat) (bs : List Byte) : State := updBoot s fun b => { b with answer := some (code, bs) }

/-- GET_STATUS (R439). -/
def execGetStatus (s : State) : Host.Outcome State Fault Refusal := .next (replyWith s 1 [BitVec.ofNat 8 s.boot.stat])

/-- The first n bytes of a list, with zeros after its end. -/
def padTo (n : Nat) (bs : List Byte) : List Byte := (bs ++ List.replicate n (0 : Byte)).take n

/-- R438: the signed part of a report. -/
def reportBody (s : State) (nonce : List Byte) : List Byte :=
  let b := s.boot
  padTo 32 nonce ++ padTo 64 b.mfw ++ padTo 64 b.mcfg ++ toBytes 4 b.svnf ++ toBytes 4 b.svnc ++ toBytes 2 s.pkg ++ toBytes 1 b.stat
    ++ List.replicate 85 (0 : Byte)

/-- GET_REPORT (R438, R439): data is the nonce. -/
def execGetReport (s : State) : Host.Outcome State Fault Refusal :=
  let body := reportBody s s.subj.data
  .next (replyWith s 2 (body ++ ed448Sign ((List.range 57).map Config.identityKey) body))

/-- R439: the copy of a kind not used at the last bring-up; where that used neither, either is free. -/
def spareCopy (s : State) (kind : Nat) : Nat :=
  match s.boot.used.find? (fun e => e.1 == kind) with
  | some (_, c) => 1 - c
  | none => Config.pick s.fresh % 2

/-- LOAD_IMAGE (R436, R439): data is written to the copy not in use, where it passes. -/
def execLoadImage (s : State) : Host.Outcome State Fault Refusal :=
  let img := s.subj.data
  let kind := fld (bootHeader img) 39 32
  let s := replyWith s 3 []
  if 1 ≤ kind && decide (kind ≤ 3) && imagePasses s.boot kind img then
    .next (updBoot s fun b => { b with flash := sins b.flash (2 * kind + spareCopy s kind) img })
  else .next s

/-- RESET (R434, R439): the package is reset; boot flash and its floors stay, and so does which copies the last bring-up used. -/
def execReset (s : State) : Host.Outcome State Fault Refusal :=
  let s := replyWith s 4 []
  .next { State.reset with
    fresh := s.fresh, schedule := s.schedule
    boot := { flash := s.boot.flash, floors := s.boot.floors, used := s.boot.used, vendor := s.boot.vendor, eid := s.boot.eid, answer := s.boot.answer } }

/-- MCTP_CONTROL_MESSAGE (R439): a control message is answered; with flag, the bus owner assigns endpoint ID val. -/
def execMctpControlMessage (s : State) : Host.Outcome State Fault Refusal :=
  let s := replyWith s 0 []
  .next (if s.subj.flag then updBoot s fun b => { b with eid := s.subj.val % 256 } else s)

end Sys2Proof.Machine
end

