-- ==== Sys2Proof/Machine/Accept.lean ====
section
/-!
DEFINITION. The acceptance of requests by their agents (R236, R259).
-/

namespace Sys2Proof.Machine

/-- R236, R259: what an agent does with a request as it accepts it. -/
def acceptReq (s : State) (r : Req) : State :=
  match r.ins, r.job with
  | .note .., _ => acceptNote s r
  | .decl .., _ => acceptDecl s r
  | .wdraw .., _ => acceptWdraw s r
  | .pull _ _ _ last, _ => acceptPull s r false last
  | .pulladd _ _ _ last, _ => acceptPull s r true last
  | .pullRank .., _ => acceptRank s r
  | .rroot .., .tree t => acceptRroot s r t
  | .rcont .., _ => acceptRcont s r
  | .agload .., _ => acceptAgload s r
  | .agrel .., _ => acceptAgrel s r
  | .agrun .., _ => acceptAgrun s r
  | .rget .., _ | .rput .., _ | .rflush .., _ => acceptRemote s r
  | .copy .., .copy c | .copyc .., .copy c => acceptCopy s r c
  | .swset _ _ _ _ g, _ => acceptSwset s r g
  | .swadd .., _ => acceptSwadd s r
  | .swrd d _ _ hi, _ => acceptSwrd s r d hi
  | .rtrd d a, _ => acceptRtrd s r d a
  | .spawn d _ _ ar, _ => acceptSpawn s r d ar
  | .fref d _, _ => acceptFref s r d
  | .fdrop d _, _ => acceptFdrop s r d
  | .fstat d _, _ => acceptFstat s r d
  | .fset d _, _ => acceptFset s r d
  | .ssnap .., _ | .sroll .., _ | .sfork .., _ | .sld .., _ | .sst .., _ | .sdrop .., _ => acceptState s r
  | .kvst d _ _, _ => acceptKvst s r d
  | .kvnx .., _ => acceptKvnx s r false
  | .kvnxEnd .., _ => acceptKvnx s r true
  | .hmsg _ _ _ _ code, _ => acceptHmsg s r code.toNat
  | .ctxsave .., _ => acceptCtxsave s r
  | .ctxload .., _ => acceptCtxload s r
  | .ckey .., _ => acceptCkey s r
  | .qmap .., _ => acceptQmap s r
  | .qunmap .., _ => acceptQunmap s r
  | .qkick .., _ => acceptQkick s r
  | _, _ => dropReq s r

/-- ENGINE_ACCEPTANCE (R236, R259, R401): request id is accepted by its agent, which makes its checks; the after-mark of its bundle may
complete. -/
def execEngineAcceptance (s : State) : Host.Outcome State Fault Refusal :=
  match reqOf s s.subj.id with
  | none => .next s
  | some r =>
    if r.accepted then .next s
    else
      let r := { r with accepted := true, acc := s.nextId, accAt := s.cyc }
      let s := acceptReq (putReq { s with nextId := s.nextId + 1 } r) r
      .next (addReady { s with iss := {} } ⟨.afterMark, subjOf r.key⟩)

end Sys2Proof.Machine
end

