-- ==== Sys2Proof/Machine/Dispatch.lean ====
section
/-!
DEFINITION. One arm for each constructor of Instr.
-/

namespace Sys2Proof.Machine

def exec (i : Instr) (s : State) : Host.Outcome State Fault Refusal :=
  match i with
  | .bundleIssue => Sys2Proof.Machine.execBundleIssue s
  | .reissue => Sys2Proof.Machine.execReissue s
  | .slipEntryExecute => Sys2Proof.Machine.execSlipEntryExecute s
  | .resultLand => Sys2Proof.Machine.execResultLand s
  | .scoreboardLand => Sys2Proof.Machine.execScoreboardLand s
  | .afterMark => Sys2Proof.Machine.execAfterMark s
  | .taskStart => Sys2Proof.Machine.execTaskStart s
  | .taskComplete => Sys2Proof.Machine.execTaskComplete s
  | .teamSliceEnd => Sys2Proof.Machine.execTeamSliceEnd s
  | .teamSwapIn => Sys2Proof.Machine.execTeamSwapIn s
  | .stealRequest => Sys2Proof.Machine.execStealRequest s
  | .stealAnswer => Sys2Proof.Machine.execStealAnswer s
  | .stealBackoffExpiry => Sys2Proof.Machine.execStealBackoffExpiry s
  | .stolenTaskArrival => Sys2Proof.Machine.execStolenTaskArrival s
  | .reclaimStop => Sys2Proof.Machine.execReclaimStop s
  | .pinLimitExpiry => Sys2Proof.Machine.execPinLimitExpiry s
  | .watchdogExpiry => Sys2Proof.Machine.execWatchdogExpiry s
  | .yieldDeadlineExpiry => Sys2Proof.Machine.execYieldDeadlineExpiry s
  | .taskResume => Sys2Proof.Machine.execTaskResume s
  | .bankFormatTakesEffect => Sys2Proof.Machine.execBankFormatTakesEffect s
  | .passStart => Sys2Proof.Machine.execPassStart s
  | .kBlockIssue => Sys2Proof.Machine.execKBlockIssue s
  | .kBlockFold => Sys2Proof.Machine.execKBlockFold s
  | .passSuspend => Sys2Proof.Machine.execPassSuspend s
  | .passFaultServed => Sys2Proof.Machine.execPassFaultServed s
  | .passAbandon => Sys2Proof.Machine.execPassAbandon s
  | .pageFaultReport => Sys2Proof.Machine.execPageFaultReport s
  | .trapDelivery => Sys2Proof.Machine.execTrapDelivery s
  | .uncorrectableError => Sys2Proof.Machine.execUncorrectableError s
  | .engineAcceptance => Sys2Proof.Machine.execEngineAcceptance s
  | .noticeOffer => Sys2Proof.Machine.execNoticeOffer s
  | .rankedAdmission => Sys2Proof.Machine.execRankedAdmission s
  | .pacingWindowStart => Sys2Proof.Machine.execPacingWindowStart s
  | .pullRequestIssue => Sys2Proof.Machine.execPullRequestIssue s
  | .flitLanding => Sys2Proof.Machine.execFlitLanding s
  | .noticeTimeout => Sys2Proof.Machine.execNoticeTimeout s
  | .treeContribution => Sys2Proof.Machine.execTreeContribution s
  | .treeClose => Sys2Proof.Machine.execTreeClose s
  | .treeResultLand => Sys2Proof.Machine.execTreeResultLand s
  | .graphNodeComplete => Sys2Proof.Machine.execGraphNodeComplete s
  | .chunkTileCount => Sys2Proof.Machine.execChunkTileCount s
  | .barkerPublish => Sys2Proof.Machine.execBarkerPublish s
  | .copyChunk => Sys2Proof.Machine.execCopyChunk s
  | .remoteRequest => Sys2Proof.Machine.execRemoteRequest s
  | .frameReceive => Sys2Proof.Machine.execFrameReceive s
  | .linkFrameLoss => Sys2Proof.Machine.execLinkFrameLoss s
  | .pageInComplete => Sys2Proof.Machine.execPageInComplete s
  | .chainWalkStep => Sys2Proof.Machine.execChainWalkStep s
  | .stateOpComplete => Sys2Proof.Machine.execStateOpComplete s
  | .missTrigger => Sys2Proof.Machine.execMissTrigger s
  | .fillTrigger => Sys2Proof.Machine.execFillTrigger s
  | .evictionTrigger => Sys2Proof.Machine.execEvictionTrigger s
  | .chainStepTrigger => Sys2Proof.Machine.execChainStepTrigger s
  | .handlerInvocationStart => Sys2Proof.Machine.execHandlerInvocationStart s
  | .handlerEcall => Sys2Proof.Machine.execHandlerEcall s
  | .handlerAbort => Sys2Proof.Machine.execHandlerAbort s
  | .handlerTimeLimit => Sys2Proof.Machine.execHandlerTimeLimit s
  | .prefetchCommand => Sys2Proof.Machine.execPrefetchCommand s
  | .fillCommand => Sys2Proof.Machine.execFillCommand s
  | .postNotice => Sys2Proof.Machine.execPostNotice s
  | .pageInCommand => Sys2Proof.Machine.execPageInCommand s
  | .notifyWrite => Sys2Proof.Machine.execNotifyWrite s
  | .entryAdmission => Sys2Proof.Machine.execEntryAdmission s
  | .launchComplete => Sys2Proof.Machine.execLaunchComplete s
  | .unmapTimeout => Sys2Proof.Machine.execUnmapTimeout s
  | .translationWalk => Sys2Proof.Machine.execTranslationWalk s
  | .xans => Sys2Proof.Machine.execXans s
  | .shootComplete => Sys2Proof.Machine.execShootComplete s
  | .xlatTimeout => Sys2Proof.Machine.execXlatTimeout s
  | .quiesceRequest => Sys2Proof.Machine.execQuiesceRequest s
  | .quiesceComplete => Sys2Proof.Machine.execQuiesceComplete s
  | .resumeRequest => Sys2Proof.Machine.execResumeRequest s
  | .flush => Sys2Proof.Machine.execFlush s
  | .flushComplete => Sys2Proof.Machine.execFlushComplete s
  | .resume => Sys2Proof.Machine.execResume s
  | .nbrWrite => Sys2Proof.Machine.execNbrWrite s
  | .milWrite => Sys2Proof.Machine.execMilWrite s
  | .pgive => Sys2Proof.Machine.execPgive s
  | .tokenMessage => Sys2Proof.Machine.execTokenMessage s
  | .tokenGiveTimeout => Sys2Proof.Machine.execTokenGiveTimeout s
  | .energyWindow => Sys2Proof.Machine.execEnergyWindow s
  | .stepEnd => Sys2Proof.Machine.execStepEnd s
  | .stepMarker => Sys2Proof.Machine.execStepMarker s
  | .stepMarkerTimeout => Sys2Proof.Machine.execStepMarkerTimeout s
  | .tenantEnable => Sys2Proof.Machine.execTenantEnable s
  | .registerWrite => Sys2Proof.Machine.execRegisterWrite s
  | .powerGood => Sys2Proof.Machine.execPowerGood s
  | .getStatus => Sys2Proof.Machine.execGetStatus s
  | .getReport => Sys2Proof.Machine.execGetReport s
  | .loadImage => Sys2Proof.Machine.execLoadImage s
  | .reset => Sys2Proof.Machine.execReset s
  | .nop => Sys2Proof.Machine.execNop s
  | .hint => Sys2Proof.Machine.execHint s
  | .br off => Sys2Proof.Machine.execBr off s
  | .brr a off => Sys2Proof.Machine.execBrr a off s
  | .call a off => Sys2Proof.Machine.execCall a off s
  | .callr a b off => Sys2Proof.Machine.execCallr a b off s
  | .ret a => Sys2Proof.Machine.execRet a s
  | .btab a b off => Sys2Proof.Machine.execBtab a b off s
  | .beq a b off => Sys2Proof.Machine.execBeq a b off s
  | .bne a b off => Sys2Proof.Machine.execBne a b off s
  | .blt a b off => Sys2Proof.Machine.execBlt a b off s
  | .bge a b off => Sys2Proof.Machine.execBge a b off s
  | .bltu a b off => Sys2Proof.Machine.execBltu a b off s
  | .bgeu a b off => Sys2Proof.Machine.execBgeu a b off s
  | .loopn n bl => Sys2Proof.Machine.execLoopn n bl s
  | .loopx n => Sys2Proof.Machine.execLoopx n s
  | .waitG a b sw => Sys2Proof.Machine.execWaitG a b sw s
  | .waitT a sw => Sys2Proof.Machine.execWaitT a sw s
  | .waitr entries => Sys2Proof.Machine.execWaitr entries s
  | .waits => Sys2Proof.Machine.execWaits s
  | .yield => Sys2Proof.Machine.execYield s
  | .ychk => Sys2Proof.Machine.execYchk s
  | .mark => Sys2Proof.Machine.execMark s
  | .xabort d a imm => Sys2Proof.Machine.execXabort d a imm s
  | .trap a imm => Sys2Proof.Machine.execTrap a imm s
  | .done => Sys2Proof.Machine.execDone s
  | .isync => Sys2Proof.Machine.execIsync s
  | .pret => Sys2Proof.Machine.execPret s
  | .rngr d a w => Sys2Proof.Machine.execRngr d a w s
  | .rngw a b c => Sys2Proof.Machine.execRngw a b c s
  | .ppwset a => Sys2Proof.Machine.execPpwset a s
  | .ctxsave a b sw => Sys2Proof.Machine.execCtxsave a b sw s
  | .ctxload a b sw h => Sys2Proof.Machine.execCtxload a b sw h s
  | .shoot a b c all => Sys2Proof.Machine.execShoot a b c all s
  | .halt => Sys2Proof.Machine.execHalt s
  | .wdset a sel imm => Sys2Proof.Machine.execWdset a sel imm s
  | .add d a b => Sys2Proof.Machine.execAdd d a b s
  | .sub d a b => Sys2Proof.Machine.execSub d a b s
  | .and d a b => Sys2Proof.Machine.execAnd d a b s
  | .or d a b => Sys2Proof.Machine.execOr d a b s
  | .xor d a b => Sys2Proof.Machine.execXor d a b s
  | .andn d a b => Sys2Proof.Machine.execAndn d a b s
  | .shl d a b => Sys2Proof.Machine.execShl d a b s
  | .shr d a b => Sys2Proof.Machine.execShr d a b s
  | .sra d a b => Sys2Proof.Machine.execSra d a b s
  | .rol d a b => Sys2Proof.Machine.execRol d a b s
  | .ror d a b => Sys2Proof.Machine.execRor d a b s
  | .min d a b => Sys2Proof.Machine.execMin d a b s
  | .max d a b => Sys2Proof.Machine.execMax d a b s
  | .minu d a b => Sys2Proof.Machine.execMinu d a b s
  | .maxu d a b => Sys2Proof.Machine.execMaxu d a b s
  | .clz d a => Sys2Proof.Machine.execClz d a s
  | .ctz d a => Sys2Proof.Machine.execCtz d a s
  | .popc d a => Sys2Proof.Machine.execPopc d a s
  | .bswap d a => Sys2Proof.Machine.execBswap d a s
  | .sext d a p => Sys2Proof.Machine.execSext d a p s
  | .zext d a p => Sys2Proof.Machine.execZext d a p s
  | .bfx d a b sg => Sys2Proof.Machine.execBfx d a b sg s
  | .bfi d a b c => Sys2Proof.Machine.execBfi d a b c s
  | .cmp d a b cc => Sys2Proof.Machine.execCmp d a b cc s
  | .sel d a b c => Sys2Proof.Machine.execSel d a b c s
  | .lea d a b sh => Sys2Proof.Machine.execLea d a b sh s
  | .fland d a b inv => Sys2Proof.Machine.execFland d a b inv s
  | .flor d a b inv => Sys2Proof.Machine.execFlor d a b inv s
  | .flxor d a b inv => Sys2Proof.Machine.execFlxor d a b inv s
  | .addi d a imm => Sys2Proof.Machine.execAddi d a imm s
  | .andi d a imm => Sys2Proof.Machine.execAndi d a imm s
  | .ori d a imm => Sys2Proof.Machine.execOri d a imm s
  | .xori d a imm => Sys2Proof.Machine.execXori d a imm s
  | .shli d a imm => Sys2Proof.Machine.execShli d a imm s
  | .shri d a imm => Sys2Proof.Machine.execShri d a imm s
  | .srai d a imm => Sys2Proof.Machine.execSrai d a imm s
  | .cmpi d a cc imm => Sys2Proof.Machine.execCmpi d a cc imm s
  | .movi d imm => Sys2Proof.Machine.execMovi d imm s
  | .movhi d imm => Sys2Proof.Machine.execMovhi d imm s
  | .mul d a b => Sys2Proof.Machine.execMul d a b s
  | .mulh d a b => Sys2Proof.Machine.execMulh d a b s
  | .mulhu d a b => Sys2Proof.Machine.execMulhu d a b s
  | .rdsp d sp => Sys2Proof.Machine.execRdsp d sp s
  | .lcrd d a => Sys2Proof.Machine.execLcrd d a s
  | .lcwr d a => Sys2Proof.Machine.execLcwr d a s
  | .nrd d a w => Sys2Proof.Machine.execNrd d a w s
  | .nwr d a w => Sys2Proof.Machine.execNwr d a w s
  | .fadd d a b ff => Sys2Proof.Machine.execFadd d a b ff s
  | .fsub d a b ff => Sys2Proof.Machine.execFsub d a b ff s
  | .fmul d a b ff => Sys2Proof.Machine.execFmul d a b ff s
  | .fmin d a b ff => Sys2Proof.Machine.execFmin d a b ff s
  | .fmax d a b ff => Sys2Proof.Machine.execFmax d a b ff s
  | .fcpys d a b ff => Sys2Proof.Machine.execFcpys d a b ff s
  | .fma d a b c ff => Sys2Proof.Machine.execFma d a b c ff s
  | .fms d a b c ff => Sys2Proof.Machine.execFms d a b c ff s
  | .fnma d a b c ff => Sys2Proof.Machine.execFnma d a b c ff s
  | .fabs d a ff => Sys2Proof.Machine.execFabs d a ff s
  | .fneg d a ff => Sys2Proof.Machine.execFneg d a ff s
  | .fclass d a ff => Sys2Proof.Machine.execFclass d a ff s
  | .fsqrt d a ff => Sys2Proof.Machine.execFsqrt d a ff s
  | .frcp d a ff => Sys2Proof.Machine.execFrcp d a ff s
  | .frsq d a ff => Sys2Proof.Machine.execFrsq d a ff s
  | .fcmp d a b cc ff => Sys2Proof.Machine.execFcmp d a b cc ff s
  | .fcvt d a dst src => Sys2Proof.Machine.execFcvt d a dst src s
  | .ftoi d a u rm ff => Sys2Proof.Machine.execFtoi d a u rm ff s
  | .itof d a u ff => Sys2Proof.Machine.execItof d a u ff s
  | .frnd d a rm ff => Sys2Proof.Machine.execFrnd d a rm ff s
  | .sysr d reg => Sys2Proof.Machine.execSysr d reg s
  | .sysw a reg => Sys2Proof.Machine.execSysw a reg s
  | .vadd d a b k w => Sys2Proof.Machine.execVadd d a b k w s
  | .vsub d a b k w => Sys2Proof.Machine.execVsub d a b k w s
  | .vmul d a b k w => Sys2Proof.Machine.execVmul d a b k w s
  | .vmulh d a b k u w => Sys2Proof.Machine.execVmulh d a b k u w s
  | .vand d a b k w => Sys2Proof.Machine.execVand d a b k w s
  | .vor d a b k w => Sys2Proof.Machine.execVor d a b k w s
  | .vxor d a b k w => Sys2Proof.Machine.execVxor d a b k w s
  | .vshl d a b k w => Sys2Proof.Machine.execVshl d a b k w s
  | .vshr d a b k w => Sys2Proof.Machine.execVshr d a b k w s
  | .vsra d a b k w => Sys2Proof.Machine.execVsra d a b k w s
  | .vmin d a b k w => Sys2Proof.Machine.execVmin d a b k w s
  | .vmax d a b k w => Sys2Proof.Machine.execVmax d a b k w s
  | .vminu d a b k w => Sys2Proof.Machine.execVminu d a b k w s
  | .vmaxu d a b k w => Sys2Proof.Machine.execVmaxu d a b k w s
  | .vabs d a k w => Sys2Proof.Machine.execVabs d a k w s
  | .vadds d a b k u w => Sys2Proof.Machine.execVadds d a b k u w s
  | .vsubs d a b k u w => Sys2Proof.Machine.execVsubs d a b k u w s
  | .vaddi d a k w imm => Sys2Proof.Machine.execVaddi d a k w imm s
  | .vshli d a k w imm => Sys2Proof.Machine.execVshli d a k w imm s
  | .vshri d a k w imm => Sys2Proof.Machine.execVshri d a k w imm s
  | .vsrai d a k w imm => Sys2Proof.Machine.execVsrai d a k w imm s
  | .vmovi d k w imm => Sys2Proof.Machine.execVmovi d k w imm s
  | .vbcast d a k w => Sys2Proof.Machine.execVbcast d a k w s
  | .vfadd d a b k => Sys2Proof.Machine.execVfadd d a b k s
  | .vfsub d a b k => Sys2Proof.Machine.execVfsub d a b k s
  | .vfmul d a b k => Sys2Proof.Machine.execVfmul d a b k s
  | .vfmin d a b k => Sys2Proof.Machine.execVfmin d a b k s
  | .vfmax d a b k => Sys2Proof.Machine.execVfmax d a b k s
  | .vfma d a b c k => Sys2Proof.Machine.execVfma d a b c k s
  | .vfms d a b c k => Sys2Proof.Machine.execVfms d a b c k s
  | .vfabs d a k => Sys2Proof.Machine.execVfabs d a k s
  | .vfneg d a k => Sys2Proof.Machine.execVfneg d a k s
  | .vfrcp d a k => Sys2Proof.Machine.execVfrcp d a k s
  | .vfrsq d a k => Sys2Proof.Machine.execVfrsq d a k s
  | .vfexp d a k => Sys2Proof.Machine.execVfexp d a k s
  | .vcvt d a k dst src => Sys2Proof.Machine.execVcvt d a k dst src s
  | .vpack d a k s32 part dst => Sys2Proof.Machine.execVpack d a k s32 part dst s
  | .vunpk d a k part src => Sys2Proof.Machine.execVunpk d a k part src s
  | .vcmp d a b k cc => Sys2Proof.Machine.execVcmp d a b k cc s
  | .vfcmp d a b k cc => Sys2Proof.Machine.execVfcmp d a b k cc s
  | .vnf d a k t => Sys2Proof.Machine.execVnf d a k t s
  | .vnfq d a b k q t => Sys2Proof.Machine.execVnfq d a b k q t s
  | .mand d a b inv => Sys2Proof.Machine.execMand d a b inv s
  | .mor d a b inv => Sys2Proof.Machine.execMor d a b inv s
  | .mxor d a b inv => Sys2Proof.Machine.execMxor d a b inv s
  | .mnot d a => Sys2Proof.Machine.execMnot d a s
  | .mpop d a k => Sys2Proof.Machine.execMpop d a k s
  | .many d a k all => Sys2Proof.Machine.execMany d a k all s
  | .vperm d a b k => Sys2Proof.Machine.execVperm d a b k s
  | .vshuf d a b k pat => Sys2Proof.Machine.execVshuf d a b k pat s
  | .vrot d a b k z => Sys2Proof.Machine.execVrot d a b k z s
  | .vsel d a b c k => Sys2Proof.Machine.execVsel d a b c k s
  | .vext d a b sg => Sys2Proof.Machine.execVext d a b sg s
  | .vins d a b => Sys2Proof.Machine.execVins d a b s
  | .vradd d a k u w => Sys2Proof.Machine.execVradd d a k u w s
  | .vrmin d a k u w => Sys2Proof.Machine.execVrmin d a k u w s
  | .vrmax d a k u w => Sys2Proof.Machine.execVrmax d a k u w s
  | .vrfadd d a k seq => Sys2Proof.Machine.execVrfadd d a k seq s
  | .vrfmin d a k => Sys2Proof.Machine.execVrfmin d a k s
  | .vrfmax d a k => Sys2Proof.Machine.execVrfmax d a k s
  | .mma q aa as ba bs fmt kb z wb wa => Sys2Proof.Machine.execMma q aa as ba bs fmt kb z wb wa s
  | .scx d a => Sys2Proof.Machine.execScx d a s
  | .mdrn a b c p w fmt => Sys2Proof.Machine.execMdrn a b c p w fmt s
  | .mdrnb d a b c p w fmt => Sys2Proof.Machine.execMdrnb d a b c p w fmt s
  | .mzero d p => Sys2Proof.Machine.execMzero d p s
  | .mmov d a p => Sys2Proof.Machine.execMmov d a p s
  | .mtrn d a p => Sys2Proof.Machine.execMtrn d a p s
  | .mwrv d a k h => Sys2Proof.Machine.execMwrv d a k h s
  | .mrdv d a k h => Sys2Proof.Machine.execMrdv d a k h s
  | .mpset a => Sys2Proof.Machine.execMpset a s
  | .mcset a => Sys2Proof.Machine.execMcset a s
  | .mrpwr a => Sys2Proof.Machine.execMrpwr a s
  | .msrd d sp => Sys2Proof.Machine.execMsrd d sp s
  | .mqwait a all => Sys2Proof.Machine.execMqwait a all s
  | .ld t a sz w off => Sys2Proof.Machine.execLd t a sz w off s
  | .ldx d a b w sz => Sys2Proof.Machine.execLdx d a b w sz s
  | .st t a sz w off => Sys2Proof.Machine.execSt t a sz w off s
  | .stx d a b w sz => Sys2Proof.Machine.execStx d a b w sz s
  | .sti d a w sz imm => Sys2Proof.Machine.execSti d a w sz imm s
  | .vld t a k w off => Sys2Proof.Machine.execVld t a k w off s
  | .vst t a k w off => Sys2Proof.Machine.execVst t a k w off s
  | .vlds d a b k w => Sys2Proof.Machine.execVlds d a b k w s
  | .vsts d a b k w => Sys2Proof.Machine.execVsts d a b k w s
  | .vgth d a b k w sh => Sys2Proof.Machine.execVgth d a b k w sh s
  | .vsct d a b k w sh => Sys2Proof.Machine.execVsct d a b k w sh s
  | .vldb t a k sz w off => Sys2Proof.Machine.execVldb t a k sz w off s
  | .qld t a p w off => Sys2Proof.Machine.execQld t a p w off s
  | .qst t a p w off => Sys2Proof.Machine.execQst t a p w off s
  | .amo d a b sc ord sz op => Sys2Proof.Machine.execAmo d a b sc ord sz op s
  | .cas d a b c ord sz sc => Sys2Proof.Machine.execCas d a b c ord sz sc s
  | .vamo d a b sc k ord x op => Sys2Proof.Machine.execVamo d a b sc k ord x op s
  | .ald t a sz sc ord off => Sys2Proof.Machine.execAld t a sz sc ord off s
  | .xlat t a pi off => Sys2Proof.Machine.execXlat t a pi off s
  | .drain sc => Sys2Proof.Machine.execDrain sc s
  | .mcast t a k off => Sys2Proof.Machine.execMcast t a k off s
  | .pref => Sys2Proof.Machine.execPref s
  | .prefw => Sys2Proof.Machine.execPrefw s
  | .bfmt a code imm => Sys2Proof.Machine.execBfmt a code imm s
  | .ldt t a sz f off => Sys2Proof.Machine.execLdt t a sz f off s
  | .vldt t a k f off => Sys2Proof.Machine.execVldt t a k f off s
  | .note a sw v => Sys2Proof.Machine.execNote a sw v s
  | .pull a b sw last => Sys2Proof.Machine.execPull a b sw last s
  | .pullRank b sw => Sys2Proof.Machine.execPullRank b sw s
  | .pulladd a b sw last => Sys2Proof.Machine.execPulladd a b sw last s
  | .decl b => Sys2Proof.Machine.execDecl b s
  | .wdraw b => Sys2Proof.Machine.execWdraw b s
  | .nbrd d a w => Sys2Proof.Machine.execNbrd d a w s
  | .nbcnt d sel => Sys2Proof.Machine.execNbcnt d sel s
  | .nbfind d a b any => Sys2Proof.Machine.execNbfind d a b any s
  | .pwinSet a b => Sys2Proof.Machine.execPwinSet a b s
  | .pwinReset => Sys2Proof.Machine.execPwinReset s
  | .rkset a => Sys2Proof.Machine.execRkset a s
  | .ngrpNew d a b => Sys2Proof.Machine.execNgrpNew d a b s
  | .ngrpFree d a => Sys2Proof.Machine.execNgrpFree d a s
  | .rcont a b sw => Sys2Proof.Machine.execRcont a b sw s
  | .rroot a b sw => Sys2Proof.Machine.execRroot a b sw s
  | .agload a b sw => Sys2Proof.Machine.execAgload a b sw s
  | .agrel a => Sys2Proof.Machine.execAgrel a s
  | .agrun a b sw => Sys2Proof.Machine.execAgrun a b sw s
  | .agwait b => Sys2Proof.Machine.execAgwait b s
  | .rget d a b sw => Sys2Proof.Machine.execRget d a b sw s
  | .rput d a b sw v => Sys2Proof.Machine.execRput d a b sw v s
  | .rflush b sw => Sys2Proof.Machine.execRflush b sw s
  | .xstat d sel => Sys2Proof.Machine.execXstat d sel s
  | .ckey a b sw => Sys2Proof.Machine.execCkey a b sw s
  | .copy a b sw ws wd n => Sys2Proof.Machine.execCopy a b sw ws wd n s
  | .copyc a b sw wd n => Sys2Proof.Machine.execCopyc a b sw wd n s
  | .spawn d a b ar => Sys2Proof.Machine.execSpawn d a b ar s
  | .fref d a => Sys2Proof.Machine.execFref d a s
  | .fdrop d a => Sys2Proof.Machine.execFdrop d a s
  | .fset d a => Sys2Proof.Machine.execFset d a s
  | .fstat d a => Sys2Proof.Machine.execFstat d a s
  | .fawait d a c => Sys2Proof.Machine.execFawait d a c s
  | .fpin => Sys2Proof.Machine.execFpin s
  | .funpin => Sys2Proof.Machine.execFunpin s
  | .ssnap d a b => Sys2Proof.Machine.execSsnap d a b s
  | .sroll d a b => Sys2Proof.Machine.execSroll d a b s
  | .sfork d a b => Sys2Proof.Machine.execSfork d a b s
  | .sld d a b sw => Sys2Proof.Machine.execSld d a b sw s
  | .sst d a b sw => Sys2Proof.Machine.execSst d a b sw s
  | .sdrop d a b sq => Sys2Proof.Machine.execSdrop d a b sq s
  | .kvst d a sw => Sys2Proof.Machine.execKvst d a sw s
  | .kvnx d b => Sys2Proof.Machine.execKvnx d b s
  | .kvnxEnd d b => Sys2Proof.Machine.execKvnxEnd d b s
  | .hmsg d a b sw code => Sys2Proof.Machine.execHmsg d a b sw code s
  | .swset d a b sw g => Sys2Proof.Machine.execSwset d a b sw g s
  | .swadd a b sw => Sys2Proof.Machine.execSwadd a b sw s
  | .swrd d a sw hi => Sys2Proof.Machine.execSwrd d a sw hi s
  | .rtwr d a => Sys2Proof.Machine.execRtwr d a s
  | .rtrd d a => Sys2Proof.Machine.execRtrd d a s
  | .rtarm a => Sys2Proof.Machine.execRtarm a s
  | .qmap a b => Sys2Proof.Machine.execQmap a b s
  | .qunmap b => Sys2Proof.Machine.execQunmap b s
  | .qkick b => Sys2Proof.Machine.execQkick b s
  | .lagReturnsToZero => Sys2Proof.Machine.execLagReturnsToZero s
  | .contextSaveComplete => Sys2Proof.Machine.execContextSaveComplete s
  | .contextImageComplete => Sys2Proof.Machine.execContextImageComplete s
  | .graphLoadComplete => Sys2Proof.Machine.execGraphLoadComplete s
  | .loadPipeReread => Sys2Proof.Machine.execLoadPipeReread s
  | .handlerInstructionRetire => Sys2Proof.Machine.execHandlerInstructionRetire s
  | .serviceCommandDone => Sys2Proof.Machine.execServiceCommandDone s
  | .mctpControlMessage => Sys2Proof.Machine.execMctpControlMessage s

end Sys2Proof.Machine
end

