-- ==== Sys2Proof/Machine/Turn.lean ====
section
/-!
DEFINITION. What happens in one step of the machine: a step of an agent that is due, the issue of a bundle by a core with the
execution of its slots (R12, R13, R87), or the end of a cycle (R46, R99, R115, R291, R425).
-/

namespace Sys2Proof.Machine

/-- R441: the page of a future's record that a step looks at. -/
def futAsk (s : State) (q h : Nat) : List PageAsk :=
  if futIndex h < creg s q .sched 0x018 then sysAsk q (creg s q .sched 0x010 + 32 * futIndex h) else []

/-- R441: the page of a queue's descriptor that a step looks at. -/
def queueAsk (s : State) (q queue : Nat) : List PageAsk :=
  if queue < creg s q .sched 0x008 then sysAsk q (queueDesc s q queue) else []

/-- R183, R398: the page that a VNFQ.q which finds a lane looks at, where its translation must be asked for. -/
def vnfqAsk (s : State) (p : Word) : List PageAsk :=
  match rangeFind (mapped s) p.toNat with
  | some r => if rangeGrants r .read && unheld s (myLead s) (me s).asn (rangeMap r p.toNat) then [⟨myLead s, (me s).asn, rangeMap r p.toNat, false⟩] else []
  | none => []

/-- R441: pages of the device's tables that an instruction looks at as it executes, and the page of a VNFQ. -/
def slotAsks (s : State) (i : Instr) : List PageAsk :=
  match i with
  | .fawait _ a _ => futAsk s (myLead s) (readS s a).toNat
  | .qmap a _ =>
    match rangeCheck (me s) (readS s a).toNat 64 .read with
    | .ok ia => queueAsk s (myLead s) ((ia - creg s (myLead s) .sched 0x000) / 64)
    | .trap .. => []
  | .vnfq _ a b k true t => if nfLanes t (readM s k) (readV s a) = 0 then [] else vnfqAsk s (readS s b)
  | _ => []

/-- R441: pages of the device's tables that an acceptance looks at. -/
def acceptAsks (s : State) (r : Req) : List PageAsk :=
  let q := leadCore s (r.key / 4)
  match r.ins with
  | .fref .. | .fdrop .. | .fstat .. => futAsk s q (r.args.getD 0 0)
  | .fset .. => futAsk s q r.fut.toNat
  | .qmap .. => queueAsk s q (r.args.getD 0 0)
  | .qkick .. => (match slotAt s (r.args.getD 0 0) with | some x => queueAsk s (leadOf s (r.args.getD 0 0 / 16)) x.queue | none => [])
  | _ => []

/-- R441: pages of the device's tables that a step of an agent looks at. -/
def eventAsks (s : State) (e : Event) : List PageAsk :=
  match e.ev with
  | .engineAcceptance => (match reqOf s e.subj.id with | some r => acceptAsks s r | none => [])
  | .entryAdmission => (match slotAt s e.subj.id with | some x => queueAsk s (leadOf s (e.subj.id / 16)) x.queue | none => [])
  | .notifyWrite => queueAsk s (leadCore s e.subj.core) e.subj.id
  | _ => []

/-- The instructions of a bundle execute in ascending slot order; a trap ends it. -/
def runWork : List Work → State → Host.Outcome State Fault Refusal
  | [], s => .next (finishBundle s)
  | w :: ws, s =>
    let (s, as) := findPages (slotAsks { s with iss := { s.iss with work := ws, cur := some w } } w.op.ins) s
    match exec w.op.ins { s with fresh := s.fresh + 1, iss := { s.iss with work := ws, cur := some w }, asks := s.asks ++ as } with
    | .next t => if t.iss.cut then .next (finishBundle t) else runWork ws t
    | .fault e => .fault e
    | .refused e => .refused e

/-- The steps that issue operations, whose slots then execute. -/
def issues : Instr → Bool
  | .bundleIssue | .slipEntryExecute => true
  | _ => false

/-- An instruction of a bundle's slot, and no step of an agent. -/
def isSlot (i : Instr) : Bool := (layout i).isSome

/-- R398, R441: a step that must wait for pages has no effect but to ask for them; it is done again, as a whole, in the next cycle.  A core's
bundle, a head of a slip buffer and a chunk's publication come up again there of themselves. -/
def deferStep (s : State) (e : Event) (as : List PageAsk) : State :=
  let s := (findPages as s).1
  if issues e.ev then s
  else if e.ev = .barkerPublish then
    { s with chunks := s.chunks.map fun c => if c.ia = e.subj.id ∧ c.asn = e.subj.val then { c with tried := some s.cyc } else c }
  else if s.timers.any fun t => t.2 == e then s
  else addTimer s (s.cyc + 1) e

/-- What a step comes to, from s on: what it did, or nothing yet where it must wait for pages. -/
def settle (s : State) (e : Event) : Host.Outcome State Fault Refusal → Host.Outcome State Fault Refusal
  | .next t => .next (if t.asks.isEmpty then t else deferStep s e t.asks)
  | r => r

/-- A step of an agent, with its subject. -/
def runEvent (s : State) (e : Event) : Host.Outcome State Fault Refusal :=
  if isSlot e.ev then .fault .strayInstruction
  else
    let (t, as) := findPages (eventAsks s e) { s with asks := [] }
    settle s e (match exec e.ev { t with subj := e.subj, iss := {}, fresh := t.fresh + 1, asks := as } with
    | .next t => if issues e.ev then runWork t.iss.work t else .next t
    | .fault x => .fault x
    | .refused x => .refused x)

/-! ### What a cycle starts with -/

/-- R120: contexts whose slip buffers run: one that stands saved or halted keeps its entries as they are until it is restored. -/
def slipping (s : State) : List (Nat × Ctx) := s.ctxs.filter fun p => !p.2.saved && !p.2.halted

/-- R115, R119: the heads of slip buffers that are due, with the issue and the slots of their bundles. -/
def dueHeads (s : State) : List ((Nat × Nat) × Event) :=
  (slipping s).flatMap fun (k, c) => slipUnits.filterMap fun u =>
    match (slipBuf c u).entries with
    | e :: _ => if e.due ≤ s.cyc then some ((e.work.issued, e.work.slot), ⟨.slipEntryExecute, { subjOf k with unit := u }⟩) else none
    | [] => none

/-- Cores with a context that is not free. -/
def liveCores (s : State) : List Nat := ((s.ctxs.filter fun p => p.2.st != .free).map fun p => p.1 / 4).eraseDups

/-- R113, R217: a scoreboarded result whose time has come, or is open. -/
def mayLand (s : State) (f : Flight) : Bool :=
  !f.fixed && (f.bound == 0 || decide (f.exec + f.bound ≤ s.cyc)) && match f.src with | .agent _ => false | _ => true

/-- Results whose landing the spec leaves open, with the issue and the slots of their bundles. -/
def dueLandings (s : State) : List ((Nat × Nat) × Event) :=
  s.ctxs.flatMap fun (k, c) =>
    (c.flights.filter (mayLand s)).map fun f => ((f.issued, f.slot), ⟨.scoreboardLand, { subjOf k with id := f.id }⟩)

/-- R119, R400: results that may land and heads of buffers that are due, oldest bundle first and lowest slot first. -/
def inOrder (es : List ((Nat × Nat) × Event)) : List Event :=
  (es.mergeSort fun a b => decide (a.1.1 < b.1.1) || (a.1.1 == b.1.1 && decide (a.1.2 ≤ b.1.2))).map Prod.snd

/-- Steps of contexts whose time the spec leaves open: marks and bundles that wait. -/
def ctxPolls (s : State) : List Event :=
  s.ctxs.flatMap fun (k, c) =>
    (if c.nextMark.isSome then [(⟨.afterMark, subjOf k⟩ : Event)] else []) ++
    if c.st = .waiting then [⟨.reissue, subjOf k⟩] else []

/-- Steps of the units of cores whose time the spec leaves open: K-blocks that are not paced, suspended passes, flits, and chains. -/
def corePolls (s : State) : List Event :=
  s.cores.flatMap fun (core, u) =>
    (u.passes.filterMap fun p =>
      if p.st = .suspended then (some ⟨.passFaultServed, passSubj core p⟩ : Option Event)
      else if p.runs && !p.paced && decide (p.due ≤ s.cyc) then some ⟨.kBlockIssue, passSubj core p⟩ else none) ++
    (u.flits.map fun f => ⟨.flitLanding, { core, val := f.link }⟩) ++
    u.chains.filterMap fun (n, c) => if c.live then some (walkStep core n c.gen) else none

/-- The next step of an accepted request whose time the spec leaves open. -/
def reqPoll (r : Req) : List Event :=
  if !r.accepted then []
  else
    let j := { subjOf r.key with id := r.id }
    match r.ins, r.job with
    | _, .copy _ => [⟨.copyChunk, j⟩]
    | _, .tree t => if t.closed then [⟨.treeResultLand, j⟩] else []
    | _, .run x => (List.range x.counters.length).filterMap fun i =>
        if x.counters.getD i 1 = 0 ∧ !x.counted.contains i then some ⟨.graphNodeComplete, { j with val := i }⟩ else none
    | .agload .., _ => [⟨.graphLoadComplete, j⟩]
    | .rcont .., _ => if r.args.length = 4 then [⟨.treeContribution, j⟩] else []
    | i, _ => if isStateOp i then [⟨.stateOpComplete, j⟩] else []

/-- Steps of agents whose time the spec leaves open: requests, notices that no board holds yet, chunks, and page-ins. -/
def agentPolls (s : State) : List Event :=
  s.reqs.flatMap reqPoll ++
  (s.notices.flatMap fun n =>
    if n.released || n.out || n.seen.length == n.members.length then []
    else n.members.map fun m => ⟨.noticeOffer, { core := m, id := n.id }⟩) ++
  s.pageIns.map fun p => ⟨.pageInComplete, { id := p.id }⟩

/-- R241, R291, R292, R341, R342: what the port engines do in a cycle. -/
def portSteps (s : State) : List Event :=
  s.cores.flatMap fun (core, u) =>
    (if s.cyc % 64 = 0 ∧ !u.flits.isEmpty then [(⟨.pacingWindowStart, { core }⟩ : Event)] else []) ++
    (if u.credits.isEmpty then [] else [⟨.rankedAdmission, { core }⟩])

/-- R292: cores with a pull on its way; each issues at most one request in a cycle. -/
def pullSteps (s : State) : List Event :=
  ((pullsOf s).map fun p => p.1.key / 4).eraseDups.map fun core => ⟨.pullRequestIssue, { core }⟩

/-- R425: every quarter's energy window, in the cycle in which it begins. -/
def windowSteps (s : State) : List Event :=
  if s.cyc % 1024 = 0 then (List.range 4).map fun q => ⟨.energyWindow, { id := q }⟩ else []

/-- R115: lags at the end of a cycle. -/
def slipCycle (s : State) : State :=
  (slipping s).foldl (fun s (k, _) => slipUnits.foldl (fun s u => lagReset (lagBump s k u) k u) s) s

/-- R115, R117, R204: what holds the heads of slip buffers as a cycle begins, and stores that waited for passes. -/
def holdCycle (s : State) : State :=
  (slipping s).foldl (fun s (k, _) => slipUnits.foldl (fun s u => markBlocked s k u) (flushLate s k)) s

/-- R236, R288: the place of a step among those that close a cycle: a WDRAW's acceptance, the other acceptances, notice timeouts. -/
def closeRank (s : State) (e : Event) : Nat :=
  if e.ev = .noticeTimeout then 2
  else match reqOf s e.subj.id with
    | some r => match r.ins with | .wdraw .. => 0 | _ => 1
    | none => 1

/-- R236, R288: the acceptances due in this cycle come after the state changes of their agents, and notice timeouts after them. -/
def dueAccepts (s : State) : List (Nat × Event) × List Event :=
  let closes (t : Nat × Event) : Bool := decide (t.1 ≤ s.cyc) && (t.2.ev == .engineAcceptance || t.2.ev == .noticeTimeout)
  (s.timers.filter fun t => !closes t,
   ((s.timers.filter closes).map Prod.snd).mergeSort fun a b => decide (closeRank s a ≤ closeRank s b))

/-- R398: a request after one more cycle in which the accesses that joined it could meet its answer of fail. -/
def ageAsk (x : XReq) : Option XReq :=
  match x.failed with
  | some true => none
  | some false => some { x with failed := some true }
  | none => some x

/-- The end of a cycle: sync words, meters, lags, the cycle counter, and what the next cycle starts with.  While a schedule says what happens, a
step whose time the spec leaves open waits for it. -/
def endCycle (s : State) : State :=
  let s := s.cores.foldl (fun s (c, _) => swCycle s c) s
  let s := meterCycle (s.cores.foldl (fun s (c, _) => settleWindow s c) s)
  let s := retryOwed (slipCycle { s with moved := [] })
  let s := if s.schedule.isEmpty then { s with xreqs := s.xreqs.filterMap ageAsk } else s
  let s := { s with cores := s.cores.map fun (p : Nat × CoreSt) => (p.1, { p.2 with used := [] }), cyc := s.cyc + 1 }
  let s := holdCycle s
  let free := s.schedule.isEmpty
  let (timers, accepts) := dueAccepts s
  { s with timers, turn := liveCores s
           ready := windowSteps s ++ s.ready ++ portSteps s ++ pullSteps s ++ (if free then corePolls s ++ agentPolls s else []) ++
             inOrder ((if free then dueLandings s else []) ++ dueHeads s) ++ (if free then ctxPolls s else []) ++ accepts }

/-- One step: a due timer, then what the schedule says, then an enabled step, then the next core's bundle, then a chunk's publication, then
the end of the cycle. -/
def advance (s : State) : Host.Outcome State Fault Refusal :=
  match s.timers with
  | (d, e) :: ts => if d ≤ s.cyc then runEvent { s with timers := ts } e else advanceRest s
  | [] => advanceRest s
where
  /-- The part after the timers. -/
  advanceRest (s : State) : Host.Outcome State Fault Refusal :=
    match s.schedule with
    | .run e :: es => runEvent { s with schedule := es } e
    | sch =>
      match s.ready with
      | e :: es => runEvent { s with ready := es } e
      | [] =>
        match s.turn with
        | c :: cs => runEvent { s with turn := cs } ⟨.bundleIssue, { core := c }⟩
        | [] =>
          match dueChunk s with
          | some c => runEvent s ⟨.barkerPublish, { subjOf c.key with id := c.ia, val := c.asn }⟩
          | none => .next (endCycle { s with schedule := sch.drop 1 })

/-- A bundle placed in core 0's scratchpad with context 0 ready to issue it in this cycle: at privilege level 2, within a task,
with range register 0 mapping its address; the package runs, and nothing else is due. -/
def placeBundle (s : State) (b : Nat) : State :=
  let pc : Word := 0x10000
  let s := mputs s (spAddr 0 0) (toBytes 64 b)
  let c : Ctx := { st := .ready, pc, pl := 2, task := some {}, trec := 0
                   rregs := [(0, ⟨0x1000F, 0x1F⟩)] }
  { updCore (putCtx s 0 c) 0 (fun u => { u with sel := 0, selAt := 0, gated := false }) with
    boot := { s.boot with stat := 0, linked := true }
    schedule := [], timers := [], ready := [], turn := [0], iss := {} }

end Sys2Proof.Machine
end

