-- ==== Sys2Proof/Machine/Step.lean ====
section
/-!
DEFINITION. The step of the machine, and the state in which a given instruction is the next that runs.
-/

namespace Sys2Proof.Machine

/-- One step of the machine. -/
def step (s : State) : Host.Outcome State Fault Refusal := advance s

/-- The bundle that `nbits` bits of w begin, placed so that the very next step issues it. -/
def State.withFetchWord (s : State) (nbits w : Nat) : State := placeBundle s (w % 2 ^ nbits)

end Sys2Proof.Machine
end

