-- ==== Sys2Proof/Safety.lean ====
section
/-!
DEFINITION. What counts as a safe run, and the terms the statements are made in.
-/

namespace Sys2Proof.Machine

/-- A number from its digits, lowest first, in the mixed radix whose digit d runs below c d. -/
def mixedRadix (c : Nat → Nat) : Nat → List Nat → Nat
  | _, [] => 0
  | d, x :: xs => x + c d * mixedRadix c (d + 1) xs

/-- Element j of width w of a register image, as bits. -/
def elOf (w : Nat) (v : VecImage) (j : Nat) : BitVec w := v.extractLsb' (w * j) w

/-- Element n of width w of a tile's image, as bits. -/
def tileEl (w : Nat) (v : TileImage) (n : Nat) : BitVec w := v.extractLsb' (w * n) w

/-- Instruction i answers a next state in which only a result for vD of bound L is new: f in the elements of the lanes mK selects, the old
value in the others (R172). -/
def VectorResult (s : State) (i : Instr) (L d k w : Nat) (f : Nat → BitVec w) : Prop :=
  ∃ v : VecImage, exec i s = .next (writeV s L d v) ∧
    ∀ j < 2048 / w, elOf w v j = if (readM s k).getLsbD (j * w / 32) then f j else elOf w (readV s d) j

/-- Instruction i answers a next state in which only a result for mD is new: p in the lanes mK selects, 0 in the others (R172). -/
def MaskResult (s : State) (i : Instr) (d k : Nat) (p : Nat → Bool) : Prop :=
  ∃ m : Word, exec i s = .next (writeM s d m) ∧ ∀ j < 64, m.getLsbD j = ((readM s k).getLsbD j && p j)

/-- Instruction i takes the trap of the first check that holds; where none holds, it answers next state t. -/
def Guarded (s : State) (i : Instr) : List (Prop × Trap) → State → Prop
  | [], t => exec i s = .next t
  | (p, x) :: cs, t => (p → exec i s = .next (takeTrap s s.at_ x (curSeq s))) ∧ (¬ p → Guarded s i cs t)

/-- R59: the trap of a scratchpad offset outside the core's scratchpad. -/
def outside (s : State) (off : Nat) : Trap := addrTrap s 0x0B 0 (spAddr (myCore s) off)

/-- R59: the check of a request's sync word. -/
def wordCheck (s : State) (sw : BitVec 17) : Prop × Trap := (mySp s ≤ 16 * sw.toNat, addrTrap s 0x0B 0 (16 * sw.toNat))

/-- The instructions whose whole effect is the result of a register: none of them traps, stores, makes a request or changes control. -/
def registerOnly : Instr → Bool
  | .add _ _ _ | .sub _ _ _ | .and _ _ _ | .or _ _ _ | .xor _ _ _ | .andn _ _ _ | .shl _ _ _ | .shr _ _ _ | .sra _ _ _ | .rol _ _ _
  | .ror _ _ _ | .min _ _ _ | .max _ _ _ | .minu _ _ _ | .maxu _ _ _ | .clz _ _ | .ctz _ _ | .popc _ _ | .bswap _ _ | .sext _ _ _
  | .zext _ _ _ | .bfx _ _ _ _ | .bfi _ _ _ _ | .cmp _ _ _ _ | .sel _ _ _ _ | .lea _ _ _ _ | .fland _ _ _ _ | .flor _ _ _ _ | .flxor _ _ _ _
  | .addi _ _ _ | .andi _ _ _ | .ori _ _ _ | .xori _ _ _ | .shli _ _ _ | .shri _ _ _ | .srai _ _ _ | .cmpi _ _ _ _ | .movi _ _ | .movhi _ _
  | .mul _ _ _ | .mulh _ _ _ | .mulhu _ _ _ | .rdsp _ _ | .lcrd _ _ | .lcwr _ _ | .nrd _ _ _ | .nwr _ _ _ | .fadd _ _ _ _ | .fsub _ _ _ _
  | .fmul _ _ _ _ | .fmin _ _ _ _ | .fmax _ _ _ _ | .fcpys _ _ _ _ | .fma _ _ _ _ _ | .fms _ _ _ _ _ | .fnma _ _ _ _ _ | .fabs _ _ _
  | .fneg _ _ _ | .fclass _ _ _ | .fsqrt _ _ _ | .frcp _ _ _ | .frsq _ _ _ | .fcmp _ _ _ _ _ | .fcvt _ _ _ _ | .ftoi _ _ _ _ _
  | .itof _ _ _ _ | .frnd _ _ _ _ | .rngr _ _ _ | .vadd _ _ _ _ _ | .vsub _ _ _ _ _ | .vmul _ _ _ _ _ | .vmulh _ _ _ _ _ _ | .vand _ _ _ _ _
  | .vor _ _ _ _ _ | .vxor _ _ _ _ _ | .vshl _ _ _ _ _ | .vshr _ _ _ _ _ | .vsra _ _ _ _ _ | .vmin _ _ _ _ _ | .vmax _ _ _ _ _
  | .vminu _ _ _ _ _ | .vmaxu _ _ _ _ _ | .vabs _ _ _ _ | .vadds _ _ _ _ _ _ | .vsubs _ _ _ _ _ _ | .vaddi _ _ _ _ _ | .vshli _ _ _ _ _
  | .vshri _ _ _ _ _ | .vsrai _ _ _ _ _ | .vmovi _ _ _ _ | .vbcast _ _ _ _ | .vfadd _ _ _ _ | .vfsub _ _ _ _ | .vfmul _ _ _ _
  | .vfmin _ _ _ _ | .vfmax _ _ _ _ | .vfma _ _ _ _ _ | .vfms _ _ _ _ _ | .vfabs _ _ _ | .vfneg _ _ _ | .vfrcp _ _ _ | .vfrsq _ _ _
  | .vfexp _ _ _ | .vcvt _ _ _ _ _ | .vpack _ _ _ _ _ _ | .vunpk _ _ _ _ _ | .vcmp _ _ _ _ _ | .vfcmp _ _ _ _ _ | .vnf _ _ _ _
  | .mand _ _ _ _ | .mor _ _ _ _ | .mxor _ _ _ _ | .mnot _ _ | .mpop _ _ _ | .many _ _ _ _ | .vperm _ _ _ _ | .vshuf _ _ _ _ _
  | .vrot _ _ _ _ _ | .vsel _ _ _ _ _ | .vext _ _ _ _ | .vins _ _ _ | .vradd _ _ _ _ _ | .vrmin _ _ _ _ _ | .vrmax _ _ _ _ _
  | .vrfadd _ _ _ _ | .vrfmin _ _ _ | .vrfmax _ _ _ | .mrdv _ _ _ _ | .mpset _ | .msrd _ _ | .nbrd _ _ _ | .nbcnt _ _ | .nbfind _ _ _ _ => true
  | _ => false

end Sys2Proof.Machine
end

