-- ==== Sys2Proof/Certificates/Slice0/Obligations.lean ====
section
/-!
DEFINITION. The statements for the provers.
-/

section Statements

open Sys2Proof Sys2Proof.Machine

/-! ### Encoding -/

/-- R105, R106, R121 to R127: the words the spec's examples work out decode to what they stand for, in their slots. -/
def Obligations.WordsDecode : Prop :=
  let reads (k : SlotKind) (w : BitVec 64) (i : Instr) : Prop := decodeSlot k w = some ⟨0, false, i, 0⟩
  reads .s 0x2000A20000000040 (.addi 5 4 64) ∧ decodeSlot .s 0x3038C39000000000 = some ⟨3, true, .mul 6 7 8, 0⟩ ∧
  reads .s 0x010124A800000000 (.add 9 9 20) ∧ reads .s 0x4E014200000C0000 (.ftoi 10 4 false .up .b64) ∧
  reads .c 0x0900C07FFFFFC000 (.bne 6 0 (-1)) ∧ reads .c 0x1002000000000000 (.loopn 1 0) ∧ reads .c 0xE4000A2A00040000 (.ctxsave 20 21 4) ∧
  reads .v 0x2000608400000000 (.vfadd 3 1 2 0) ∧ reads .v 0x5301220000010000 (.vrfadd 9 4 0 true) ∧
  reads .v 0x3100C280022A0000 (.vpack 6 5 2 false 2 .t6) ∧ reads .v 0x3001028002920000 (.vcvt 8 5 2 .t8 .b32) ∧
  reads .v 0x3200E300002A0000 (.vunpk 7 6 0 2 .t6) ∧
  reads .m 0x01005EFD90A02400 (.mma 0 47 31 44 33 .bf16 1 true false false) ∧ reads .m 0x03000060F8020000 (.mdrn 0 48 31 false false .b32) ∧
  reads .m 0x0200028000000000 (.scx 0 5) ∧
  reads .l 0x0103CA0600000010 (.ld 30 20 .d false 0x10) ∧ decodeSlot .l 0x0340CA0600000010 = some ⟨4, false, .st 6 20 3 false 0x10, 0⟩ ∧
  reads .l 0x1A00630022010000 (.vamo 3 6 0 .pkg 2 .rlx false .add) ∧ reads .l 0x1804AF0620310000 (.amo 37 30 3 .pkg .rlx 3 .add) ∧
  decodeSlot .l 0x27512A0090000040 = some ⟨5, false, .vldt 9 20 0 9 0x40, 0⟩ ∧ reads .l 0x2100000100000000 (.drain .pkg) ∧
  reads .x 0x0200028E00110100 (.pull 5 7 0x11 true) ∧ reads .x 0x0200004000060200 (.pullRank 32 6) ∧
  decodeSlot .x 0x102804AE00040000 = some ⟨2, true, .rcont 9 23 4, 0⟩ ∧ reads .x 0x110007A200000000 (.rroot 15 17 0) ∧
  reads .a 0x0100020A00200E00 (.copy 4 5 0x20 true true 2) ∧ reads .a 0x2100001200200000 (.swadd 0 9 0x20) ∧
  reads .a 0x1001420A00000000 (.ssnap 10 4 5) ∧ reads .a 0x1102221A00000000 (.sroll 17 4 13) ∧ reads .a 0x0803CF8000000000 (.spawn 30 31 0 false) ∧
  reads .a 0x0A01EF0000000000 (.fdrop 15 30) ∧ reads .a 0x1803D08000100000 (.kvst 30 33 0x10) ∧ reads .a 0x1903E03C00000000 (.kvnx 31 30) ∧
  reads .a 0xE0000A2A00000000 (.qmap 20 21) ∧ reads .a 0xE100002A00000000 (.qunmap 21) ∧ reads .a 0xE200002A00000000 (.qkick 21)

/-- R105 to R109, R121 to R127: DECODING AND ENCODING AGREE: for every slot operation the encoding admits, the slot value the encoder gives it decodes
to that operation, with every operand at every value; and a slot value that decodes is the one its operation encodes to. -/
def Obligations.DecodeInvertsEncode : Prop :=
  (∀ (o : SlotOp) (k : SlotKind) (w : BitVec 64), slotWf o = true → encodeSlot o = some (k, w) → decodeSlot k w = some o) ∧
  (∀ (o : SlotOp) (k : SlotKind) (w : BitVec 64), decodeSlot k w = some o →
    slotWf o = true ∧ ∃ k', encodeSlot o = some (k', w) ∧ (k' = k ∨ o.ins = .nop ∨ o.ins = .hint)) ∧
  ∀ o : SlotOp, encodeSlot o = none ↔ isSlot o.ins = false

/-- R107 to R110, R352: a slot whose opcode its map does not assign, and a privileged opcode in user mode, make their bundle trap before it executes,
the lowest slot first, and so does a destination named twice. -/
def Obligations.DecodeTraps : Prop :=
  let ranges : SlotKind → List (Nat × Nat)
    | .c => [(0x01, 0x06), (0x08, 0x0D), (0x10, 0x11), (0x18, 0x1A), (0x20, 0x26), (0xE0, 0xE8)]
    | .s => [(0x01, 0x1D), (0x20, 0x29), (0x30, 0x32), (0x38, 0x3C), (0x40, 0x53), (0xE0, 0xE1)]
    | .v => [(0x01, 0x11), (0x18, 0x1D), (0x20, 0x2B), (0x30, 0x32), (0x38, 0x3B), (0x40, 0x45), (0x48, 0x4D), (0x50, 0x55)]
    | .m => [(0x01, 0x0E)]
    | .l => [(0x01, 0x05), (0x08, 0x0E), (0x10, 0x11), (0x18, 0x1B), (0x20, 0x27)]
    | .x => [(0x01, 0x05), (0x08, 0x0D), (0x10, 0x11), (0x18, 0x1B), (0x20, 0x22), (0x28, 0x28), (0xE0, 0xE0)]
    | .a => [(0x01, 0x02), (0x08, 0x15), (0x18, 0x1A), (0x20, 0x25), (0xE0, 0xE2)]
  (∀ (k : SlotKind) (w : BitVec 64), let op := w.toNat / 2 ^ 56
    op < 0xF0 → (∀ r ∈ ranges k, op < r.1 ∨ r.2 < op) → (op = 0 → w.toNat % 2 ^ 51 ≠ 0) → decodeSlot k w = none) ∧
  (∀ (s : State) (k b i : Nat), i < 8 →
    let c := ctxOf s k
    let u := coreAt s (k / 4)
    let good (j : Nat) : Prop := ∃ o, decodeSlot (slotKind j) (slotWord b j) = some o ∧
      fitsPartition (vregCount u.vreg) (tileCount u.tile) o.ins = true ∧ ¬ (privOpcode (slotKind j) (slotWord b j) = true ∧ c.pl = 0)
    (∀ j < i, good j) →
    (privOpcode (slotKind i) (slotWord b i) = true → c.pl = 0 → decodeBundle s k b = .inl (0x03, i)) ∧
    (¬ (privOpcode (slotKind i) (slotWord b i) = true ∧ c.pl = 0) → decodeSlot (slotKind i) (slotWord b i) = none →
      decodeBundle s k b = .inl (0x01, i)) ∧
    (∀ o, ¬ (privOpcode (slotKind i) (slotWord b i) = true ∧ c.pl = 0) → decodeSlot (slotKind i) (slotWord b i) = some o →
      fitsPartition (vregCount u.vreg) (tileCount u.tile) o.ins = false → decodeBundle s k b = .inl (0x01, i))) ∧
  (∀ (s : State) (k b j : Nat) (o : Nat → SlotOp), let u := coreAt s (k / 4)
    let shares (i j : Nat) : Prop := ∃ r, r ∈ writesOf (o i).ins ∧ r ∈ writesOf (o j).ins ∧ r ≠ .s 0 ∧ r ≠ .f 0 ∧ r ≠ .m 0
    (∀ i < 8, decodeSlot (slotKind i) (slotWord b i) = some (o i) ∧ fitsPartition (vregCount u.vreg) (tileCount u.tile) (o i).ins = true ∧
      ¬ (privOpcode (slotKind i) (slotWord b i) = true ∧ (ctxOf s k).pl = 0)) →
    j < 8 → (∃ i < j, shares i j) → (∀ j' < j, ∀ i < j', ¬ shares i j') → decodeBundle s k b = .inl (0x02, j)) ∧
  ∀ (s u : State) (k b code slot : Nat), (ctxOf s k).async = [] → s.at_ = k → fetch s k = (u, .ok b) → decodeBundle u k b = .inl (code, slot) →
    issueBundle s = takeTrap u u.at_ { trapOf u code with slot } ((me u).bseq + 1)

/-- R12, R13, R87, R110, R398, R441: A STEP RUNS THE DECODED BUNDLE: with nothing else due, the step of a core whose selected context is ready fetches and
decodes the bundle at its PC, and, where nothing holds the bundle and no mark stands before it, executes its operations in ascending slot order, each by
exec, up to a trap, and then takes what stands at the bundle's end. A step that must wait for pages of the device's tables, which only system software may
find, or for one that is on its way, has no effect but to ask for them, and comes again. -/
def Obligations.StepRunsDecodedBundle : Prop :=
  (∀ (s u : State) (core b : Nat) (cs : List Nat) (os : List SlotOp),
    let k := 4 * core + (coreAt s core).sel
    let e := { s with turn := cs, subj := { core }, iss := {}, fresh := s.fresh + 1, asks := [], at_ := k }
    let ws := workOf (clearEp u) b os
    (∀ p ∈ s.timers, s.cyc < p.1) → s.schedule = [] → s.ready = [] → s.turn = core :: cs →
    (coreAt s core).gated = false → quarterHeld s (quarterOf core) = false → (coreAt s core).selAt ≤ s.cyc → (ctxOf s k).st = .ready →
    (ctxOf s k).async = [] → fetch e k = (u, .ok b) → decodeBundle u k b = .inr os → bundleHeld (clearEp u) ws = none →
    (∀ w ∈ ws, w.2 = true → takesMark w.1.op.ins = false) → capacityShort (clearEp u) os = false →
    let t := launch (clearEp u) b ws false
    step s = settle { s with turn := cs } ⟨.bundleIssue, { core }⟩ (runWork t.iss.work t)) ∧
  (∀ s : State, runWork [] s = .next (finishBundle s)) ∧
  (∀ (s t : State) (w : Work) (ws : List Work),
    let c := { s with iss := { s.iss with work := ws, cur := some w } }
    let u := (findPages (slotAsks c w.op.ins) s).1
    exec w.op.ins { u with fresh := u.fresh + 1, iss := { u.iss with work := ws, cur := some w }
                           asks := u.asks ++ (findPages (slotAsks c w.op.ins) s).2 } = .next t →
    runWork (w :: ws) s = if t.iss.cut then .next (finishBundle t) else runWork ws t) ∧
  (∀ (s : State) (b : Nat) (os : List SlotOp),
    (workOf s b os).map (fun w => (w.1.op, w.1.slot, w.1.pc, w.2)) =
      (os.zip (List.range 8)).map fun p => (p.1, p.2, (me s).pc, readF s p.1.pred != p.1.neg)) ∧
  (∀ (s : State) (d : Nat) (e : Event) (ts : List (Nat × Event)), s.timers = (d, e) :: ts → d ≤ s.cyc → isSlot e.ev = false →
    issues e.ev = false →
    let r := findPages (eventAsks { s with timers := ts } e) { s with timers := ts, asks := [] }
    step s = settle { s with timers := ts } e (exec e.ev { r.1 with subj := e.subj, iss := {}, fresh := r.1.fresh + 1, asks := r.2 })) ∧
  (∀ (s : State) (i : Instr) (e : Event), findPages [] s = (s, []) ∧
    (match i with | .fawait .. | .qmap .. | .vnfq _ _ _ _ true _ => True | i => slotAsks s i = []) ∧
    (match e.ev with | .engineAcceptance | .entryAdmission | .notifyWrite => True | _ => eventAsks s e = [])) ∧
  ∀ (s t : State) (e : Event),
    (t.asks = [] → settle s e (.next t) = .next t) ∧
    (t.asks ≠ [] → ∃ u, settle s e (.next t) = .next u ∧ u.ctxs = s.ctxs ∧ u.cores = s.cores ∧ u.reqs = s.reqs ∧ u.turn = s.turn ∧ u.ready = s.ready ∧
      u.cyc = s.cyc ∧ (issues e.ev = false → e.ev ≠ .barkerPublish → (s.cyc + 1, e) ∈ u.timers ∨ ∃ d, (d, e) ∈ s.timers))

/-! ### Reset, invariants, frames -/

/-- Reset leaves every context free, every core with 32 vector registers and no bank format, no request, notice, launch or page-in, and the control
registers at the values the spec gives them. -/
def Clause.ResetValues : Prop :=
  let s := State.reset
  s.cyc = 0 ∧ s.mem = [] ∧ (∀ k, (ctxOf s k).st = .free ∧ (ctxOf s k).task = none ∧ (ctxOf s k).cycLim = 200000 ∧ (ctxOf s k).yd = 250000 ∧
    (ctxOf s k).pinLim = 65536) ∧
  (∀ core, (coreAt s core).bud = 4096 ∧ (coreAt s core).gated = true ∧ (coreAt s core).rq = [] ∧ (coreAt s core).passes = [] ∧ (coreAt s core).credits = []) ∧
  s.reqs = [] ∧ s.notices = [] ∧ s.launches = [] ∧ s.pageIns = [] ∧ s.boot.stat = 1 ∧
  ∀ q < 4, creg s q .part 0x000 = 2 ^ q ∧ creg s q .part 0x008 = 2 ^ q ∧ creg s q .part 0x040 = 2500000 ∧ leadOf s q = q

/-- The machine's memory at reset is in its canonical form. -/
def Clause.ResetMemoryCanonical : Prop := Memory.wf State.reset.mem = true ∧ ∀ a, mget State.reset a = 0

/-- What reset leaves: the control state, and memory in its canonical form, every byte reading as 0. -/
def Obligations.ResetState : Prop :=
  Clause.ResetValues ∧ Clause.ResetMemoryCanonical

/-- R101, the model's memory: EVERY STEP KEEPS THE MEMORY'S CANONICAL FORM: addresses strictly rising, and no entry with the value an unlisted address
reads as. -/
def Obligations.StepKeepsMemoryCanonical : Prop :=
  ∀ s t : State, Memory.wf s.mem = true → step s = .next t → Memory.wf t.mem = true

/-- NO INSTRUCTION IS REFUSED: every constructor of Instr answers a next state in every state; a step stops only where the schedule, a timer or the
list of enabled steps names a slot instruction as an agent's step. -/
def Obligations.EveryInstructionAnswers : Prop :=
  (∀ (i : Instr) (s : State), ∃ t, exec i s = .next t) ∧
  ∀ s : State, (∃ t, step s = .next t) ∨
    (step s = .fault .strayInstruction ∧ ((∃ p ∈ s.timers, isSlot p.2.ev = true) ∨ (∃ e, Turn.run e ∈ s.schedule ∧ isSlot e.ev = true) ∨
      ∃ e ∈ s.ready, isSlot e.ev = true))

/-- R40: s0, f0 and m0 read as constants, and a write to them is discarded. -/
def Obligations.HardwiredRegisters : Prop :=
  ∀ s : State, readS s 0 = 0 ∧ readF s 0 = true ∧ readM s 0 = BitVec.allOnes 64 ∧
    (∀ (r : Regs) (v : Nat) (n : Nat),
      putReg r { dst := .s 0, bits := v } = r ∧ putReg r { dst := .f 0, bits := v } = r ∧ putReg r { dst := .m 0, bits := v } = r ∧
      (n ≠ 0 → sget 0 (putReg r { dst := .s n, bits := v }).s n = BitVec.ofNat 64 v ∧
        sget 0 (putReg r { dst := .m n, bits := v }).m n = BitVec.ofNat 64 v) ∧
      (n ≠ 0 → n < 16 → (putReg r { dst := .f n, bits := v }).f.getLsbD n = decide (v % 2 = 1)) ∧
      sget 0 (putReg r { dst := .v n, bits := v }).v n = BitVec.ofNat 2048 v) ∧
    (∀ (w : Word) (b : Bool), writeS s 1 0 w = s ∧ writeF s 1 0 b = s ∧ writeM s 0 w = s) ∧
    ∀ (k b : Nat) (o : Nat → SlotOp), let u := coreAt s (k / 4)
      (∀ i < 8, decodeSlot (slotKind i) (slotWord b i) = some (o i) ∧ fitsPartition (vregCount u.vreg) (tileCount u.tile) (o i).ins = true ∧
        ¬ (privOpcode (slotKind i) (slotWord b i) = true ∧ (ctxOf s k).pl = 0)) →
      (bundleReserve ((List.range 8).map o)).1 ≤ 256 → (bundleReserve ((List.range 8).map o)).2 ≤ 512 →
      (∀ i j r, i < j → j < 8 → r ∈ writesOf (o i).ins → r ∈ writesOf (o j).ins → r = .s 0 ∨ r = .f 0 ∨ r = .m 0) →
      decodeBundle s k b = .inr ((List.range 8).map o)

/-- A result that lands in one register leaves every other register as it was. -/
def Obligations.RegisterWriteFrame : Prop :=
  ∀ (r : Regs) (w : RegWrite),
    let t := putReg r w
    (∀ n, w.dst ≠ .s n → sget 0 t.s n = sget 0 r.s n) ∧ (∀ n < 16, w.dst ≠ .f n → (∀ m, w.dst = .f m → m < 16) → t.f.getLsbD n = r.f.getLsbD n) ∧
    (∀ n, w.dst ≠ .m n → sget 0 t.m n = sget 0 r.m n) ∧ (∀ n, w.dst ≠ .v n → sget 0 t.v n = sget 0 r.v n) ∧
    (∀ n j, j < 16 → w.word < 16 → (w.dst ≠ .n n ∨ w.word ≠ j) → sget 0 t.n (16 * n + j) = sget 0 r.n (16 * n + j)) ∧
    (∀ n, w.dst ≠ .lc n → sget 0 t.lc n = sget 0 r.lc n) ∧ (w.dst ≠ .mcfg → t.mcfg = r.mcfg) ∧ (w.dst ≠ .mpat → t.mpat = r.mpat) ∧
    t.loop = r.loop ∧ t.ep = r.ep ∧ t.eppc = r.eppc ∧ t.eppl = r.eppl ∧ t.pin = r.pin

/-- R112 to R114: FRAME of the instructions whose whole effect is a register result (scalar, float, vector, mask and special-register reads): every one
answers a next state in which only results in flight, their timers and their numbering differ: memory, every register, every other context and every
core stay as they are until the result lands. -/
def Obligations.RegisterOnlyFrame : Prop :=
  ∀ (i : Instr) (s : State), registerOnly i = true →
    ∃ t, exec i s = .next t ∧ t = { s with ctxs := t.ctxs, nextId := t.nextId, timers := t.timers } ∧
      (∀ k, k ≠ s.at_ → ctxOf t k = ctxOf s k) ∧ me t = { me s with flights := (me t).flights }

/-! ### Scalar instructions -/

/-- R159, R164: ADD to MAXU send a op b to sD with bound 1, modulo 2^64, only the low six bits of a shift amount counting; MUL, MULH and MULHU send
their half of the product with bound 3; and the opcodes of all of them. -/
def Clause.ScalarArithmeticResults : Prop :=
  (∀ p ∈ ([(0x01, .add), (0x02, .sub), (0x03, .and), (0x04, .or), (0x05, .xor), (0x06, .andn), (0x07, .shl), (0x08, .shr), (0x09, .sra), (0x0A, .rol),
      (0x0B, .ror), (0x0C, .min), (0x0D, .max), (0x0E, .minu), (0x0F, .maxu), (0x30, .mul), (0x31, .mulh), (0x32, .mulhu)] :
      List (Nat × (Nat → Nat → Nat → Instr))),
    ∀ d < 64, ∀ a < 64, ∀ b < 64,
      decodeSlot .s (BitVec.ofNat 64 (p.1 * 2 ^ 56 + d * 2 ^ 45 + a * 2 ^ 39 + b * 2 ^ 33)) = some ⟨0, false, p.2 d a b, 0⟩) ∧
  ∀ (s : State) (d a b : Nat),
    let x := readS s a
    let y := readS s b
    let n := y.toNat % 64
    let gives (i : Instr) (v : Word) : Prop := exec i s = .next (writeS s 1 d v)
    gives (.add d a b) (BitVec.ofNat 64 (x.toNat + y.toNat)) ∧
    gives (.sub d a b) (BitVec.ofInt 64 ((x.toNat : Int) - y.toNat)) ∧
    gives (.and d a b) (x &&& y) ∧
    gives (.or d a b) (x ||| y) ∧
    gives (.xor d a b) (x ^^^ y) ∧
    gives (.andn d a b) (x &&& ~~~ y) ∧
    gives (.shl d a b) (BitVec.ofNat 64 (x.toNat * 2 ^ n)) ∧
    gives (.shr d a b) (BitVec.ofNat 64 (x.toNat / 2 ^ n)) ∧
    gives (.sra d a b) (BitVec.ofInt 64 (x.toInt / 2 ^ n)) ∧
    gives (.rol d a b) (x <<< n ||| x >>> (64 - n)) ∧
    gives (.ror d a b) (x >>> n ||| x <<< (64 - n)) ∧
    gives (.min d a b) (BitVec.ofInt 64 (min x.toInt y.toInt)) ∧
    gives (.max d a b) (BitVec.ofInt 64 (max x.toInt y.toInt)) ∧
    gives (.minu d a b) (BitVec.ofNat 64 (min x.toNat y.toNat)) ∧
    gives (.maxu d a b) (BitVec.ofNat 64 (max x.toNat y.toNat))

/-- R160: the bit operations send to sD, with bound 1, a value whose bits are these.  In BFX and BFI a field that would pass bit 63 is
cut there, and an empty one gives 0 or leaves a as it is. -/
def Clause.ScalarBitResults : Prop :=
  ∀ (s : State) (d a b c p : Nat),
    let x := readS s a
    let y := readS s b
    let f := readS s c
    let gives (i : Instr) (v : Word) : Prop := exec i s = .next (writeS s 1 d v)
    (∃ n ≤ 64, gives (.clz d a) (BitVec.ofNat 64 n) ∧ x.toNat < 2 ^ (64 - n) ∧ (n < 64 → 2 ^ (63 - n) ≤ x.toNat)) ∧
    (∃ n ≤ 64, gives (.ctz d a) (BitVec.ofNat 64 n) ∧ (∀ i < n, x.getLsbD i = false) ∧ (n < 64 → x.getLsbD n = true)) ∧
    gives (.popc d a) (BitVec.ofNat 64 ((List.range 64).filter x.getLsbD).length) ∧
    (∃ v, gives (.bswap d a) v ∧ ∀ i < 8, v.extractLsb' (8 * i) 8 = x.extractLsb' (8 * (7 - i)) 8) ∧
    (p ≤ 62 → ∃ v, gives (.sext d a p) v ∧ ∀ i < 64, v.getLsbD i = x.getLsbD (min i p)) ∧
    (p ≤ 62 → ∃ v, gives (.zext d a p) v ∧ ∀ i < 64, v.getLsbD i = (decide (i ≤ p) && x.getLsbD i)) ∧
    (∀ sg, ∃ v, gives (.bfx d a b sg) v ∧
      let pos := (y.extractLsb' 0 6).toNat
      let w := min (y.extractLsb' 8 7).toNat (64 - pos)
      (w = 0 → v = 0) ∧
      ∀ i < 64, 0 < w → v.getLsbD i =
        if i < w then x.getLsbD (pos + i) else (sg && x.getLsbD (pos + w - 1))) ∧
    (∃ v, gives (.bfi d a b c) v ∧
      let pos := (f.extractLsb' 0 6).toNat
      let w := min (f.extractLsb' 8 7).toNat (64 - pos)
      ∀ i < 64, v.getLsbD i = if pos ≤ i ∧ i < pos + w then y.getLsbD (i - pos) else x.getLsbD i)

/-- R161: the compares and the flag operations send a flag, and SEL and LEA a scalar, with bound 1. -/
def Clause.ScalarCompareResults : Prop :=
  ∀ (s : State) (d a b c sh : Nat) (imm : BitVec 32),
    let x := readS s a
    let y := readS s b
    let j : Word := imm.signExtend 64
    let flag (i : Instr) (v : Bool) : Prop := exec i s = .next (writeF s 1 d v)
    let cmp (i : Cond → Instr) (y : Word) : Prop :=
      flag (i .eq) (decide (x = y)) ∧ flag (i .ne) (decide (x ≠ y)) ∧
      flag (i .lt) (decide (x.toInt < y.toInt)) ∧ flag (i .ge) (decide (y.toInt ≤ x.toInt)) ∧
      flag (i .ltu) (decide (x.toNat < y.toNat)) ∧ flag (i .geu) (decide (y.toNat ≤ x.toNat)) ∧
      flag (i .tst) (decide (x &&& y ≠ 0)) ∧ flag (i .ntst) (decide (x &&& y = 0))
    cmp (fun cc => .cmp d a b cc) y ∧ cmp (fun cc => .cmpi d a cc imm) j ∧
    exec (.sel d a b c) s = .next (writeS s 1 d (bif readF s c then x else y)) ∧
    exec (.lea d a b sh) s = .next (writeS s 1 d (BitVec.ofNat 64 (x.toNat + y.toNat * 2 ^ sh))) ∧
    ∀ inv, let q := readF s b ^^ inv
      flag (.fland d a b inv) (readF s a && q) ∧ flag (.flor d a b inv) (readF s a || q) ∧
      flag (.flxor d a b inv) (readF s a ^^ q)

/-- R160, R161: the bit operations, compares, selects and flag operations. -/
def Obligations.ScalarBitAndCompareResults : Prop :=
  Clause.ScalarBitResults ∧ Clause.ScalarCompareResults

/-- R162 to R164: the immediate operations and moves send their results to sD with bound 1, the multiplies with bound 3. -/
def Clause.ScalarImmediateAndMultiplyResults : Prop :=
  ∀ (s : State) (d a b : Nat) (imm : BitVec 32) (w : BitVec 45),
    let x := readS s a
    let y := readS s b
    let gives (i : Instr) (L : Nat) (v : Word) : Prop := exec i s = .next (writeS s L d v)
    gives (.addi d a imm) 1 (BitVec.ofInt 64 (x.toNat + imm.toInt)) ∧
    gives (.andi d a imm) 1 (x &&& BitVec.ofInt 64 imm.toInt) ∧
    gives (.ori d a imm) 1 (x ||| BitVec.ofNat 64 imm.toNat) ∧
    gives (.xori d a imm) 1 (x ^^^ BitVec.ofNat 64 imm.toNat) ∧
    (imm.toNat ≤ 63 → gives (.shli d a imm) 1 (BitVec.ofNat 64 (x.toNat * 2 ^ imm.toNat)) ∧
      gives (.shri d a imm) 1 (BitVec.ofNat 64 (x.toNat / 2 ^ imm.toNat)) ∧
      gives (.srai d a imm) 1 (BitVec.ofInt 64 (x.toInt / 2 ^ imm.toNat))) ∧
    gives (.movi d w) 1 (BitVec.ofInt 64 w.toInt) ∧
    gives (.movhi d w) 1 (BitVec.ofNat 64 (w.toNat * 2 ^ 19 + (readS s d).toNat % 2 ^ 19)) ∧
    gives (.mul d a b) 3 (BitVec.ofNat 64 (x.toNat * y.toNat)) ∧
    gives (.mulh d a b) 3 (BitVec.ofInt 64 (x.toInt * y.toInt / 2 ^ 64)) ∧
    gives (.mulhu d a b) 3 (BitVec.ofNat 64 (x.toNat * y.toNat / 2 ^ 64))

/-- R159, R162 to R164: the scalar arithmetic, immediate operations, moves and multiplies. -/
def Obligations.ScalarIntegerResults : Prop :=
  Clause.ScalarArithmeticResults ∧ Clause.ScalarImmediateAndMultiplyResults

/-- R165: the reads of the special registers and loop counters, and the moves of nest-register words, have bound 1; cyc is the issue
cycle's count. -/
def Obligations.SpecialRegisterMoves : Prop :=
  ∀ (s : State) (d a w : Nat),
    exec (.rdsp d .ppw) s = .next (writeS s 1 d (me s).ppw) ∧
    exec (.rdsp d .cyc) s = .next (writeS s 1 d (BitVec.ofNat 64 s.cyc)) ∧
    exec (.rdsp d .cid) s = .next (writeS s 1 d (cidOf s)) ∧
    (∀ t, (me s).task = some t →
      exec (.rdsp d .nrg) s = .next (writeS s 1 d (BitVec.ofNat 64 (sget 0 s.nrg t.record.launch)))) ∧
    exec (.lcrd d a) s = .next (writeS s 1 d (BitVec.ofNat 64 (readLc s a).toNat)) ∧
    exec (.lcwr d a) s = .next (queueFixed s 1 [{ dst := .lc d, bits := (readS s a).toNat % 2 ^ 32 }]) ∧
    exec (.nrd d a w) s = .next (writeS s 1 d (readN s a w)) ∧
    exec (.nwr d a w) s = .next (queueFixed s 1 [{ dst := .n d, word := w, bits := (readS s a).toNat }])

/-! ### Scalar floating point -/

/-- R166, R167: the arithmetic instructions of the scalar float group send to sD, with bound 4, the exact result of IEEE arithmetic on the
decoded operands, rounded once to nearest in the format and zero-extended. -/
def Clause.ScalarFloatArithmeticResults : Prop :=
  ∀ (s : State) (d a b c : Nat) (ff : FFmt),
    let f := ffFmt ff
    let v (n : Nat) : Machine.Num := decodeNum f ((readS s n).toNat % 2 ^ fmtBits f)
    let gives (i : Instr) (x : Machine.Num) : Prop := exec i s = .next (writeS s 4 d (BitVec.ofNat 64 (encodeNum f false x)))
    gives (.fadd d a b ff) ((v a).add (v b)) ∧
    gives (.fsub d a b ff) ((v a).add (v b).neg) ∧
    gives (.fmul d a b ff) ((v a).mul (v b)) ∧
    gives (.fma d a b c ff) (((v a).mul (v b)).add (v c)) ∧
    gives (.fms d a b c ff) (((v a).mul (v b)).add (v c).neg) ∧
    gives (.fnma d a b c ff) (((v a).mul (v b)).neg.add (v c)) ∧
    gives (.fmin d a b ff) ((v a).min (v b)) ∧
    gives (.fmax d a b ff) ((v a).max (v b)) ∧
    gives (.fsqrt d a ff) (v a).sqrt ∧
    gives (.frcp d a ff) (v a).rcp ∧
    gives (.frsq d a ff) (v a).rsq ∧
    (∀ u, gives (.itof d a u ff) (.ofInt (if u then ((readS s a).toNat : Int) else (readS s a).toInt))) ∧
    (∀ rm, gives (.frnd d a rm ff) ((v a).integral rm))

/-- R167: FSQRT, FRCP and FRSQ take their special cases as listed, and of a finite non-zero operand they give a truncated magnitude of
61 bits or more whose last bit says whether anything was cut off, so that rounding it once rounds the exact value. -/
def Clause.RootsAndReciprocalsAreExact : Prop :=
  (Machine.Num.sqrt .nan = .nan ∧ Machine.Num.sqrt (.inf false) = .inf false ∧ Machine.Num.sqrt (.inf true) = .nan ∧
    Machine.Num.rcp .nan = .nan ∧ Machine.Num.rsq .nan = .nan ∧ Machine.Num.rsq (.inf false) = .fin false 0 0 ∧ Machine.Num.rsq (.inf true) = .nan ∧
    (∀ n, Machine.Num.rcp (.inf n) = .fin n 0 0) ∧
    ∀ n e, Machine.Num.sqrt (.fin n 0 e) = .fin n 0 0 ∧ Machine.Num.rcp (.fin n 0 e) = .inf n ∧ Machine.Num.rsq (.fin n 0 e) = .inf n) ∧
  ∀ (m : Nat) (e : Int), 0 < m → m < 2 ^ 64 →
    Machine.Num.sqrt (.fin true m e) = .nan ∧ Machine.Num.rsq (.fin true m e) = .nan ∧
    (∃ (q j t : Nat) (k : Int), Machine.Num.sqrt (.fin false m e) = .fin false (2 * q + t) (k - 1) ∧ e = 2 * k + j ∧ 2 ^ 60 ≤ q ∧
      q * q ≤ m * 2 ^ j ∧ m * 2 ^ j < (q + 1) * (q + 1) ∧ t ≤ 1 ∧ (t = 0 ↔ q * q = m * 2 ^ j)) ∧
    (∀ n, ∃ q k t : Nat, Machine.Num.rcp (.fin n m e) = .fin n (2 * q + t) (-(k : Int) - e - 1) ∧ 2 ^ 60 ≤ q ∧
      q * m ≤ 2 ^ k ∧ 2 ^ k < (q + 1) * m ∧ t ≤ 1 ∧ (t = 0 ↔ q * m = 2 ^ k)) ∧
    (∃ (q k t : Nat) (j : Int), Machine.Num.rsq (.fin false m e) = .fin false (2 * q + t) (j - 1) ∧ -(k : Int) - e = 2 * j ∧
      2 ^ 60 ≤ q ∧ q * q * m ≤ 2 ^ k ∧ 2 ^ k < (q + 1) * (q + 1) * m ∧ t ≤ 1 ∧ (t = 0 ↔ q * q * m = 2 ^ k))

/-- R167 to R169: FABS, FNEG and FCPYS change the sign bit alone; FCMP tests, FCLASS sets one bit, FTOI saturates, and FCVT converts
the low bits of its source, each with bound 4. -/
def Clause.ScalarFloatInspectionResults : Prop :=
  ∀ (s : State) (d a b : Nat) (ff : FFmt),
    let f := ffFmt ff
    let n := fmtBits f
    let v (r : Nat) : Machine.Num := decodeNum f ((readS s r).toNat % 2 ^ n)
    let gives (i : Instr) (x : Word) : Prop := exec i s = .next (writeS s 4 d x)
    let flag (i : Instr) (x : Bool) : Prop := exec i s = .next (writeF s 4 d x)
    let signed (i : Instr) (neg : Bool) : Prop :=
      (v a = .nan → gives i (match ff with | .b64 => 0x7FF8000000000000 | .b32 => 0x7FC00000)) ∧
      (v a ≠ .nan → ∃ x, gives i x ∧ ∀ j < 64, x.getLsbD j =
        if j + 1 < n then (readS s a).getLsbD j else (j + 1 == n && neg))
    signed (.fabs d a ff) false ∧ signed (.fneg d a ff) (!(readS s a).getLsbD (n - 1)) ∧
    signed (.fcpys d a b ff) ((readS s b).getLsbD (n - 1)) ∧
    flag (.fcmp d a b .eq ff) ((v a).eq (v b)) ∧ flag (.fcmp d a b .lt ff) ((v a).lt (v b)) ∧
    flag (.fcmp d a b .le ff) ((v a).lt (v b) || (v a).eq (v b)) ∧
    flag (.fcmp d a b .un ff) (decide (v a = .nan ∨ v b = .nan)) ∧ flag (.fcmp d a b .ne ff) (!(v a).eq (v b)) ∧
    gives (.fclass d a ff) (match v a with
      | .nan => 0x100
      | .inf true => 1
      | .inf false => 0x80
      | .fin neg m _ =>
        if m = 0 then (if neg then 8 else 0x10)
        else if m < 2 ^ (match ff with | .b64 => 52 | .b32 => 23) then (if neg then 4 else 0x20)
        else if neg then 2 else 0x40) ∧
    (∀ rm, gives (.ftoi d a false rm ff) (BitVec.ofInt 64 ((v a).toInt rm (-2 ^ 63) (2 ^ 63 - 1))) ∧
      gives (.ftoi d a true rm ff) (BitVec.ofInt 64 ((v a).toInt rm 0 (2 ^ 64 - 1)))) ∧
    ∀ src dst : Fmt,
      let x := (readS s a).toNat % 2 ^ fmtBits src
      gives (.fcvt d a dst src)
        (let y := if src = dst then x else encodeNum dst false (decodeNum src x)
         if isIntFmt dst ∨ dst = .bx8 then BitVec.ofInt 64 (BitVec.ofNat (fmtBits dst) y).toInt else BitVec.ofNat 64 y)

/-- R166 to R169: the scalar float instructions. -/
def Obligations.ScalarFloatResults : Prop :=
  Clause.ScalarFloatArithmeticResults ∧ Clause.ScalarFloatInspectionResults

/-- R169, R72: rounding m × 2^−k with its sign to an integer: .dn gives the floor, .up the ceiling, .rz drops the fraction, and .rne gives
an integer at distance at most one half, the even one at a tie; a rounded value saturates at the bounds, and NaN gives 0. -/
def Clause.IntegerRoundingModes : Prop :=
  (∀ (neg : Bool) (m k : Nat),
    let i : Int := if neg then -(m : Int) else m
    let r (rm : RMode) : Int := roundInt rm neg m (-(k : Int))
    r .dn = i / 2 ^ k ∧ r .up = -((-i) / 2 ^ k) ∧ r .rz = i.tdiv (2 ^ k) ∧
    2 * (r .rne * 2 ^ k - i).natAbs ≤ 2 ^ k ∧ (2 * (r .rne * 2 ^ k - i).natAbs = 2 ^ k → r .rne % 2 = 0)) ∧
  (∀ rm neg m (k : Nat), roundInt rm neg m k = (if neg then -(m : Int) else m) * 2 ^ k) ∧
  ∀ rm (lo hi : Int), lo ≤ hi →
    Machine.Num.toInt rm lo hi .nan = 0 ∧ Machine.Num.toInt rm lo hi (.inf true) = lo ∧ Machine.Num.toInt rm lo hi (.inf false) = hi ∧
    ∀ neg m e, Machine.Num.toInt rm lo hi (.fin neg m e) = max lo (min hi (roundInt rm neg m e))

/-- R72, R167, R169: square roots, reciprocals and the rounding of numbers to integers. -/
def Obligations.RootsAndRoundingsAreExact : Prop :=
  Clause.RootsAndReciprocalsAreExact ∧ Clause.IntegerRoundingModes

/-- R9, R65, R72: a non-NaN encoding of an IEEE format is the encoding of the value it decodes to, and so is every tapered code that
stands for a number. -/
def Obligations.DecodedValuesEncodeBack : Prop :=
  (∀ f ∈ [Fmt.b64, .b32, .b16, .bf16], ∀ rz, ∀ x < 2 ^ fmtBits f, decodeNum f x ≠ .nan →
    encodeNum f rz (decodeNum f x) = x) ∧
  (∀ rz, ∀ x < 2 ^ 8, x ≠ 0x80 → encodeNum .t8 rz (decodeNum .t8 x) = x) ∧
  (∀ rz, ∀ x < 2 ^ 6, x ≠ 0x20 → encodeNum .t6 rz (decodeNum .t6 x) = x)

/-! ### Control -/

/-- R141 to R144: a taken transfer makes an aligned target the next bundle, and traps with misaligned target otherwise; CALL and CALLR
also send PC + 64 to sA with bound 1, the target being read first; a branch that is not taken does nothing. -/
def Clause.BranchResults : Prop :=
  (∀ (s : State) (a : Nat), exec (.ret a) s = exec (.brr a 0) s) ∧
  ∀ (s : State) (a b : Nat) (off : BitVec 25),
    let x := readS s a
    let y := readS s b
    let aim (base : Word) (n : Int) : Word := BitVec.ofInt 64 (base.toNat + 64 * n)
    let goes (i : Instr) (s' : State) (t : Word) : Prop :=
      (t.toNat % 64 = 0 → exec i s = .next { s' with iss := { s'.iss with target := some t } }) ∧
      (t.toNat % 64 ≠ 0 → exec i s = .next (takeTrap s' s'.at_ (trapOf s' 0x05) (curSeq s')))
    let linked := writeS s 1 a (curPc s + 64)
    let branch (i : Instr) (c : Prop) : Prop :=
      (c → goes i s (aim (curPc s) off.toInt)) ∧ (¬ c → exec i s = .next s)
    goes (.br off) s (aim (curPc s) off.toInt) ∧ goes (.brr a off) s (aim x off.toInt) ∧
    goes (.call a off) linked (aim (curPc s) off.toInt) ∧ goes (.callr a b off) linked (aim y off.toInt) ∧
    goes (.ret a) s x ∧ goes (.btab a b off) s (aim (curPc s) (off.toInt + min x.toNat y.toNat)) ∧
    branch (.beq a b off) (x = y) ∧ branch (.bne a b off) (x ≠ y) ∧
    branch (.blt a b off) (x.toInt < y.toInt) ∧ branch (.bge a b off) (y.toInt ≤ x.toInt) ∧
    branch (.bltu a b off) (x.toNat < y.toNat) ∧ branch (.bgeu a b off) (y.toNat ≤ x.toNat)

/-- R143, R145, R146: the bundle after a bundle: a taken transfer leads to its target and ends an active loop, whose counters and
stepped registers keep their values; the return from a trap service ends no loop; without a transfer the context goes on at PC + 64, unless an active loop's body ends there. -/
def Clause.NextBundleFollowsTransfers : Prop :=
  ∀ s : State, s.iss.loopn = none → s.iss.loopTo = none →
    let c := me s
    let c' := me (nextBundle s)
    (∀ t, s.iss.target = some t → s.iss.ret.isSome = true → c' = { c with pc := t }) ∧
    (∀ t, s.iss.target = some t → s.iss.ret = none →
      c'.pc = t ∧ c'.regs.loop.active = false ∧ c'.regs.lc = c.regs.lc ∧ c'.regs.s = c.regs.s) ∧
    (s.iss.target = none → (c.regs.loop.active = false ∨ s.iss.pc + 64 ≠ c.regs.loop.endPc) →
      c' = { c with pc := s.iss.pc + 64 }) ∧
    (s.iss.target = none → c.regs.loop.active = true → s.iss.pc + 64 = c.regs.loop.endPc →
      c'.pc = (if c'.regs.loop.active then c.regs.loop.body else c.regs.loop.endPc))

/-- R141 to R146: transfers, and the bundle that follows a bundle. -/
def Obligations.TransfersAndBundleOrder : Prop :=
  Clause.BranchResults ∧ Clause.NextBundleFollowsTransfers

/-- R145 to R147: LOOPN traps with loop state in an active loop and on a malformed descriptor with its code; it skips its body where a
count is zero, and otherwise starts the loop with its descriptor and bases captured; LOOPX ends the loop it names and traps otherwise. -/
def Clause.NestLoopStartAndExit : Prop :=
  ∀ (s : State) (n bl : Nat),
    let d : List Word := (List.range 16).map fun w => readN s n w
    let l := (me s).regs.loop
    let bad := nestMalformed d = true
    let endPc := curPc s + BitVec.ofNat 64 (64 * (bl + 2))
    let total := nestCount d 0 * nestCount d 1 * nestCount d 2 * nestCount d 3 * nestCount d 4 * nestCount d 5
    (l.active = true → exec (.loopn n bl) s = .next (takeTrap s s.at_ (trapOf s 0x07) (curSeq s))) ∧
    (l.active = false → bad → exec (.loopn n bl) s = .next (takeTrap s s.at_ (trapOf s 0x08) (curSeq s))) ∧
    (l.active = false → ¬ bad → total = 0 →
      exec (.loopn n bl) s = .next { s with iss := { s.iss with loopTo := some endPc } }) ∧
    (l.active = false → ¬ bad → total ≠ 0 →
      let l' : LoopState :=
        { active := true, nest := n, body := curPc s + 64, endPc := endPc, desc := d
          base := [readS s (nestReg d 0), readS s (nestReg d 1), readS s (nestReg d 2), readS s (nestReg d 3)] }
      exec (.loopn n bl) s = .next { s with iss := { s.iss with loopn := some l' } }) ∧
    (l.active = true ∧ l.nest = n → exec (.loopx n) s = .next { s with iss := { s.iss with loopTo := some l.endPc } }) ∧
    (¬ (l.active = true ∧ l.nest = n) → exec (.loopx n) s = .next (takeTrap s s.at_ (trapOf s 0x07) (curSeq s)))

/-- R145: the advance of a nest loop counts its dimensions, innermost first, as the digits of one number in a mixed radix: it adds one,
and it ends the loop exactly after the last of the c0 × … × c5 passes.  A counter that LCWR set at or beyond its count carries as it is, and
one of the outermost dimension ends the loop. -/
def Clause.NestLoopCountsEveryPass : Prop :=
  (∀ (c : Nat → Nat) (xs : List Nat), xs.length = 6 → (∀ d, (h : d < 6) → xs.getD d 0 < c d) →
    match advanceCounts c xs with
    | none => mixedRadix c 0 xs + 1 = c 0 * c 1 * c 2 * c 3 * c 4 * c 5
    | some ys => ys.length = 6 ∧ (∀ d < 6, ys.getD d 0 < c d) ∧ mixedRadix c 0 ys = mixedRadix c 0 xs + 1) ∧
  ∀ (c : Nat → Nat) (xs : List Nat), xs.length = 6 →
    (c 5 ≤ xs.getD 5 0 → advanceCounts c xs = none) ∧
    (c 0 ≤ xs.getD 0 0 → ∀ ys, advanceCounts c xs = some ys → ys.getD 0 0 = 0)

/-- R145 to R147: nest loops start, count every pass, and end. -/
def Obligations.NestLoops : Prop :=
  Clause.NestLoopStartAndExit ∧ Clause.NestLoopCountsEveryPass

/-- R148 to R151: a WAIT whose bundle issues takes its word's token out of the wake queue; a word out of place traps.  WAITR and WAITS do
nothing more once they issue.  While the generation has not passed, the token is missing, an entry is not ready or a tile is busy,
their bundle is held. -/
def Clause.WaitResults : Prop :=
  ∀ (s : State) (a b : Nat) (sw : BitVec 17) (e : BitVec 16),
    let w := (readS s a + BitVec.ofNat 64 (16 * sw.toNat)).toNat
    let g := ofBytes (mgets s (spAddr (myCore s) (w + 10)) 2)
    let y : Nat := (readS s b).toNat % 2 ^ 16
    let trapped (t : Trap) : Prop :=
      exec (.waitG a b sw) s = .next (takeTrap s s.at_ t (curSeq s)) ∧ exec (.waitT a sw) s = .next (takeTrap s s.at_ t (curSeq s))
    (w % 16 ≠ 0 → trapped (trapOf s 0x04)) ∧ (w % 16 = 0 → mySp s ≤ w → trapped (outside s w)) ∧
    (w % 16 = 0 → w < mySp s →
      exec (.waitG a b sw) s = .next (updMe s fun c => popToken c (curSeq s) w) ∧
      exec (.waitT a sw) s = .next (updMe s fun c => popToken c (curSeq s) w) ∧
      (blocks s (.waitG a b sw) = none ↔ 1 ≤ ((g : Int) - y) % 2 ^ 16 ∧ ((g : Int) - y) % 2 ^ 16 ≤ 32767) ∧
      (blocks s (.waitT a sw) = none ↔ ∃ t ∈ (me s).wake, t.word = w)) ∧
    exec (.waitr e) s = .next s ∧ exec .waits s = .next s ∧
    (blocks s (.waitr e) = none ↔ ∀ i < 16, e.getLsbD i = true →
      (sget {} (me s).range i).word.getLsbD 48 = false ∨ (sget {} (me s).range i).word.getLsbD 49 = true) ∧
    (blocks s .waits = none ↔ ∀ n < 16, tileBusy s s.at_ n = false)

/-- R109, R152, R155 to R157: MARK, YIELD, YCHK and DONE ask for what stands at the boundary after their bundle; DONE in an active loop
traps; ISYNC forgets fetched copies, and fetches that follow read memory as it stands then or later; NOP and HINT change nothing, and PREF
and PREFW only which lines the L1s and the slices hold. -/
def Clause.BoundaryRequests : Prop :=
  ∀ s : State,
    exec .mark s = .next { s with iss := { s.iss with mark := true } } ∧
    exec .yield s = .next { s with iss := { s.iss with yield := true } } ∧
    exec .ychk s = .next { s with iss := { s.iss with check := true } } ∧
    ((me s).regs.loop.active = false → exec .done s = .next { s with iss := { s.iss with done := true, mark := true } }) ∧
    ((me s).regs.loop.active = true → exec .done s = .next (takeTrap s s.at_ (trapOf s 0x07) (curSeq s))) ∧
    exec .isync s = .next (updMe s fun c => { c with fetched := [], isync := some (s.mem, s.tlb) }) ∧
    exec .nop s = .next s ∧ exec .hint s = .next s ∧
    ∀ i ∈ [Instr.pref, .prefw], ∃ t, exec i s = .next t ∧
      t = { s with l1 := t.l1, frames := t.frames, slices := t.slices, ready := t.ready, fresh := t.fresh }

/-- R109, R148 to R152, R155 to R157: waits, and what an instruction asks for at its bundle's end. -/
def Obligations.WaitsAndBoundaries : Prop :=
  Clause.WaitResults ∧ Clause.BoundaryRequests

/-- R153: XABORT to an aligned target, with no reclaim due, brings the registers of the last completed mark back, drops the gated stores,
ends the loop, writes the code to sD and goes on at the target; a misaligned target traps, and a pending reclaim stops the context. -/
def Clause.AbortRestoresTheMark : Prop :=
  ∀ (s : State) (d a : Nat) (imm : BitVec 32),
    let x := readS s a
    let m := (me s).mark.regs
    (x.toNat % 64 ≠ 0 → exec (.xabort d a imm) s = .next (takeTrap s s.at_ (trapOf s 0x05) (curSeq s))) ∧
    (x.toNat % 64 = 0 → ¬ ((me s).reclaim = true ∧ m.pin = 0) →
      ∃ t, exec (.xabort d a imm) s = .next t ∧
        let c := ctxOf t s.at_
        c.pc = x ∧ c.regs.loop.active = false ∧ c.regs.v = m.v ∧ c.regs.m = m.m ∧ c.regs.f = m.f ∧ c.regs.lc = m.lc ∧
        c.region.gate = [] ∧ c.region.journal = [] ∧ c.inService = (me s).inService ∧
        (d ≠ 0 → sget 0 c.regs.s d = BitVec.ofNat 64 imm.toNat) ∧
        ∀ n, n ≠ d ∨ n = 0 → sget 0 c.regs.s n = sget 0 m.s n) ∧
    (x.toNat % 64 = 0 → (me s).reclaim = true → m.pin = 0 →
      ∃ t, exec (.xabort d a imm) s = .next t ∧ (ctxOf t s.at_).st = .stopping ∧ (ctxOf t s.at_).why = .reclaim ∧
        (ctxOf t s.at_).regs = m)

/-- R154: TRAP takes the user trap with its code as P0 and sA as P1. -/
def Clause.UserTrapPayload : Prop :=
  ∀ (s : State) (a : Nat) (imm : BitVec 32),
    exec (.trap a imm) s = .next (takeTrap s s.at_
      { trapOf s 0x10 with p0 := BitVec.ofNat 64 imm.toNat, p1 := readS s a } (curSeq s))

/-- R21, R22: DONE takes a task from its prologue to kernel iteration 0, or to its epilogue where the trip count is zero, from each
kernel iteration to the next and after the last to the epilogue, and from the epilogue to its end; the iteration's number stands in
the iteration register. -/
def Clause.DonePhases : Prop :=
  ∀ (c : Ctx) (t : TaskRun), c.task = some t →
    let c' := (endPhase c).1
    let kernel (i : Nat) : Prop :=
      c'.pc = t.record.ker ∧ c'.task = some { t with phase := .kernel, iter := i } ∧ (endPhase c).2 = true ∧
      (t.record.itr ≠ 0 → sget 0 c'.regs.s t.record.itr = BitVec.ofNat 64 i)
    let epilogue : Prop := c' = { c with task := some { t with phase := .epilogue }, pc := t.record.epi } ∧ (endPhase c).2 = false
    (t.phase = .prologue → t.record.trip = 0 → epilogue) ∧
    (t.phase = .prologue → t.record.trip ≠ 0 → kernel 0) ∧
    (t.phase = .kernel → t.iter + 1 < t.record.trip → kernel (t.iter + 1)) ∧
    (t.phase = .kernel → ¬ t.iter + 1 < t.record.trip → epilogue) ∧
    (t.phase = .epilogue → c'.st = .stopping ∧ c'.why = .done ∧ c'.pc = c.pc)

/-- R21, R22, R153, R154: XABORT, TRAP, and the phases DONE leads through. -/
def Obligations.AbortsTrapsAndPhases : Prop :=
  Clause.AbortRestoresTheMark ∧ Clause.UserTrapPayload ∧ Clause.DonePhases

/-! ### Vectors -/

/-- R171 to R175: each register-register integer instruction sends to vD, with bound 2, its operation on the elements of the selected lanes,
modulo 2^w; the elements of unselected lanes keep their values. -/
def Clause.VectorIntegerResults : Prop :=
  ∀ (s : State) (d a b k : Nat) (ew : ElemWidth),
    let w := ew.bits
    let x (j : Nat) : BitVec w := elOf w (readV s a) j
    let y (j : Nat) : BitVec w := elOf w (readV s b) j
    let gives (i : Instr) (f : BitVec w → BitVec w → BitVec w) : Prop := VectorResult s i 2 d k w fun j => f (x j) (y j)
    let sat (u : Bool) (i : Int) : BitVec w :=
      if u then BitVec.ofInt w (max 0 (min (2 ^ w - 1) i)) else BitVec.ofInt w (max (-2 ^ (w - 1)) (min (2 ^ (w - 1) - 1) i))
    let val (u : Bool) (x : BitVec w) : Int := if u then x.toNat else x.toInt
    gives (.vadd d a b k ew) (· + ·) ∧ gives (.vsub d a b k ew) (· - ·) ∧ gives (.vmul d a b k ew) (· * ·) ∧
    (∀ u, gives (.vmulh d a b k u ew) fun x y => BitVec.ofInt w (val u x * val u y / 2 ^ w)) ∧
    gives (.vand d a b k ew) (· &&& ·) ∧ gives (.vor d a b k ew) (· ||| ·) ∧ gives (.vxor d a b k ew) (· ^^^ ·) ∧
    gives (.vshl d a b k ew) (fun x y => x <<< (y.toNat % w)) ∧ gives (.vshr d a b k ew) (fun x y => x >>> (y.toNat % w)) ∧
    gives (.vsra d a b k ew) (fun x y => x.sshiftRight (y.toNat % w)) ∧
    gives (.vmin d a b k ew) (fun x y => if y.slt x then y else x) ∧
    gives (.vmax d a b k ew) (fun x y => if x.slt y then y else x) ∧
    gives (.vminu d a b k ew) (fun x y => if y.ult x then y else x) ∧
    gives (.vmaxu d a b k ew) (fun x y => if x.ult y then y else x) ∧
    gives (.vabs d a k ew) (fun x _ => if x.slt 0 then -x else x) ∧
    ∀ u, (gives (.vadds d a b k u ew) fun x y => sat u (val u x + val u y)) ∧
      gives (.vsubs d a b k u ew) fun x y => sat u (val u x - val u y)

/-- R176, R177: the immediate instructions and VBCAST send to vD, with bound 2, their value of the selected lanes' elements. -/
def Clause.VectorImmediateResults : Prop :=
  ∀ (s : State) (d a k : Nat) (ew : ElemWidth) (imm : BitVec 32),
    let w := ew.bits
    let x (j : Nat) : BitVec w := elOf w (readV s a) j
    let gives (i : Instr) (f : Nat → BitVec w) : Prop := VectorResult s i 2 d k w f
    gives (.vaddi d a k ew imm) (fun j => x j + BitVec.ofNat w imm.toNat) ∧
    (imm.toNat < w → gives (.vshli d a k ew imm) (fun j => x j <<< imm.toNat) ∧
      gives (.vshri d a k ew imm) (fun j => x j >>> imm.toNat) ∧
      gives (.vsrai d a k ew imm) fun j => (x j).sshiftRight imm.toNat) ∧
    gives (.vmovi d k ew imm) (fun _ => BitVec.ofNat w imm.toNat) ∧
    gives (.vbcast d a k ew) fun _ => BitVec.ofNat w (readS s a).toNat

/-- R171 to R177: the integer vector instructions. -/
def Obligations.VectorElementResults : Prop :=
  Clause.VectorIntegerResults ∧ Clause.VectorImmediateResults

/-- R178, R179: the float instructions send to vD, with bound 5, the exact result on each selected lane, rounded once to nearest. -/
def Clause.VectorFloatResults : Prop :=
  ∀ (s : State) (d a b c k : Nat),
    let v (r i : Nat) : Machine.Num := decodeNum .b32 (elOf 32 (readV s r) i).toNat
    let gives (i : Instr) (f : Machine.Num → Machine.Num → Machine.Num → Machine.Num) : Prop :=
      VectorResult s i 5 d k 32 fun j => BitVec.ofNat 32 (encodeNum .b32 false (f (v a j) (v b j) (v c j)))
    gives (.vfadd d a b k) (fun x y _ => x.add y) ∧ gives (.vfsub d a b k) (fun x y _ => x.add y.neg) ∧
    gives (.vfmul d a b k) (fun x y _ => x.mul y) ∧ gives (.vfma d a b c k) (fun x y z => (x.mul y).add z) ∧
    gives (.vfms d a b c k) (fun x y z => (x.mul y).add z.neg) ∧
    gives (.vfmin d a b k) (fun x y _ => x.min y) ∧ gives (.vfmax d a b k) (fun x y _ => x.max y) ∧
    gives (.vfabs d a k) (fun x _ _ => x.abs) ∧ gives (.vfneg d a k) (fun x _ _ => x.neg) ∧
    gives (.vfrcp d a k) (fun x _ _ => x.rcp) ∧ gives (.vfrsq d a k) (fun x _ _ => x.rsq) ∧
    gives (.vfexp d a k) fun x _ _ => x.exp2

/-- R179: the value VFEXP rounds: +0 of −∞, +∞ of +∞, NaN of NaN, and exactly 2^i of an integral i in −149 to 127. -/
def Clause.ExponentialOfIntegers : Prop :=
  Machine.Num.exp2 .nan = .nan ∧ encodeNum .b32 false (Machine.Num.exp2 (.inf true)) = 0 ∧ Machine.Num.exp2 (.inf false) = .inf false ∧
  ∀ (neg : Bool) (m n : Nat) (i : Int), -149 ≤ i → i ≤ 127 → (if neg then -(m : Int) else m) = i * 2 ^ n →
    Machine.Num.exp2 (.fin neg m (-(n : Int))) = .fin false 1 i

/-- R178, R179: the vector float instructions, and VFEXP at its exact points. -/
def Obligations.VectorFloatAndExponential : Prop :=
  Clause.VectorFloatResults ∧ Clause.ExponentialOfIntegers

/-- R180 to R185: compares and tests write a mask bit for each selected lane and 0 for each other; the mask logic combines whole masks;
MPOP counts and MANY tests the selected bits; a VNFQ that finds nothing clears its mask, and one that finds a lane takes the
non-finite trap. -/
def Clause.MaskResults : Prop :=
  ∀ (s : State) (d a b k : Nat),
    let x (i : Nat) : BitVec 32 := elOf 32 (readV s a) i
    let y (i : Nat) : BitVec 32 := elOf 32 (readV s b) i
    let f (i : Nat) : Machine.Num := decodeNum .b32 (x i).toNat
    let g (i : Nat) : Machine.Num := decodeNum .b32 (y i).toNat
    let nf (t : NfTest) (i : Nat) : Bool :=
      let special := x i &&& 0x7F800000 == 0x7F800000
      let nan := x i &&& 0x007FFFFF != 0
      special && match t with | .nf => true | .nan => nan | .inf => !nan
    let gives (i : Instr) (p : Nat → Bool) : Prop := MaskResult s i d k p
    let ma := readM s a
    let mb := readM s b
    let mk := readM s k
    gives (.vcmp d a b k .eq) (fun i => x i == y i) ∧ gives (.vcmp d a b k .ne) (fun i => x i != y i) ∧
    gives (.vcmp d a b k .lt) (fun i => (x i).slt (y i)) ∧ gives (.vcmp d a b k .ge) (fun i => !(x i).slt (y i)) ∧
    gives (.vcmp d a b k .ltu) (fun i => (x i).ult (y i)) ∧ gives (.vcmp d a b k .geu) (fun i => !(x i).ult (y i)) ∧
    gives (.vcmp d a b k .tst) (fun i => x i &&& y i != 0) ∧ gives (.vcmp d a b k .ntst) (fun i => x i &&& y i == 0) ∧
    gives (.vfcmp d a b k .eq) (fun i => (f i).eq (g i)) ∧ gives (.vfcmp d a b k .lt) (fun i => (f i).lt (g i)) ∧
    gives (.vfcmp d a b k .le) (fun i => (f i).lt (g i) || (f i).eq (g i)) ∧
    gives (.vfcmp d a b k .un) (fun i => decide (f i = .nan ∨ g i = .nan)) ∧ gives (.vfcmp d a b k .ne) (fun i => !(f i).eq (g i)) ∧
    (∀ t, gives (.vnf d a k t) (nf t)) ∧
    (∀ q t, ((∀ i < 64, mk.getLsbD i = true → nf t i = false) → exec (.vnfq d a b k q t) s = .next (writeM s d 0)) ∧
      (∀ i < 64, mk.getLsbD i = true → nf t i = true →
        ∃ r, r.code = 0x0F ∧ exec (.vnfq d a b k q t) s = .next (takeTrap s s.at_ r (curSeq s)))) ∧
    (∀ inv, let q := if inv then ~~~ mb else mb
      exec (.mand d a b inv) s = .next (writeM s d (ma &&& q)) ∧ exec (.mor d a b inv) s = .next (writeM s d (ma ||| q)) ∧
      exec (.mxor d a b inv) s = .next (writeM s d (ma ^^^ q))) ∧
    exec (.mnot d a) s = .next (writeM s d (~~~ ma)) ∧
    exec (.mpop d a k) s = .next (boardS s d (BitVec.ofNat 64 ((List.range 64).filter fun i => ma.getLsbD i && mk.getLsbD i).length)) ∧
    exec (.many d a k false) s = .next (queueBoard s [{ dst := .f d, bits := (ma &&& mk != 0).toNat }]) ∧
    exec (.many d a k true) s = .next (queueBoard s [{ dst := .f d, bits := (ma &&& mk == mk).toNat }])

/-- R186 to R190: the permutes send to vD, with bound 2, the lanes they name; VEXT sends one lane to sD and VINS replaces one lane. -/
def Clause.PermuteResults : Prop :=
  (∀ d < 64, ∀ a < 64, ∀ b < 64, ∀ c < 8, ∀ k < 8, let w (op c : Nat) : BitVec 64 := BitVec.ofNat 64 (op * 2 ^ 56 + d * 2 ^ 45 + a * 2 ^ 39 + b * 2 ^ 33 + c * 2 ^ 27 + k * 2 ^ 24)
    decodeSlot .v (w 0x48 0) = some ⟨0, false, .vperm d a b k, 0⟩ ∧ decodeSlot .v (w 0x4B c) = some ⟨0, false, .vsel d a b c k, 0⟩) ∧
  ∀ (s : State) (d a b c k : Nat),
    let x (i : Nat) : BitVec 32 := elOf 32 (readV s a) i
    let y (i : Nat) : BitVec 32 := elOf 32 (readV s b) i
    let n := (readS s b).toNat
    let gives (i : Instr) (f : Nat → BitVec 32) : Prop := VectorResult s i 2 d k 32 f
    gives (.vperm d a b k) (fun i => if (y i).toNat < 64 then x (y i).toNat else 0) ∧
    gives (.vshuf d a b k .ziplo) (fun i => if i % 2 = 0 then x (i / 2) else y (i / 2)) ∧
    gives (.vshuf d a b k .ziphi) (fun i => if i % 2 = 0 then x (32 + i / 2) else y (32 + i / 2)) ∧
    gives (.vshuf d a b k .even) (fun i => if i < 32 then x (2 * i) else y (2 * i - 64)) ∧
    gives (.vshuf d a b k .odd) (fun i => if i < 32 then x (2 * i + 1) else y (2 * i - 63)) ∧
    gives (.vshuf d a b k .rev) (fun i => x (63 - i)) ∧
    gives (.vrot d a b k false) (fun i => x ((i + n) % 64)) ∧
    gives (.vrot d a b k true) (fun i => if i + n < 64 then x (i + n) else 0) ∧
    gives (.vsel d a b c k) (fun i => if (readM s c).getLsbD i then x i else y i) ∧
    (∀ sg, exec (.vext d a b sg) s =
      .next (boardS s d (if sg then (x (n % 64)).signExtend 64 else (x (n % 64)).zeroExtend 64))) ∧
    ∃ v, exec (.vins d a b) s = .next (writeV s 2 d v) ∧
      ∀ i < 64, elOf 32 v i = if i = n % 64 then (readS s a).extractLsb' 0 32 else elOf 32 (readV s d) i

/-- R180 to R190: masks, permutes and lane moves. -/
def Obligations.MaskAndPermuteResults : Prop :=
  Clause.MaskResults ∧ Clause.PermuteResults

/-- R191: VCVT sends to vD, with bound 4, the converted low bits of each selected lane, integers sign-extended.  R193: VUNPK puts element
64 × P + i of its source into lane i. -/
def Clause.ConversionResults : Prop :=
  (∀ (s : State) (d a k : Nat) (dst src : Fmt), fmtBits dst ≤ 32 → fmtBits src ≤ 32 →
    VectorResult s (.vcvt d a k dst src) 4 d k 32 fun i =>
      let x := (elOf 32 (readV s a) i).toNat % 2 ^ fmtBits src
      let y := if src = dst then x else encodeNum dst false (decodeNum src x)
      if isIntFmt dst then (BitVec.ofNat (fmtBits dst) y).signExtend 32 else BitVec.ofNat 32 y) ∧
  ∀ (s : State) (d a k p : Nat) (src : Fmt), src ∈ [Fmt.b16, .bf16, .i8, .i16, .t8, .t6, .bx8] →
    let bits := fmtBits src
    p < 256 / (64 * ((bits + 7) / 8)) →
    VectorResult s (.vunpk d a k p src) 4 d k 32 fun i =>
      let e : BitVec bits := (readV s a).extractLsb' (bits * (64 * p + i)) bits
      if isIntFmt src ∨ src = .bx8 then e.signExtend 32 else BitVec.ofNat 32 (encodeNum .b32 false (decodeNum src e.toNat))

/-- R192: VPACK sends to vD, with bound 4, its image with element 64 × P + i converted from each selected lane i; a taper-6 group with a
selected element has code 0 at its unselected positions, and every other element keeps its value. -/
def Clause.PackResult : Prop :=
  ∀ (s : State) (d a k p : Nat) (s32 : Bool) (dst : Fmt), dst ∈ [Fmt.b16, .bf16, .i8, .i16, .t8, .t6] →
    let bits := fmtBits dst
    let sel (i : Nat) : Bool := (readM s k).getLsbD i
    p < 256 / (64 * ((bits + 7) / 8)) →
    ∃ v, exec (.vpack d a k s32 p dst) s = .next (writeV s 4 d v) ∧
      ∀ n < 2048 / bits, elOf bits v n =
        let i := n - 64 * p
        let old := elOf bits (readV s d) n
        if 64 * p ≤ n ∧ i < 64 then
          (if sel i then BitVec.ofNat bits (convertNum (if s32 then .i32 else .b32) dst (elOf 32 (readV s a) i).toNat)
           else if dst == .t6 && (List.range 4).any (fun j => sel (i / 4 * 4 + j)) then 0 else old)
        else old

/-- R191 to R193: conversions, packs and unpacks. -/
def Obligations.ConversionAndPackResults : Prop :=
  Clause.ConversionResults ∧ Clause.PackResult

/-- R194: the integer reductions send to sD the exact sum, the smallest or the largest of the selected elements, or the value for none. -/
def Clause.IntegerReductionResults : Prop :=
  ∀ (s : State) (d a k : Nat) (u : Bool) (ew : ElemWidth),
    let w := ew.bits
    let x (j : Nat) : Int := if u then (elOf w (readV s a) j).toNat else (elOf w (readV s a) j).toInt
    let js := (List.range (2048 / w)).filter fun j => (readM s k).getLsbD (j * w / 32)
    exec (.vradd d a k u ew) s = .next (boardS s d (BitVec.ofInt 64 (js.map x).sum)) ∧
    (∃ r, exec (.vrmin d a k u ew) s = .next (boardS s d (BitVec.ofInt 64 r)) ∧
      (js = [] → r = if u then 2 ^ w - 1 else 2 ^ (w - 1) - 1) ∧ (js ≠ [] → ∃ j ∈ js, r = x j) ∧ ∀ j ∈ js, r ≤ x j) ∧
    (∃ r, exec (.vrmax d a k u ew) s = .next (boardS s d (BitVec.ofInt 64 r)) ∧
      (js = [] → r = if u then 0 else -2 ^ (w - 1)) ∧ (js ≠ [] → ∃ j ∈ js, r = x j) ∧ ∀ j ∈ js, x j ≤ r)

/-- R195, R196: VRFADD adds the selected lanes in its one order, a pairwise tree or ascending, unselected lanes counting as −0; VRFMIN and
VRFMAX give the smallest or largest selected lane, a NaN where there is one, −0 below +0, and an infinity where none is selected. -/
def Clause.FloatReductionResults : Prop :=
  ∀ (s : State) (d a k : Nat),
    let add (x y : Nat) : Nat := encodeNum .b32 false ((decodeNum .b32 x).add (decodeNum .b32 y))
    let t : List Nat := (List.range 64).map fun i =>
      if (readM s k).getLsbD i then (elOf 32 (readV s a) i).toNat else 0x80000000
    let level (t : List Nat) : List Nat :=
      (List.range (t.length / 2)).map fun i => add (t.getD (2 * i) 0) (t.getD (2 * i + 1) 0)
    let js := (List.range 64).filter (readM s k).getLsbD
    let f (j : Nat) : Machine.Num := decodeNum .b32 (elOf 32 (readV s a) j).toNat
    exec (.vrfadd d a k false) s = .next (boardS s d (BitVec.ofNat 64 ((level (level (level (level (level (level t)))))).getD 0 0))) ∧
    exec (.vrfadd d a k true) s = .next (boardS s d (BitVec.ofNat 64 (t.foldl add 0x80000000))) ∧
    (∃ r, exec (.vrfmin d a k) s = .next (boardS s d (BitVec.ofNat 64 (encodeNum .b32 false r))) ∧
      (js = [] → r = .inf false) ∧ ((∃ j ∈ js, f j = .nan) → r = .nan) ∧
      (js ≠ [] → (∀ j ∈ js, f j ≠ .nan) →
        (∃ j ∈ js, r = f j) ∧ ∀ j ∈ js, (f j).lt r = false ∧ ((f j).isNegZero = true → r.eq (f j) = true → r.isNegZero = true))) ∧
    (∃ r, exec (.vrfmax d a k) s = .next (boardS s d (BitVec.ofNat 64 (encodeNum .b32 false r))) ∧
      (js = [] → r = .inf true) ∧ ((∃ j ∈ js, f j = .nan) → r = .nan) ∧
      (js ≠ [] → (∀ j ∈ js, f j ≠ .nan) →
        (∃ j ∈ js, r = f j) ∧ ∀ j ∈ js, r.lt (f j) = false ∧ (r.isNegZero = true → r.eq (f j) = true → (f j).isNegZero = true)))

/-- R194 to R196: the reductions. -/
def Obligations.ReductionResults : Prop :=
  Clause.IntegerReductionResults ∧ Clause.FloatReductionResults

/-! ### Matrix -/

/-- R213: MZERO, MMOV, MTRN and MWRV queue the new image of their tile or pair, and MRDV sends lanes to vD with bound 40; what is neither
covered nor selected keeps its value. -/
def Clause.TileMoveResults : Prop :=
  ∀ (s : State) (d a k h : Nat),
    let mcfg := (me s).regs.mcfg
    let rows := 32 - (mcfg.extractLsb' 8 5).toNat
    let cols := 32 - (mcfg.extractLsb' 16 5).toNat
    let single (i : Instr) (f : Nat → Nat → BitVec 32) : Prop :=
      ∃ v : TileImage, exec i s = .next (queueBoard (shadowPair s d false) [{ dst := .q d, bits := v.toNat }]) ∧
        ∀ r < 32, ∀ c < 32, tileEl 32 v (32 * r + c) = f r c
    let pair (i : Instr) (f : Nat → Nat → BitVec 64) : Prop :=
      ∃ v w : TileImage, exec i s = .next (queueBoard (shadowPair s d true)
          [{ dst := .q d, bits := v.toNat }, { dst := .q (d + 1), bits := w.toNat }]) ∧
        ∀ r < 32, ∀ c < 32, tileEl 64 (if r < 16 then v else w) (32 * (r % 16) + c) = f r c
    let q32 (t r c : Nat) : BitVec 32 := tileEl 32 (readQ s t) (32 * r + c)
    let q64 (t r c : Nat) : BitVec 64 := tileEl 64 (readQ s (t + r / 16)) (32 * (r % 16) + c)
    single (.mzero d false) (fun r c => if r < rows ∧ c < cols then 0 else q32 d r c) ∧
    pair (.mzero d true) (fun r c => if r < rows ∧ c < cols then 0 else q64 d r c) ∧
    single (.mmov d a false) (q32 a) ∧ pair (.mmov d a true) (q64 a) ∧
    single (.mtrn d a false) (fun r c => q32 a c r) ∧ pair (.mtrn d a true) (fun r c => q64 a c r) ∧
    (∃ v : TileImage, exec (.mwrv d a k h) s = .next (queueBoard (shadowTile s d) [{ dst := .q d, bits := v.toNat }]) ∧
      ∀ n < 1024, tileEl 32 v n =
        if n / 64 = h ∧ (readM s k).getLsbD (n % 64) = true then elOf 32 (readV s a) (n % 64) else tileEl 32 (readQ s d) n) ∧
    VectorResult s (.mrdv d a k h) 40 d k 32 fun i => tileEl 32 (readQ s a) (64 * h + i)

/-- R208, R214, R215: MPSET and MCSET send their register with bound 1, MCSET trapping on a reserved bit; MSRD reads them; MQWAIT does
nothing more once it executes; MRPWR abandons or restarts a suspended pass, or writes mrp, and traps where the value fits neither.  A
restart within the K-block that was suspended keeps the rows fetched of it. -/
def Clause.MatrixRegisterResults : Prop :=
  ∀ (s : State) (d a : Nat),
    let x := readS s a
    let c := me s
    let put (old : Word) (t : State) : State := updMe t fun c => { c with mrp := (x &&& ~~~ 0x3C0002) ||| (old &&& 0x3C0002) }
    let traps (i : Instr) : Prop := exec i s = .next (takeTrap s s.at_ (trapOf s 0x04) (curSeq s))
    exec (.mpset a) s = .next (queueFixed s 1 [{ dst := .mpat, bits := x.toNat % 2 ^ 32 }]) ∧
    (x &&& 0xFFFFFFFFFFE0E0FC = 0 → exec (.mcset a) s = .next (queueFixed s 1 [{ dst := .mcfg, bits := x.toNat }])) ∧
    (x &&& 0xFFFFFFFFFFE0E0FC ≠ 0 → traps (.mcset a)) ∧
    exec (.msrd d .mcfg) s = .next (boardS s d c.regs.mcfg) ∧
    exec (.msrd d .mpat) s = .next (boardS s d (BitVec.ofNat 64 c.regs.mpat.toNat)) ∧
    exec (.msrd d .mrp) s = .next (boardS s d c.mrp) ∧
    (∀ all, exec (.mqwait a all) s = .next s) ∧
    (x.toNat / 2 ^ 22 ≠ 0 → traps (.mrpwr a)) ∧
    (x.toNat / 2 ^ 22 = 0 → suspendedPass s s.at_ = none →
      (x.getLsbD 0 = true → traps (.mrpwr a)) ∧ (x.getLsbD 0 = false → exec (.mrpwr a) s = .next (put c.mrp s))) ∧
    (∀ p, x.toNat / 2 ^ 22 = 0 → suspendedPass s s.at_ = some p →
      let tile := (x.extractLsb' 2 4).toNat
      let kbn := (x.extractLsb' 6 6).toNat
      -- a service that completed in the cycle of the MRPWR comes after it
      (x.getLsbD 0 = false → exec (.mrpwr a) s =
        .next (put (if p.susp.served = some s.cyc then c.mrp &&& ~~~ 2 else c.mrp) (abandonPass s (myCore s) p))) ∧
      (x.getLsbD 0 = true → (tile ≠ p.q ∨ p.kb ≤ kbn) → traps (.mrpwr a)) ∧
      (x.getLsbD 0 = true → tile = p.q → kbn < p.kb → exec (.mrpwr a) s = .next (put c.mrp (requeuePass s (myCore s) { p with
        kbn := kbn, st := .waiting
        susp := { p.susp with op := x.getLsbD 12, row := (x.extractLsb' 13 5).toNat, rdy := true, kept := if p.kbn = kbn then p.susp.kept else some ([], []) } }))))

/-- R208, R213 to R215: tile moves and the matrix registers. -/
def Obligations.TilesAndMatrixRegisters : Prop :=
  Clause.TileMoveResults ∧ Clause.MatrixRegisterResults

/-- R199 to R202, R210: an MMA whose operands pass the checks hands its unit a pass that captures its operands, mcfg and mpat, and traps on
a misplaced operand; SCX gives its exponent to exactly the partial sum that stands on its tile's port in this cycle. -/
def Clause.PassAndScaleResults : Prop :=
  (∀ (s : State) (q aa as ba bs : Nat) (fmt : Fmt) (kb : Nat) (z wb wa : Bool),
    let mcfg := (me s).regs.mcfg
    let f := resolveFmt s fmt ⟨wa, (readS s aa).toNat⟩
    let rowsA := operandRows false mcfg (readS s aa) (readS s as) f (kb + 1)
    let rowsB := operandRows true mcfg (readS s ba) (readS s bs) f (kb + 1)
    let bad := misplaced f (readS s aa) (readS s as) = true ∨ misplaced f (readS s ba) (readS s bs) = true
    (bad → exec (.mma q aa as ba bs fmt kb z wb wa) s = .next (takeTrap s s.at_ (trapOf s 0x04) (curSeq s))) ∧
    (¬ bad → checkRows s wa .read rowsA = none → checkRows s wb .read rowsB = none →
      (fmt = .raw → isOperandFmt f = true ∧ ¬ (f = .b64 ∧ q % 2 = 1)) →
      banksConflict (fmt == .raw) f (rowBanks s wa rowsA ++ rowBanks s wb rowsB) = false →
      ∃ t p, exec (.mma q aa as ba bs fmt kb z wb wa) s = .next t ∧
        (coreAt t (myCore s)).passes = (coreAt s (myCore s)).passes ++ [p] ∧
        p.q = q ∧ p.pair = (f == .b64) ∧ p.fmt = f ∧ p.kb = kb + 1 ∧ p.kbn = 0 ∧ p.st = .waiting ∧ p.z = z ∧ p.wa = wa ∧ p.wb = wb ∧
        p.aBase = readS s aa ∧ p.aStride = readS s as ∧ p.bBase = readS s ba ∧ p.bStride = readS s bs ∧
        p.mcfg = mcfg ∧ p.mpat = (me s).regs.mpat ∧ p.exec = s.cyc ∧ t.mem = s.mem ∧ (me t).regs = (me s).regs)) ∧
  ∀ (s : State) (d a : Nat),
    let g : Int := max (-2000) (min 2000 (readS s a).toInt)
    let onPort (m : PortSum) : Bool := m.ctx == s.at_ % 4 && m.at_ == s.cyc &&
      (coreAt s (myCore s)).passes.any fun r => r.id == m.pass && r.q == d
    exec (.scx d a) s = .next (updCore s (myCore s) fun u =>
      { u with sums := u.sums.map fun m => if onPort m then { m with scx := m.scx ++ [g] } else m })

/-- R211, R64, R81: the bytes of a drain: those of row i stand from the base plus i strides on, element j of the row at z(j), converted; a
taper-6 row is written in whole groups.  An MDRN whose destination passes the checks queues those in its core's scratchpad, with bound 40, and
gates every other one at its intermediate address; one that is misplaced, or whose banks conflict or name no operand format, traps. -/
def Clause.ScratchDrainResult : Prop :=
  (∀ (s : State) (a b c : Nat) (p : Bool) (f : Fmt),
    let mcfg := (me s).regs.mcfg
    let rows := 32 - (mcfg.extractLsb' 8 5).toNat
    let cols := 32 - (mcfg.extractLsb' 16 5).toNat
    let len := if f = .t6 then 3 * ((cols + 3) / 4) else cols * fmtBytes f
    let el (i j : Nat) : Nat :=
      if p then (tileEl 64 (readQ s (a + i / 16)) (32 * (i % 16) + j)).toNat else (tileEl 32 (readQ s a) (32 * i + j)).toNat
    let bytes := drainBytes s a p f (drainRows mcfg (readS s b) (readS s c) f)
    let at_ (i o : Nat) : Nat × Byte := bytes.getD (i * len + o) (0, 0)
    bytes.length = rows * len ∧
    ∀ i < rows, (∀ o < len, (at_ i o).1 = (readS s b + readS s c * BitVec.ofNat 64 i).toNat + o) ∧
      ∀ j < cols, ofBytes ((List.range len).map fun o => (at_ i o).2) / 2 ^ (fmtBits f * j) % 2 ^ fmtBits f =
        drainNum (if p then .b64 else .b32) f (el i j) % 2 ^ fmtBits f) ∧
  ∀ (s : State) (a b c : Nat) (p w : Bool) (fmt : Fmt),
    let f := resolveFmt s fmt ⟨w, (readS s b).toNat⟩
    let rows := drainRows (me s).regs.mcfg (readS s b) (readS s c) f
    let bytes := drainBytes s a p f rows
    let own := drainOwn s w bytes
    let conflict := (fmt = .raw ∧ isOperandFmt f = false) ∨ banksConflict (fmt == .raw) f (rowBanks s w rows) = true
    let run := exec (.mdrn a b c p w fmt) s
    (misplaced f (readS s b) (readS s c) = true → run = .next (takeTrap s s.at_ (trapOf s 0x04) (curSeq s))) ∧
    (misplaced f (readS s b) (readS s c) = false → checkRows s w .write rows = none →
      (conflict → run = .next (takeTrap s s.at_ (trapOf s 0x0D) (curSeq s))) ∧
      (¬ conflict → own.length = bytes.length → run = .next (queue s [] (.stores none own) false 40)) ∧
      ∀ r, ¬ conflict → own.length ≠ bytes.length → rangeFind (mapped s) (readS s b).toNat = some r →
        let g := gateStore s (readS s b).toNat (drainFar s w r bytes)
        run = .next (if own.isEmpty then g else queue g [] (.stores none own) false 40) ∧
        ∀ x v, (x, v) ∈ bytes → (∀ off, placeScratch s ⟨w, x⟩ ≠ some (myCore s, off)) → (rangeMap r x, v) ∈ drainFar s w r bytes)

/-- R212, R299: an MDRNB to memory, with a chunk record in a page marked memory-side that the context may write, puts every drained byte in the
store gate at its intermediate address and counts the tile into the chunk when the region's stores have performed; a scratchpad destination or a
misaligned handle traps, and so does a record in a page that is neither writable nor copied when written (R394), or not marked memory-side. -/
def Clause.ChunkDrainResult : Prop :=
  ∀ (s : State) (d a b c : Nat) (p : Bool) (fmt : Fmt) (ia : Nat),
    let rows := drainRows (me s).regs.mcfg (readS s b) (readS s c) fmt
    let bytes := drainBytes s a p fmt rows
    let run := exec (.mdrnb d a b c p false fmt) s
    let illegal : Prop := run = .next (takeTrap s s.at_ (trapOf s 0x04) (curSeq s))
    (∀ fmt', exec (.mdrnb d a b c p true fmt') s = .next (takeTrap s s.at_ (trapOf s 0x04) (curSeq s))) ∧
    (drainsToScratch s b c fmt = true → illegal) ∧ ((readS s d).toNat % 64 ≠ 0 → illegal) ∧
    (drainsToScratch s b c fmt = false → (readS s d).toNat % 64 = 0 → rangeCheck (mapped s) (readS s d).toNat 64 .write = .ok ia →
      (memorySide s ia = false → illegal) ∧
      (memorySide s ia = true → recordProtected s ia = true →
        run = .next (takeTrap s s.at_ (addrTrap s 0x0A (readS s d).toNat ia) (curSeq s))) ∧
      ∀ r, fmt ≠ .raw → memorySide s ia = true → recordProtected s ia = false → misplaced fmt (readS s b) (readS s c) = false →
        checkRows s false .write rows = none → banksConflict false fmt (rowBanks s false rows) = false →
        drainOwn s false bytes = [] → rangeFind (mapped s) (readS s b).toNat = some r →
        let far := bytes.map fun e => (rangeMap r e.1, e.2)
        let gs : List GateByte := far.map fun (x, v) =>
          { ia := x, byte := v, store := s.nextId, pl := (me s).pl, pc := curPc s, seq := curSeq s, slot := curSlot s, va := (readS s b).toNat
            exec := s.cyc }
        run = .next (updMe (gateStore s (readS s b).toNat far) fun c =>
          updRegion c (curSeq s) fun g => { g with chunks := g.chunks ++ [ia] }) ∧
        (regionOf (me (gateStore s (readS s b).toNat far)) (curSeq s)).gate =
          gateIns gs (curSeq s, curSlot s) (regionOf (me s) (curSeq s)).gate ∧
        (gateStore s (readS s b).toNat far).mem = s.mem)

/-- R211, R212: drains to a scratchpad and under a chunk record. -/
def Obligations.DrainResults : Prop :=
  Clause.ScratchDrainResult ∧ Clause.ChunkDrainResult

/-- R76, R79: the fold of a K-block whose cell operations are all MAD adds to each covered element the exact sum of its products times 2^g,
rounded once, and leaves every other element; it takes the partial sum off the port. -/
def Obligations.FoldAddsTheExactSum : Prop :=
  ∀ (s : State) (m : PortSum) (p : Pass),
    (coreAt s s.subj.core).sums.find? (fun x => x.id == s.subj.id) = some m →
    passOf (updCore s s.subj.core fun u => { u with sums := u.sums.filter fun x => x.id != m.id }) s.subj.core m.pass = some p →
    p.fmt ∈ [Fmt.t8, .t6, .b16, .bf16] → p.mpat = 0 → p.pair = false →
    ∃ t, exec .kBlockFold s = .next t ∧
      (coreAt t s.subj.core).sums = (coreAt s s.subj.core).sums.filter (fun x => x.id != m.id) ∧
      let k := 4 * s.subj.core + p.ctx
      ∀ i < 32, ∀ j < 32,
        let old := tileEl 32 (sget 0 (ctxOf s k).q p.q) (32 * i + j)
        let sum : Machine.Num := (List.range 32).foldl (fun (x : Machine.Num) n => x.add ((blockElem false p m.bytesA i n).mul (blockElem true p m.bytesB j n)))
          (Num.fin false 0 0)
        tileEl 32 (sget 0 (ctxOf t k).q p.q) (32 * i + j) =
          if i < rowsOf p.mcfg ∧ j < colsOf p.mcfg then
            BitVec.ofNat 32 (encodeNum .b32 false ((decodeNum .b32 old.toNat).add (sum.scale m.scx.sum)))
          else old

/-- R198, R203, R206, R207: the unit starts the first pass it may; a paced K-block of scratchpad operands issues and stands on the port nine
cycles later; a fetch that meets a fault suspends its pass, keeps the rows fetched before it and shows it in mrp; a served pass waits to restart with RDY set; a
failed service abandons the pass and raises the operand fault. -/
def Clause.MatrixUnitSteps : Prop :=
  ∀ (s : State) (p : Pass),
    let core := s.subj.core
    let u := coreAt s core
    let k := 4 * core + p.ctx
    (u.passes.any Pass.runs = false → u.passes.find? (Pass.starts u.passes) = some p →
      ∃ t, exec .passStart s = .next t ∧
        (coreAt t core).passes = u.passes.map fun r => if r.id == p.id then
          { p with st := .running, due := max ((if p.susp.rdy then s.cyc else p.exec) + 2) u.portFree } else r) ∧
    (passOf s core s.subj.id = some p → p.runs = true → p.stop = false → p.kbn = s.subj.val → p.due ≤ s.cyc →
      p.wa = true → p.wb = true → p.fmt ∈ [Fmt.t8, .t6, .b16, .bf16] →
      ∃ t m, exec .kBlockIssue s = .next t ∧ (coreAt t core).sums = u.sums ++ [m] ∧
        m.pass = p.id ∧ m.kb = p.kbn ∧ m.at_ = s.cyc + 9 ∧ m.scx = [] ∧ (coreAt t core).portFree = s.cyc + cpk p.fmt) ∧
    (∀ (s₁ s₂ : State) (a b : List (List Byte)), passOf s core s.subj.id = some p → p.runs = true →
      fetchOperand s k p false (if s.subj.flag then 32 else s.subj.val) = (s₁, a, none) →
      fetchOperand s₁ k p true (if s.subj.flag then s.subj.val else 0) = (s₂, b, none) →
      ∃ t, exec .passSuspend s = .next t ∧
        (∀ r, passOf t core p.id = some r → r.st = .suspended ∧ r.kbn = p.kbn ∧ r.susp.op = s.subj.flag ∧ r.susp.row = s.subj.val ∧
          r.susp.kept = some (a, if s.subj.flag then b else [])) ∧
        (ctxOf t k).mrp = BitVec.ofNat 64 (1 + p.q * 2 ^ 2 + p.kbn * 2 ^ 6 + s.subj.flag.toNat * 2 ^ 12 + s.subj.val * 2 ^ 13 +
          (match s.subj.cause with | .notPresent => 1 | .cxlTier => 2 | .uncorrectable => 3) * 2 ^ 18)) ∧
    (passOf s core s.subj.id = some p → p.st = .suspended → p.susp.fc = 3 → p.susp.since ≠ s.cyc →
      ∃ t, exec .passFaultServed s = .next t ∧ (ctxOf t k).mrp = (ctxOf s k).mrp ||| 2 ∧
        (coreAt t core).passes = u.passes.filter (fun r => r.id != p.id) ++
          [{ p with st := .waiting, susp := { p.susp with rdy := true, served := some s.cyc } }]) ∧
    (passOf s core s.subj.id = some p → p.st = .suspended →
      ∃ t r, exec .passAbandon s = .next t ∧ r ∈ (ctxOf t k).async ∧ r.code = 0x0E ∧ r.p0 = BitVec.ofNat 64 p.susp.va ∧
        r.p1 = BitVec.ofNat 64 p.susp.ia ∧ r.p2 = (ctxOf t k).mrp ∧
        (ctxOf t k).mrp = BitVec.ofNat 64 (p.q * 2 ^ 2 + p.kbn * 2 ^ 6 + p.susp.op.toNat * 2 ^ 12 + p.susp.row * 2 ^ 13 + 4 * 2 ^ 18))

/-- R198 to R203, R206, R207, R210: matrix passes, from MMA to their end. -/
def Obligations.MatrixPassesRun : Prop :=
  Clause.PassAndScaleResults ∧ Clause.MatrixUnitSteps

/-! ### Loads -/

/-- R216, R217, R219: a scalar load from the core's own scratchpad sends its element, extended as its size says, to sD within 6 cycles; one
through a range register is scoreboarded, and is bound when it lands where a byte lies beyond the core's scratchpad.  Bytes outside
the scratchpad, the range register or the windows the context may reach trap. -/
def Clause.ScalarLoadResults : Prop :=
  ∀ (s : State) (d a b : Nat) (sz : MSize) (off : BitVec 27),
    let n := sizeBytes sz
    let ext (x : Nat) : Word := match sz with
      | .u8 | .u16 | .u32 | .d => BitVec.ofNat 64 x
      | .s8 => (BitVec.ofNat 8 x).signExtend 64
      | .s16 => (BitVec.ofNat 16 x).signExtend 64
      | .s32 => (BitVec.ofNat 32 x).signExtend 64
    let result (ia x : Nat) : List RegWrite :=
      [{ dst := .s d, bits := (ext (ofBytes ((List.range n).map fun j => ownByte s (ia + j) (x + j)))).toNat }]
    let traps (i : Instr) (code va ia : Nat) : Prop := exec i s = .next (takeTrap s s.at_ (addrTrap s code va ia) (curSeq s))
    let own (i : Instr) (ea : Nat) : Prop :=
      (ea + n ≤ mySp s → exec i s = .next (queue s [.s d] (.bits (result ea ea)) false 6)) ∧
      (mySp s < ea + n → traps i 0x0B 0 (spAddr (myCore s) ea))
    let paged (i : Instr) (ea : Nat) : Prop :=
      (∀ code va ia, rangeCheck (mapped s) ea n .read = .trap code va ia → traps i code va ia) ∧
      (∀ ia, rangeCheck (mapped s) ea n .read = .ok ia →
        (mayReach s false ia = false → traps i 0x0B ea ia) ∧
        (mayReach s false ia = true → mayReach s false (ia + (n - 1)) = false → traps i 0x0B (ea + (n - 1)) (ia + (n - 1))) ∧
        (mayReach s false ia = true → mayReach s false (ia + (n - 1)) = true →
          (∀ x, (∀ j < n, ownOffset s (ia + j) = some (x + j)) → exec i s = .next (queueBoard s (result ia x))) ∧
          ((∃ j < n, ownOffset s (ia + j) = none) → exec i s = .next (queue s [.s d]
            (.load (.s d) (.scalar sz) (BitVec.ofNat 64 ea)
              ((List.range n).map fun j => ⟨j, ia + j, gateByte s (ia + j)⟩)) false 0))))
    let ea := (readS s a + BitVec.ofInt 64 off.toInt).toNat
    let ex := (readS s a + readS s b * BitVec.ofNat 64 n).toNat
    own (.ld d a sz true off) ea ∧ own (.ldx d a b true sz) ex ∧ paged (.ld d a sz false off) ea ∧ paged (.ldx d a b false sz) ex

/-- R216, R217, R220: the vector loads read only the bytes of selected lanes.  With W = 1 their result has bound 6; a selected lane outside
the scratchpad traps.  With W = 0 the bytes pass through one range register. -/
def Clause.VectorLoadResults : Prop :=
  ∀ (s : State) (d a b k sh : Nat) (sz : MSize) (off : BitVec 27),
    let ea := readS s a + BitVec.ofInt 64 off.toInt
    let sel (i : Nat) : Bool := (readM s k).getLsbD i
    let lanes := (List.range 64).filter sel
    let traps (i : Instr) (code va ia : Nat) : Prop := exec i s = .next (takeTrap s s.at_ (addrTrap s code va ia) (curSeq s))
    let own (x n : Nat) : Nat := ofBytes ((List.range n).map fun o => ownByte s (x + o) (x + o))
    let word (x : Nat) : BitVec 32 := BitVec.ofNat 32 (own x 4)
    let gives (i : Bool → Instr) (addr : Nat → Nat) : Prop :=
      ((∀ j < 64, sel j = true → addr j + 4 ≤ mySp s) → VectorResult s (i true) 6 d k 32 fun j => word (addr j)) ∧
      ((∃ j < 64, sel j = true ∧ mySp s < addr j + 4) → ∃ ia, traps (i true) 0x0B 0 ia) ∧
      (∀ lo ia, checkSpans s false false .read (lanes.map fun j => (addr j, 4)) = .ok lo ia →
        exec (i false) s = .next (loadInto s (.v d) false (.lanes (readV s d)) lo ia
          (lanes.flatMap fun j => (List.range 4).map fun o => (4 * j + o, addr j + o)))) ∧
      ∀ code va ia, checkSpans s false false .read (lanes.map fun j => (addr j, 4)) = .trap code va ia → traps (i false) code va ia
    let elem : BitVec 32 :=
      let x := own ea.toNat (sizeBytes sz)
      match sz with
      | .s8 => (BitVec.ofNat 8 x).signExtend 32
      | .s16 => (BitVec.ofNat 16 x).signExtend 32
      | _ => BitVec.ofNat 32 x
    gives (fun w => .vld d a k w off) (fun j => (ea + BitVec.ofNat 64 (4 * j)).toNat) ∧
    gives (fun w => .vlds d a b k w) (fun j => (readS s a + readS s b * BitVec.ofNat 64 j).toNat) ∧
    gives (fun w => .vgth d a b k w sh)
      (fun j => (readS s a + BitVec.ofNat 64 ((elOf 32 (readV s b) j).toNat * 2 ^ sh)).toNat) ∧
    (ea.toNat + sizeBytes sz ≤ mySp s → VectorResult s (.vldb d a k sz true off) 6 d k 32 fun _ => elem) ∧
    (mySp s < ea.toNat + sizeBytes sz → readM s k ≠ 0 → ∃ ia, traps (.vldb d a k sz true off) 0x0B 0 ia) ∧
    ∀ lo ia, readM s k ≠ 0 → checkSpans s false false .read [(ea.toNat, sizeBytes sz)] = .ok lo ia →
      exec (.vldb d a k sz false off) s = .next (loadInto s (.v d) false (.bcast sz (readV s d) (readM s k)) lo ia
        ((List.range (sizeBytes sz)).map fun o => (o, ea.toNat + o)))

/-- R216, R217, R219, R220: scalar and vector loads. -/
def Obligations.LoadResults : Prop :=
  Clause.ScalarLoadResults ∧ Clause.VectorLoadResults

/-- R222: QLD queues the tile image, or the two of a pair, and shadows the tiles it writes; QST stores the image; an address that is not a
multiple of 16 traps with illegal operand, and a failed check as it says. -/
def Clause.TileTransferResults : Prop :=
  ∀ (s : State) (t a : Nat) (w : Bool) (off : BitVec 27),
    let ea := (readS s a + BitVec.ofInt 64 off.toInt).toNat
    let at_ (x : Nat) : List (Nat × Nat) := (List.range 4096).map fun o => (o, ea + x + o)
    let image (n x : Nat) : List (Nat × Byte) := (List.range 4096).map fun o => (ea + x + o, (readQ s n).extractLsb' (8 * o) 8)
    let len (p : Bool) : Nat := if p then 8192 else 4096
    let traps (i : Instr) (r : Trap) : Prop := exec i s = .next (takeTrap s s.at_ r (curSeq s))
    ∀ p : Bool,
      (ea % 16 ≠ 0 → traps (.qld t a p w off) (trapOf s 0x04) ∧ traps (.qst t a p w off) (trapOf s 0x04)) ∧
      (ea % 16 = 0 →
        (∀ code va ia, checkSpans s w false .read [(ea, len p)] = .trap code va ia → traps (.qld t a p w off) (addrTrap s code va ia)) ∧
        (∀ code va ia, checkSpans s w false .write [(ea, len p)] = .trap code va ia → traps (.qst t a p w off) (addrTrap s code va ia)) ∧
        (∀ lo ia, checkSpans s w false .read [(ea, len p)] = .ok lo ia →
          let one := loadInto (shadowPair s t p) (.q t) w .tile lo ia (at_ 0)
          exec (.qld t a p w off) s = .next (if p then loadInto one (.q (t + 1)) w .tile lo ia (at_ 4096) else one)) ∧
        (∀ lo ia, checkSpans s w false .write [(ea, len p)] = .ok lo ia →
          exec (.qst t a p w off) s = .next (storeOut s lo ia (image t 0 ++ if p then image (t + 1) 4096 else []))))

/-- R83, R217, R222: a load whose bytes all lie in the issuing core's scratchpad takes them as it executes: the fetched image of a tile is the
4,096 bytes in order; a byte is the one memory holds, unless an older multicast of the context's own has still to reach it. -/
def Clause.ScratchTileImage : Prop :=
  ∀ (s : State) (t x : Nat), x + 4096 ≤ mySp s →
    loadInto s (.q t) true .tile 0 0 ((List.range 4096).map fun o => (o, x + o)) =
      queueBoard s [{ dst := .q t, bits := ofBytes ((List.range 4096).map fun o => ownByte s (x + o) (x + o)) }] ∧
    ∀ o, gateByte s (x + o) = none → ownByte s (x + o) (x + o) = mget s (spAddr (myCore s) (x + o))

/-- R217, R222: QLD and QST. -/
def Obligations.TileTransfers : Prop :=
  Clause.TileTransferResults ∧ Clause.ScratchTileImage

/-! ### Stores -/

/-- R216, R219, R220: a store whose bytes pass the check writes exactly the bytes of its register to the addresses its operands give, and one
whose bytes do not traps; a vector store names only the bytes of selected lanes. -/
def Clause.StoreResults : Prop :=
  ∀ (s : State) (t a b k sh sz : Nat) (w : Bool) (off : BitVec 27) (imm : BitVec 32),
    let run (i : Instr) (spans : List (Nat × Nat)) (bs : List (Nat × Byte)) : Prop :=
      (∀ lo ia, checkSpans s w false .write spans = .ok lo ia → exec i s = .next (storeOut s lo ia bs)) ∧
      ∀ code va ia, checkSpans s w false .write spans = .trap code va ia →
        exec i s = .next (takeTrap s s.at_ (addrTrap s code va ia) (curSeq s))
    let scalar (i : Instr) (ea v : Word) : Prop :=
      run i [(ea.toNat, 2 ^ sz)] ((List.range (2 ^ sz)).map fun j => (ea.toNat + j, v.extractLsb' (8 * j) 8))
    let lanes := (List.range 64).filter (readM s k).getLsbD
    let vector (i : Instr) (addr : Nat → Nat) : Prop :=
      run i (lanes.map fun j => (addr j, 4))
        (lanes.flatMap fun j => (List.range 4).map fun o => (addr j + o, (readV s t).extractLsb' (32 * j + 8 * o) 8))
    let ea := readS s a + BitVec.ofInt 64 off.toInt
    scalar (.st t a sz w off) ea (readS s t) ∧
    scalar (.stx t a b w sz) (readS s a + readS s b * BitVec.ofNat 64 (2 ^ sz)) (readS s t) ∧
    scalar (.sti b a w sz imm) (readS s a + BitVec.ofNat 64 (b * 2 ^ sz)) (BitVec.ofInt 64 imm.toInt) ∧
    vector (.vst t a k w off) (fun j => (ea + BitVec.ofNat 64 (4 * j)).toNat) ∧
    vector (.vsts t a b k w) (fun j => (readS s a + readS s b * BitVec.ofNat 64 j).toNat) ∧
    vector (.vsct t a b k w sh) (fun j => (readS s a + BitVec.ofNat 64 ((elOf 32 (readV s b) j).toNat * 2 ^ sh)).toNat)

/-- R87 to R89: the bytes a store puts out change no memory while the bundle runs: those in the core's own scratchpad wait for the bundle's
last slot, the others enter the store gate at their place in program order; registers, flags and everything else stay. -/
def Clause.StoreOutFrame : Prop :=
  ∀ (s : State) (lo ia : Nat) (bs : List (Nat × Byte)),
    let t := storeOut s lo ia bs
    let out := bs.map fun p => (ia + (p.1 - lo), p.2)
    let own := out.filterMap fun p => (ownOffset s p.1).map fun o => (o, p.2)
    let far := out.filter fun p => (ownOffset s p.1).isNone
    t.mem = s.mem ∧ t.iss.stores = s.iss.stores ++ own ∧
    (let older (g : GateByte) : Bool := !(decide (curSeq s < g.seq) || (curSeq s == g.seq && decide (curSlot s < g.slot)))
     let gate := (regionOf (me s) (curSeq s)).gate
     (regionOf (me t) (curSeq s)).gate.map (fun g => (g.ia, g.byte)) =
      (gate.takeWhile older).map (fun g => (g.ia, g.byte)) ++ far ++ (gate.dropWhile older).map (fun g => (g.ia, g.byte))) ∧
    (me t).regs = (me s).regs ∧ (me t).flights = (me s).flights ∧ (me t).q = (me s).q ∧ (me t).pc = (me s).pc ∧
    (∀ k, k ≠ s.at_ → ctxOf t k = ctxOf s k) ∧
    t = { s with ctxs := t.ctxs, iss := t.iss, nextId := t.nextId }

/-- R87 to R89, R216, R219, R220: stores, and what they leave unchanged. -/
def Obligations.StoresWaitForTheirBundle : Prop :=
  Clause.StoreResults ∧ Clause.StoreOutFrame

/-- R87, R88, R402: at the end of a bundle its scratchpad stores perform in order: each byte named reads as the last value stored to it,
every other byte of memory reads as before, and the region's journal can bring the old bytes back, where no earlier multicast of the context's own
has still to reach them. -/
def Clause.BundleStoresPerform : Prop :=
  ∀ s : State, Memory.wf s.mem = true →
    let t := commitStores s
    (∀ x, mget t x = match s.iss.stores.reverse.find? (fun p => spAddr (myCore s) p.1 == x) with
      | some p => p.2
      | none => mget s x) ∧
    (me t).regs = (me s).regs ∧ t.iss.stores = [] ∧
    ((regionOf (me s) s.iss.bseq).journal = [] → (∀ g ∈ gated (me s), ∀ off, ownCopy (myCore s) g off = false) →
      ∀ x, mget (undoJournal s.at_ (regionOf (me t) s.iss.bseq).journal t) x = mget s x)

/-- R89, R232, R334, R396: a released byte performs at the one storage byte its address names, in all eight cores of a cluster for the multicast
window (in the issuing core's own, unless a later store there came first), and leaves every other byte; a page's byte performs where its translation
puts it, and waits while a handler or a migration holds the page back. -/
def Clause.GatedBytePerforms : Prop :=
  ∀ (s : State) (k : Nat) (g : GateByte) (bs : List Byte), Memory.wf s.mem = true →
    let r := performUnit k s (g, bs)
    let q := leadCore s (k / 4)
    (∀ n off, windowOf (k / 4) g.ia = .scratch n off →
      r.2 = true ∧ ∀ x, mget r.1 x = if x = spAddr n off then g.byte else mget s x) ∧
    (∀ n off, windowOf (k / 4) g.ia = .mcast n off →
      let copyOf (i : Nat) : Prop := i < 8 ∧ (g.own = true ∨ 8 * n + i ≠ k / 4)
      r.2 = true ∧ (∀ i, copyOf i → mget r.1 (spAddr (8 * n + i) off) = g.byte) ∧
      ∀ x, (∀ i, copyOf i → x ≠ spAddr (8 * n + i) off) → mget r.1 x = mget s x) ∧
    (windowOf (k / 4) g.ia = .memory ∨ windowOf (k / 4) g.ia = .cxl →
      (lineHeld s q g.ia true = true → r = (s, false)) ∧
      (lineHeld s q g.ia true = false →
        (∀ u, resolvePage s q (ctxOf s k).asn g.ia true = (u, .wait) → r = (u, false)) ∧
        ∀ u pa leaf, resolvePage s q (ctxOf s k).asn g.ia true = (u, .ok pa leaf) → Memory.wf u.mem = true →
          r.2 = true ∧ ∀ x, mget r.1 x = if x = paAddr pa then g.byte else mget u x))

/-- R60, R61: an access of a core to a line of a page that is not marked memory-side leaves the line in the core's L1, dirty where it is
written, and the L1 of no other core of its partition holds a line that is written; a memory-side page changes no L1. -/
def Clause.LinesAreHeld : Prop :=
  ∀ (s : State) (core leaf ia : Nat) (wr : Bool),
    let t := l1Access s core leaf ia wr
    let holds (u : State) (c : Nat) (d : Bool) : Prop :=
      ∃ p ∈ sget [] u.l1 c, p.2.block = ia / 256 ∧ p.2.valid &&& l1Line ia ≠ 0 ∧ (d = true → p.2.dirty &&& l1Line ia ≠ 0)
    (bitAt leaf 6 = true → t = s) ∧
    (bitAt leaf 6 = false → holds t core wr ∧ t.mem = s.mem ∧
      (wr = true → ∀ c, c ≠ core → sameQuarter s (quarterOf core) (quarterOf c) = true → ¬ holds t c false) ∧
      ∀ c, c ≠ core → sameQuarter s (quarterOf core) (quarterOf c) = false → sget [] t.l1 c = sget [] s.l1 c)

/-- R60, R61, R87 to R89, R232, R402: where the bytes of stores go when they perform, and which L1 holds their lines. -/
def Obligations.StoresPerform : Prop :=
  Clause.BundleStoresPerform ∧ Clause.GatedBytePerforms ∧ Clause.LinesAreHeld

/-! ### Atomics, tier-tolerant loads and the rest of the L slot -/

/-- R224, R225: what an atomic writes over an old value of n = 2^sz bytes: AMO and VAMO the operation's result, CAS the new value where the
old one equals its operand, ALD nothing. -/
def Clause.AtomicValues : Prop :=
  ∀ (d a b c k sz : Nat) (sc : Scope) (ord : MOrder) (x : Bool) (lsz : MSize) (off : BitVec 27), sz ≤ 3 →
    let w := 8 * 2 ^ sz
    (∀ u v : BitVec w,
      let gives (op : AtomOp) (r : BitVec w) : Prop := atomNew (.amo d a b sc ord sz op) u.toNat v.toNat = some r.toNat
      gives .swap v ∧ gives .add (u + v) ∧ gives .and (u &&& v) ∧ gives .or (u ||| v) ∧ gives .xor (u ^^^ v) ∧
      gives .min (if v.slt u then v else u) ∧ gives .max (if u.slt v then v else u) ∧
      gives .minu (if v.ult u then v else u) ∧ gives .maxu (if u.ult v then v else u) ∧
      (2 ≤ sz → let f : Fmt := if sz = 2 then .b32 else .b64
        let flt (op : AtomOp) (g : Machine.Num → Machine.Num → Machine.Num) : Prop :=
          gives op (BitVec.ofNat w (encodeNum f false (g (decodeNum f u.toNat) (decodeNum f v.toNat))))
        flt .fadd Machine.Num.add ∧ flt .fmin Machine.Num.min ∧ flt .fmax Machine.Num.max) ∧
      ∀ n : BitVec w, atomNew (.cas d a b c ord sz sc) u.toNat (v.toNat + n.toNat * 2 ^ 64) =
        if u = v then some n.toNat else none) ∧
    (∀ op u v, atomNew (.vamo d a b sc k ord x op) u v = atomNew (.amo d a b sc ord 2 op) u v) ∧
    ∀ u v, atomNew (.ald d a lsz sc ord off) u v = none

/-- R223 to R227: an atomic on a misaligned address traps with misaligned atomic, and one whose check fails as the check says.  In the core's
own scratchpad AMO, CAS and ALD send the old value to their destination, and a new value joins the bundle's stores; beyond it the
atomic is a result in flight, and an acquire holds the context's later accesses.  A reserved scope traps first (R85). -/
def Clause.AtomicIssue : Prop :=
  ∀ (s : State) (d a b c sz : Nat) (sc : Scope) (ord : MOrder) (op : AtomOp) (lsz : MSize) (off : BitVec 27),
    let m := 2 ^ (8 * 2 ^ sz)
    let x := (readS s a).toNat
    let one (i : Instr) (r : Reg) (n ea opnd : Nat) (ext : Nat → Nat) : Prop :=
      (ea % n ≠ 0 → exec i s = .next (takeTrap s s.at_ (trapOf s 0x06) (curSeq s))) ∧
      (∀ code va ia, ea % n = 0 → checkSpans s false false .both [(ea, n)] = .trap code va ia →
        exec i s = .next (takeTrap s s.at_ (addrTrap s code va ia) (curSeq s))) ∧
      ∀ lo ia, ea % n = 0 → checkSpans s false false .both [(ea, n)] = .ok lo ia →
        (∀ o, ownOffset s ia = some o → s.iss.stores = [] →
          let old := ofBytes (mgets s (spAddr (myCore s) o) n)
          let st : List (Nat × Byte) := match atomNew i old opnd with
            | some v => (List.range n).map fun j => (o + j, BitVec.ofNat 8 (v / 2 ^ (8 * j)))
            | none => []
          exec i s = .next (queueBoard { s with iss := { s.iss with stores := st } } [{ dst := r, bits := ext old }])) ∧
        (ownOffset s ia = none →
          let t := queue s [r] (.atomic i [(0, ia, opnd)] (BitVec.ofNat 64 lo - BitVec.ofNat 64 ia) [] 0) false 0
          exec i s = .next (if acquires i then updMe t fun c => { c with drains := c.drains ++ [(curSeq s, s.nextId)] } else t))
    (reservedScope sc = true → ∀ i ∈ [Instr.amo d a b sc ord sz op, .cas d a b c ord sz sc, .ald d a lsz sc ord off],
      exec i s = .next (takeTrap s s.at_ (trapOf s 0x04) (curSeq s))) ∧
    (reservedScope sc = false → one (.amo d a b sc ord sz op) (.s d) (2 ^ sz) x ((readS s b).toNat % m) id ∧
    one (.cas d a b c ord sz sc) (.s d) (2 ^ sz) x ((readS s b).toNat % m + (readS s c).toNat % m * 2 ^ 64) id ∧
    one (.ald d a lsz sc ord off) (.s d) (sizeBytes lsz) (readS s a + BitVec.ofInt 64 off.toInt).toNat 0
      fun v => (extendSize lsz v).toNat)

/-- R226: a VAMO applies the selected lanes in ascending order, from element EP on where its PC equals EPPC and from the first elsewhere;
with no element left it changes nothing but EP, which clears in the after-mark that stands open too, and beyond the core its elements are in flight in that order. -/
def Clause.VectorAtomicIssue : Prop :=
  ∀ (s : State) (d a b k : Nat) (sc : Scope) (ord : MOrder) (x : Bool) (op : AtomOp),
    let i : Instr := .vamo d a b sc k ord x op
    let ep := if (me s).regs.eppc = curPc s then (me s).regs.ep else 0
    let addr (j : Nat) : Nat :=
      (readS s a + BitVec.ofNat 64 (4 * if x then (elOf 32 (readV s b) j).toNat else j)).toNat
    let lanes := ((List.range 64).filter (readM s k).getLsbD).drop ep
    let s' := updMe s fun c => { c with regs := { c.regs with ep := ep } }
    (reservedScope sc = true → exec i s = .next (takeTrap s s.at_ (trapOf s 0x04) (curSeq s))) ∧
    (reservedScope sc = false → lanes = [] → exec i s = .next (queueBoard (updMe s' fun c =>
        { c with regs := { c.regs with ep := 0 }, nextMark := c.nextMark.map fun m => { m with regs := { m.regs with ep := 0 } } })
      [{ dst := .v d, bits := (readV s d).toNat }])) ∧
    (reservedScope sc = false → lanes ≠ [] → (∃ j ∈ lanes, addr j % 4 ≠ 0) → exec i s = .next (takeTrap s' s.at_ (trapOf s' 0x06) (curSeq s))) ∧
    ∀ lo ia, reservedScope sc = false → lanes ≠ [] → (∀ j ∈ lanes, addr j % 4 = 0) →
      checkSpans s' false false .both (lanes.map fun j => (addr j, 4)) = .ok lo ia →
      (∃ j ∈ lanes, ownOffset s (ia + (addr j - lo)) = none) →
      let es := lanes.map fun j => (j, ia + (addr j - lo), (elOf 32 (readV s d) j).toNat)
      let t := queue s' [.v d] (.atomic i es (BitVec.ofNat 64 lo - BitVec.ofNat 64 ia) [] ep) false 0
      exec i s = .next (if acquires i then updMe t fun c => { c with drains := c.drains ++ [(curSeq s, s.nextId)] } else t)

/-- R223 to R227: the atomics as they execute. -/
def Obligations.AtomicsIssue : Prop :=
  Clause.AtomicIssue ∧ Clause.VectorAtomicIssue

/-- R223: an element of an atomic performs as one read-modify-write of its n bytes: it returns the old bytes and, where it writes, changes
exactly those bytes of memory. -/
def Clause.AtomicElementPerforms : Prop :=
  ∀ (s : State) (k seq ia addr x : Nat) (i : Instr), Memory.wf s.mem = true →
    let n := accessSize i
    let t := (applyAt s k seq i ia addr x).1
    let old := ofBytes (mgets s addr n)
    (applyAt s k seq i ia addr x).2 = old ∧
    (∀ v, atomNew i old x = some v → (∀ j < n, mget t (addr + j) = BitVec.ofNat 8 (v / 2 ^ (8 * j)))) ∧
    (atomNew i old x = none → t.mem = s.mem) ∧
    ∀ y, (y < addr ∨ addr + n ≤ y) → mget t y = mget s y

/-- R223 to R225: what an atomic reads and writes as it performs. -/
def Obligations.AtomicsPerform : Prop :=
  Clause.AtomicValues ∧ Clause.AtomicElementPerforms

/-- R228 to R230: LDT and VLDT check like plain loads and name both their destination and their flag; XLAT never traps: outside the
paged windows its answer is at hand, and it lands within 640 cycles in every case. -/
def Obligations.TolerantLoadsAndXlat : Prop :=
  ∀ (s : State) (t a k f : Nat) (sz : MSize) (pi : Bool) (off : BitVec 27),
    let va := readS s a + BitVec.ofInt 64 off.toInt
    let lanes := (List.range 64).filter (readM s k).getLsbD
    let lane (j : Nat) : Nat := (va + BitVec.ofNat 64 (4 * j)).toNat
    let loads (i : Instr) (r : Reg) (sh : LoadShape) (spans bs : List (Nat × Nat)) : Prop :=
      (∀ code v ia, checkSpans s false false .read spans = .trap code v ia →
        exec i s = .next (takeTrap s s.at_ (addrTrap s code v ia) (curSeq s))) ∧
      ∀ lo ia, checkSpans s false false .read spans = .ok lo ia →
        exec i s = .next (queue s [r, .f f] (.tolerant r f sh (BitVec.ofNat 64 lo)
          (bs.map fun p => ⟨p.1, ia + (p.2 - lo), gateByte s (ia + (p.2 - lo))⟩)) false 0)
    let word (st : Nat) (rd wr : Bool) (flags ia : Nat) : Word :=
      BitVec.ofNat 64 (st + rd.toNat * 4 + wr.toNat * 8 + flags + ia / 2 ^ 16 * 2 ^ 16)
    let soon (w : Word) : State := addTimer (boardS s t w) (s.cyc + 640) ⟨.scoreboardLand, { subjOf s.at_ with id := s.nextId }⟩
    loads (.ldt t a sz f off) (.s t) (.scalar sz) [(va.toNat, sizeBytes sz)]
      ((List.range (sizeBytes sz)).map fun j => (j, va.toNat + j)) ∧
    loads (.vldt t a k f off) (.v t) (.lanes (readV s t)) (lanes.map fun j => (lane j, 4))
      (lanes.flatMap fun j => (List.range 4).map fun o => (4 * j + o, lane j + o)) ∧
    (rangeFind (mapped s) va.toNat = none → exec (.xlat t a pi off) s = .next (soon (word 2 false false 0x20 0))) ∧
    ∀ r, rangeFind (mapped s) va.toNat = some r →
      let ia := rangeMap r va.toNat
      let rd := r.w0.getLsbD 1
      let wr := r.w0.getLsbD 2
      let win := windowOf (myCore s) ia
      let ok := windowOk s (quarterOf (myCore s)) (me s).pl win
      (ok = false → exec (.xlat t a pi off) s = .next (soon (word 2 rd wr 0x80 ia))) ∧
      (ok = true → (∃ n o, win = .scratch n o) → exec (.xlat t a pi off) s = .next (soon (word 0 rd wr 0x40 ia))) ∧
      (ok = true → ((∃ b q o, win = .ctl b q o) ∨ (∃ n o, win = .slice n o) ∨ ∃ n o, win = .notify n o) →
        exec (.xlat t a pi off) s = .next (soon (word 0 rd wr 0x100 ia))) ∧
      (ok = true → win = .memory ∨ win = .cxl → exec (.xlat t a pi off) s =
        .next (addTimer (queue s [.s t] (.xlat (.s t) va ia rd wr pi) false 0) (s.cyc + 640)
          ⟨.xlatTimeout, { subjOf s.at_ with id := s.nextId }⟩))

/-- R231, R232, R234: MCAST puts the selected lanes of a place in the multicast window into the store gate; BFMT journals and queues a bank's
new format, the bank being an exact sum (R8), and the format takes effect in a later cycle once nothing accepted before still uses the old one; DRAIN takes down what its
context has open, and a reserved scope traps (R85). -/
def Clause.MulticastFormatAndDrain : Prop :=
  (∀ (s : State) (t a k : Nat) (off : BitVec 27) (lo ia : Nat),
    let ea := (readS s a + BitVec.ofInt 64 off.toInt).toNat
    let lanes := (List.range 64).filter (readM s k).getLsbD
    lanes ≠ [] → checkSpans s false true .write (lanes.map fun j => (ea + 4 * j, 4)) = .ok lo ia →
    (mcastRoom s (ia - (lo - ea)) = true → exec (.mcast t a k off) s = .next (gateStore s lo
      (lanes.flatMap fun j => (List.range 4).map fun o =>
        (ia + (ea + 4 * j + o - lo), (readV s t).extractLsb' (32 * j + 8 * o) 8)))) ∧
    (mcastRoom s (ia - (lo - ea)) = false →
      exec (.mcast t a k off) s = .next (takeTrap s s.at_ (addrTrap s 0x0B ea (ia - (lo - ea))) (curSeq s)))) ∧
  (∀ (s : State) (a : Nat) (code : BitVec 4) (imm : BitVec 32),
    let b := (readS s a).toNat + imm.toNat
    let u := coreAt s (myCore s)
    ((spBanks u.vreg u.tile ≤ b ∨ 11 < code.toNat) →
      exec (.bfmt a code imm) s = .next (takeTrap s s.at_ (trapOf s 0x04) (curSeq s))) ∧
    (b < spBanks u.vreg u.tile → code.toNat ≤ 11 →
      ∃ t, exec (.bfmt a code imm) s = .next t ∧ t.mem = s.mem ∧ (me t).regs = (me s).regs ∧
        (coreAt t (myCore s)).fmts = u.fmts ∧
        (coreAt t (myCore s)).fmtPend = u.fmtPend ++ [{ bank := b, code := code.toNat, ctx := s.at_ % 4, exec := s.cyc }] ∧
        ∃ old, JournalItem.bank b old ∈ (regionOf (me t) (curSeq s)).journal)) ∧
  (∀ s : State,
    let u := coreAt s s.subj.core
    let now := u.fmtPend.filter fun w => !(decide (s.cyc ≤ w.exec) || oldFormatUsed s s.subj.core w)
    ∃ t, exec .bankFormatTakesEffect s = .next t ∧ t.mem = s.mem ∧
      (coreAt t s.subj.core).fmts = now.foldl (fun m w => sins m w.bank w.code) u.fmts ∧
      (coreAt t s.subj.core).fmtPend = u.fmtPend.filter fun w => decide (s.cyc ≤ w.exec) || oldFormatUsed s s.subj.core w) ∧
  ∀ s : State, exec (.drain .ctx) s = .next s ∧
    (∀ sc, reservedScope sc = true → exec (.drain sc) s = .next (takeTrap s s.at_ (trapOf s 0x04) (curSeq s))) ∧
    ∀ sc, sc ≠ .ctx → reservedScope sc = false →
      exec (.drain sc) s = .next (updMe s fun c => { c with drains := c.drains ++ (openOps s s.at_).map fun id => (curSeq s, id) })

/-! ### Landing -/

/-- R112 to R114, R217, R228 to R230: a result in flight lands in its registers, but for those a later bundle has written, and the results of older
bundles still in flight lose those registers: values as they are, a load once its bytes are bound, a tolerant load with flag 0 where every page is resident and with flag 1 and its destination kept
where one is not, XLAT with what it finds or, at its time limit, with ST = 3. -/
def Clause.LandingResults : Prop :=
  ∀ (s : State) (f : Flight),
    let k := 4 * s.subj.core + s.subj.ctx % 4
    let c := ctxOf s k
    let q := leadCore s (k / 4)
    flightOf c s.subj.id = some f → f.dead = [] →
    let lands (i : Instr) (u : State) (ws : List RegWrite) : Prop :=
      ∃ t, exec i s = .next t ∧ (ctxOf t k).regs = ws.foldl putReg (ctxOf u k).regs ∧
        (ctxOf t k).flights = (overtake (ctxOf u k).flights f.bseq (ws.map RegWrite.dst)).filter (fun g => g.id != f.id) ∧ t.mem = u.mem
    ∀ i ∈ [Instr.resultLand, .scoreboardLand],
      (∀ ws, f.src = .bits ws → (∀ w ∈ ws, (∃ n, w.dst = .s n) ∨ (∃ n, w.dst = .f n) ∨ (∃ n, w.dst = .m n) ∨ (∃ n, w.dst = .v n) ∨
        (∃ n, w.dst = .n n) ∨ (∃ n, w.dst = .lc n) ∨ w.dst = .mcfg ∨ w.dst = .mpat) → lands i s ws) ∧
      (∀ d sh va bs u r, f.src = .load (.s d) sh va bs → readsBefore c f bs = false →
        bindLoad s k c.asn bs = (u, .ok r) → lands i u [{ dst := .s d, bits := shapeBits sh r }]) ∧
      (∀ d fl sh va bs x v u r, f.src = .tolerant (.s d) fl sh va bs → knowPages q c.asn (loadPages k bs) s = (v, .ok x) →
        awayPages v k bs = [] → readsBefore c f bs = false → bindLoad v k c.asn bs = (u, .ok r) →
        lands i u [{ dst := .s d, bits := shapeBits sh r }, { dst := .f fl, bits := 0 }]) ∧
      (∀ d fl sh va bs x v, f.src = .tolerant d fl sh va bs → knowPages q c.asn (loadPages k bs) s = (v, .ok x) → awayPages v k bs ≠ [] →
        ∃ t, exec i s = .next t ∧ (ctxOf t k).regs = putReg (ctxOf v k).regs { dst := .f fl, bits := 1 }) ∧
      (∀ d va ia rd wr u x, f.src = .xlat (.s d) va ia rd wr false → xlatLook s q c.asn ia rd wr = (u, some x) →
        lands i u [{ dst := .s d, bits := x.toNat }]) ∧
      ∀ d va ia rd wr pi, f.src = .xlat (.s d) va ia rd wr pi →
        lands .xlatTimeout (xlatLook s q c.asn ia rd wr).1 [{ dst := .s d, bits := 3 + rd.toNat * 4 + wr.toNat * 8 + ia % 2 ^ 64 / 2 ^ 16 * 2 ^ 16 }]

/-- R218: the report of a page fault on a byte of a load in flight takes the load's trap, with the code of the fault and the byte's addresses,
before the destination is written. -/
def Clause.PageFaultTrapsTheLoad : Prop :=
  ∀ (s : State) (f : Flight) (d : Reg) (sh : LoadShape) (va : Word) (b : LoadByte) (bs : List LoadByte) (u : State) (code ia : Nat),
    let k := 4 * s.subj.core + s.subj.ctx % 4
    flightOf (ctxOf s k) s.subj.id = some f → f.src = .load d sh va (b :: bs) → readsBefore (ctxOf s k) f (b :: bs) = false →
    bindLoad s k (ctxOf s k).asn (b :: bs) = (u, .fail code ia) →
    ∃ r, exec .pageFaultReport s = .next (takeTrap u k r f.bseq) ∧ r.code = code ∧ r.pc = f.pc ∧ r.slot = f.slot ∧
      r.p0 = va + BitVec.ofNat 64 (ia - b.ia) ∧ r.p1 = BitVec.ofNat 64 ia

/-- R112 to R114, R217, R218, R231, R232, R234: MCAST, BFMT, DRAIN, and results that land or fault. -/
def Obligations.MulticastsAndLandings : Prop :=
  Clause.MulticastFormatAndDrain ∧ Clause.LandingResults ∧ Clause.PageFaultTrapsTheLoad

/-! ### The exchange -/

/-- R236, R237, R251, R259: a request goes out with its operands as read, and is accepted after its latency; an accepted request is marked so
and ordered; a second acceptance does nothing. -/
def Obligations.RequestsGoOut : Prop :=
  (∀ (s : State) (i : Instr) (lat : Nat) (sw : Option (BitVec 17)) (args : List Nat) (job : Job),
    let t := request s i lat sw args job
    (∃ r, t.reqs = s.reqs ++ [r] ∧ r.id = s.nextId ∧ r.key = s.at_ ∧ r.ins = i ∧ r.pc = curPc s ∧ r.args = args ∧ r.job = job ∧
      r.word = sw.map (fun w => 16 * w.toNat) ∧ r.accepted = false ∧ r.fut = futOf (me s) ∧ r.asn = (me s).asn) ∧
    (s.cyc + lat, ⟨.engineAcceptance, { subjOf s.at_ with id := s.nextId }⟩) ∈ t.timers ∧
    t.mem = s.mem ∧ t.ctxs = s.ctxs ∧ t.cores = s.cores) ∧
  ∀ (s : State) (r : Req), reqOf s s.subj.id = some r →
    (r.accepted = true → exec .engineAcceptance s = .next s) ∧
    (r.accepted = false →
      let r' := { r with accepted := true, acc := s.nextId, accAt := s.cyc }
      let t := acceptReq (putReq { s with nextId := s.nextId + 1 } r') r'
      exec .engineAcceptance s = .next (addReady { t with iss := {} } ⟨.afterMark, subjOf r.key⟩))

/-- R238, R240, R241, R243 to R245, R253 to R257: the exchange's requests make their checks in order, and with none failing go out with their
operands: NOTE, PULL, PULLADD and PULL.rank, DECL, WDRAW, RROOT, RCONT, the graph requests, RGET, RPUT and RFLUSH.  AGLOAD and RPUT keep
the range registers they were issued under. -/
def Clause.ExchangeRequests : Prop :=
  ∀ (s : State) (d a b : Nat) (sw : BitVec 17) (last v : Bool),
    let x := (readS s a).toNat
    let y := (readS s b).toNat
    let z := (readS s d).toNat
    let illegal := trapOf s 0x04
    let word := wordCheck s sw
    let conn := connOf s (y % 4096)
    let usable : Prop := sameQuarter s (quarterOf (myCore s)) (y % 4096 / 1024) = true ∧ conn.opened = true ∧ conn.asn = (me s).asn
    let pull (i : Instr) : Prop :=
      Guarded s i [(fld y 7 6 ≠ 0 ∨ x % 64 ≠ 0, illegal), (mySp s ≤ x, outside s x), word] (request s i 2 (some sw) [x, y] .none)
    -- NOTE (R238): the image at sreg[A], published with its block's intermediate address and the producer's number
    (∀ code va ia, noteCheck s a v = .trap code va ia →
      exec (.note a sw v) s = .next (takeTrap s s.at_ (addrTrap s code va ia) (curSeq s))) ∧
    (∀ args, noteCheck s a v = .ok args → Guarded s (.note a sw v) [word] (request s (.note a sw v) 3 (some sw) args .none)) ∧
    (let img := spNum s (myCore s) x 32
     let addr := fld img 119 64
     Guarded s (.note a sw false)
       [(x % 32 ≠ 0, illegal), (mySp s < x + 32, outside s x), (imgMalformed s (myLead s) img = true, trapOf s 0x18),
        (mySp s < addr + imgSize img, addrTrap s 0x09 0 (spAddr (myCore s) addr)),
        (imgTag img ∈ outboxTags s (myCore s), trapOf s 0x19), word]
       (request s (.note a sw false) 3 (some sw)
         (imgPublished img (spAddr (myCore s) addr) (myCore s) :: (imgConsumers s (myLead s) img).getD []) .none)) ∧
    -- pulls, DECL and WDRAW
    pull (.pull a b sw last) ∧ pull (.pulladd a b sw last) ∧
    Guarded s (.pullRank b sw) [(modeBit s (myLead s) 4 = true ∨ y = 0 ∨ 64 < y, illegal), word]
      (request s (.pullRank b sw) 2 (some sw) [y] .none) ∧
    Guarded s (.decl b) [(fld y 7 6 ≠ 0, illegal)] (request s (.decl b) 2 none [y] .none) ∧
    Guarded s (.wdraw b) [(fld y 63 32 ≠ 0, illegal)] (request s (.wdraw b) 2 none [y] .none) ∧
    -- trees
    (∀ code va ia, rrootCheck s a b = .trap code va ia →
      exec (.rroot a b sw) s = .next (takeTrap s s.at_ (addrTrap s code va ia) (curSeq s))) ∧
    (∀ tag op len shp tc off ms, rrootCheck s a b = .ok (tag :: op :: len :: shp :: tc :: off :: ms) →
      Guarded s (.rroot a b sw) [word] (request s (.rroot a b sw) 2 (some sw) [y, tc]
        (.tree { root := myCore s, tag, op, len, shp, dst := off, members := ms }))) ∧
    Guarded s (.rcont a b sw)
      [(fld y 31 28 ≠ 0 ∨ fld y 63 48 ≠ 0 ∨ x % 4 ≠ 0 ∨ coreReached s (myLead s) (fld y 27 16) = false ∨
          dieOf (fld y 27 16) ≠ dieOf (myCore s), illegal),
       (mySp s < x + fld y 43 32, outside s x), word]
      (request s (.rcont a b sw) 2 (some sw) [x, y, myCore s] .none) ∧
    -- graphs
    Guarded s (.agload a b sw) [(16 ≤ y, illegal), word] (requestMapped s (.agload a b sw) 4 (some sw) [x, graphKey (myCore s) y]) ∧
    (∀ i lat args, ∃ r ∈ (requestMapped s i lat (some sw) args).reqs, r.id = s.nextId ∧ r.maps = (me s).rregs ∧
      { r with maps := [] } ∈ (request s i lat (some sw) args .none).reqs) ∧
    exec (.agrel a) s = .next (request s (.agrel a) 4 none [graphKey (myCore s) x] .none) ∧
    Guarded s (.agrun a b sw) [(x % 16 ≠ 0, illegal), (mySp s < x + 128, outside s x), word]
      (request s (.agrun a b sw) 4 (some sw)
        (graphKey (myCore s) y :: (List.range 16).map fun i => spNum s (myCore s) (x + 8 * i) 8) .none) ∧
    exec (.agwait b) s = .next s ∧
    -- connections
    (let bad : Prop := fld y 15 12 ≠ 0 ∨ fld y 63 40 ≠ 0 ∨ fld y 39 16 = 0 ∨ fld z 63 56 ≠ 0
     Guarded s (.rget d a b sw) [(bad, illegal), (¬ usable, trapOf s 0x1E), (mySp s < x + fld y 39 16, outside s x), word]
       (request s (.rget d a b sw) 3 (some sw) [y % 4096, fld y 39 16, z, x] .none) ∧
     Guarded s (.rput d a b sw v) [(bad, illegal), (¬ usable, trapOf s 0x1E), word]
       (requestMapped s (.rput d a b sw v) 3 (some sw) [y % 4096, fld y 39 16, z, x])) ∧
    Guarded s (.rflush b sw)
      [(fld y 15 12 ≠ 0 ∨ fld y 63 40 ≠ 0 ∨ fld y 39 16 ≠ 0, illegal), (¬ usable, trapOf s 0x1E), word]
      (request s (.rflush b sw) 3 (some sw) [y % 4096] .none)

/-- R246 to R251, R284: the exchange instructions that act on their own core: NBRD, NBCNT and NBFIND read its board, PWIN its window, RKSET its
rank order, NGRP its partition's groups, XSTAT the exchange status.  An admission shows in the window from the next cycle on (R289). -/
def Clause.ExchangeRegisters : Prop :=
  ∀ (s : State) (d a b w : Nat) (any : Bool),
    let x := (readS s a).toNat
    let y := (readS s b).toNat
    let u := coreAt s (myCore s)
    let e := boardAt s (myCore s) (x % 64)
    let sends (i : Instr) (v : Nat) : Prop := exec i s = .next (boardS s d (BitVec.ofNat 64 v))
    -- NBRD
    sends (.nbrd d a 4)
      (e.st + e.rk.toNat * 2 ^ 2 + e.seq * 2 ^ 8 + e.dst * 2 ^ 16 + (if e.st = 0 then 0 else min (s.cyc - e.since) (2 ^ 32 - 1)) * 2 ^ 32) ∧
    (w < 4 → (e.st = 0 → sends (.nbrd d a w) 0) ∧ ∀ n, e.st ≠ 0 → noticeOf s e.notice = some n → sends (.nbrd d a w) (n.img / 2 ^ (64 * w))) ∧
    -- NBCNT and NBFIND
    sends (.nbcnt d .used) (u.board.filter fun p => p.2.st != 0).length ∧
    sends (.nbcnt d .off) (u.board.filter fun p => p.2.st == 1).length ∧
    sends (.nbcnt d .elig) (eligible s (myCore s)).length ∧
    (let hit (p : Nat × BoardEntry) : Prop := p.2.st = 1 ∧ ∃ n, noticeOf s p.2.notice = some n ∧ imgTag n.img = x % 2 ^ 32 ∧
       (any = true ∨ imgProd n.img = y % 2 ^ 12)
     (∀ pre p post, u.board = pre ++ p :: post → hit p → (∀ q ∈ pre, ¬ hit q) → sends (.nbfind d a b any) (p.1 + p.2.seq * 2 ^ 8)) ∧
     ((∀ p ∈ u.board, ¬ hit p) → sends (.nbfind d a b any) (2 ^ 64 - 1))) ∧
    -- PWIN: the window changes as a cycle ends in which no admission in it is outstanding
    Guarded s (.pwinSet a b) [(x % 64 ≠ 0 ∨ y % 64 ≠ 0 ∨ mySp s < x + y, trapOf s 0x04)]
      (updCore s (myCore s) fun u => { u with winNext := some (x, y) }) ∧
    exec .pwinReset s = .next (updCore s (myCore s) fun c =>
      { c with winNext := some (match u.winNext with | some p => p | none => (u.winBase, u.winLen)) }) ∧
    (∀ p q, u.winNext = some (p, q) →
      (windowBusy s (myCore s) = true → settleWindow s (myCore s) = s) ∧
      (windowBusy s (myCore s) = false → coreAt (settleWindow s (myCore s)) (myCore s) =
        { u with winBase := p, winLen := q, winAlloc := p, winNext := none, winSeen := none })) ∧
    -- RKSET
    (let codes : List Nat := (List.range 5).map fun i => fld x (3 * i + 2) (3 * i)
     Guarded s (.rkset a) [(2 ^ 15 ≤ x ∨ ¬ codes.Perm (List.range 5), trapOf s 0x04)]
      (updCore s (myCore s) fun u => { u with rank := x, rankOld := if u.rankAt = s.cyc then u.rankOld else u.rank, rankAt := s.cyc })) ∧
    -- NGRP
    (let ms : List Nat := (List.range y).map fun i => spNum s (myCore s) (x + 2 * i) 2
     let new := newGroup s (myLead s) ms
     Guarded s (.ngrpNew d a b) [(y = 0 ∨ 1152 < y ∨ x % 2 ≠ 0, trapOf s 0x04), (mySp s < x + 2 * y, outside s x)]
       (boardS new.1 d (match new.2 with | some h => BitVec.ofNat 64 h | none => BitVec.allOnes 64)) ∧
     ∀ t h, (∀ i, (groupAt s (myLead s) i).gen < 16) → new = (t, some h) → groupMembers t (myLead s) h = some ms) ∧
    (groupMembers s (myLead s) (x % 2 ^ 16) = none → sends (.ngrpFree d a) (2 ^ 64 - 1)) ∧
    (∀ ms, groupMembers s (myLead s) (x % 2 ^ 16) = some ms →
      ∃ t, exec (.ngrpFree d a) s = .next (boardS t d 0) ∧ groupMembers t (myLead s) (x % 2 ^ 16) = none ∧ t.mem = s.mem) ∧
    -- XSTAT
    exec (.xstat d .st) s = .next (boardS s d (me s).xst) ∧
    exec (.xstat d .clr) s = .next (updMe (boardS s d (me s).xst) fun c => { c with xst := 0 }) ∧
    sends (.xstat d .cred) u.credits.length ∧ sends (.xstat d .win) (let w := atStart s.cyc u; w.winBase + w.winLen - w.winAlloc + w.winAlloc * 2 ^ 32) ∧
    exec (.xstat d .miss) s = .next (boardS s d (me s).miss)

/-- R238 to R257, R284: the instructions of the exchange. -/
def Obligations.ExchangeInstructions : Prop :=
  Clause.ExchangeRequests ∧ Clause.ExchangeRegisters

/-- R238, R282, R285 to R288: a published notice is live from its acceptance, with its timeout running; a free entry of a consumer's board
takes the notice accepted first; one that no consumer awaits, or that finds no free entry, changes nothing; a timeout before the release
withdraws the notice and makes the reclaim trap pending in its task. -/
def Clause.NoticesReachBoards : Prop :=
  (∀ (s : State) (n : Notice),
    let t := publish s n
    (∃ m ∈ t.notices, m.id = s.nextId ∧ m.since = s.cyc ∧ m.img = n.img ∧ m.members = n.members ∧ m.key = n.key) ∧
    (s.cyc + 2 ^ fld n.img 151 148 * 1024, ⟨.noticeTimeout, { core := n.key / 4, id := s.nextId }⟩) ∈ t.timers ∧
    t.mem = s.mem ∧ t.ctxs = s.ctxs) ∧
  (∀ (s : State) (n : Notice) (ent : Nat),
    let core := s.subj.core
    n ∈ s.notices → awaits n core = true →
    (∀ m ∈ s.notices, awaits m core = true → m ≠ n → n.since < m.since ∨ (n.since = m.since ∧ imgProd n.img < imgProd m.img)) →
    ent < 64 → (boardAt s core ent).st = 0 → (∀ i < ent, (boardAt s core i).st ≠ 0) →
    ∃ t, exec .noticeOffer s = .next t ∧ t.mem = s.mem ∧ t.ctxs = s.ctxs ∧
      boardAt t core ent = { boardAt s core ent with st := 1, rk := false, dst := 0, since := s.cyc, notice := n.id, claim := 0 } ∧
      { n with seen := n.seen ++ [n.members.findIdx (· == core)] } ∈ t.notices) ∧
  (∀ s : State, ((∀ n ∈ s.notices, awaits n s.subj.core = false) ∨ ∀ i < 64, (boardAt s s.subj.core i).st ≠ 0) →
    exec .noticeOffer s = .next s) ∧
  (∀ s : State, (noticeOf s s.subj.id = none ∨ ∃ n, noticeOf s s.subj.id = some n ∧ n.released = true) → exec .noticeTimeout s = .next s) ∧
  (∀ (s : State) (n : Notice), noticeOf s s.subj.id = some n → n.released = false → n.chunk = none → n.posted = false →
    let u := withdraw s n
    let x : Trap := { code := 0x1A, p0 := BitVec.ofNat 64 (imgTag n.img), p1 := BitVec.ofNat 64 (n.members.length - n.served.length)
                      p2 := BitVec.ofNat 64 (unservedMask n) }
    (taskLive u n.key n.fut = true → exec .noticeTimeout s =
      .next (wake (updTask u n.key n.fut fun c => { c with async := asyncIns x c.async }) n.key)) ∧
    (taskLive u n.key n.fut = false → exec .noticeTimeout s =
      .next (logFault u (quarterOf (n.key / 4)) 0x21 0 (imgProd n.img) (n.key % 4) (fld n.img 119 64) (imgTag n.img)))) ∧
  (∀ (n : Notice) (p : Nat), p < 63 → Nat.testBit (unservedMask n) p = (decide (p < n.members.length) && !n.served.contains p)) ∧
  ∀ (s : State) (n : Notice), n.out = false → (withdraw s n).notices.all (fun m => m.id != n.id) = true

/-- R241, R246, R289: with a credit and a window, a ranked admission takes the eligible entry with the smallest rank key, claims it for the
oldest credit and gives its pull the next bytes of the window; with none eligible nothing changes. -/
def Clause.RankedAdmissionTakesTheBest : Prop :=
  ∀ s : State,
    let core := s.subj.core
    let u := coreAt s core
    ((mayAdmit s core = false ∨ eligible s core = []) → exec .rankedAdmission s = .next s) ∧
    ∀ (ent : Nat) (e : BoardEntry) (n : Notice) (c : Credit) (cs : List Credit) (p : PullJob),
      mayAdmit s core = true → u.credits = c :: cs → (ent, e, n) ∈ eligible s core →
      (∀ q ∈ eligible s core, q ≠ (ent, e, n) → lexLe (rankKey s core q.1 q.2.1 q.2.2.img) (rankKey s core ent e n.img) = false) →
      pullJob s core n ent 0 0 (imgSize n.img) u.winAlloc false true = .inr p →
      ∃ t, exec .rankedAdmission s = .next t ∧ t.mem = s.mem ∧ t.ctxs = s.ctxs ∧
        (coreAt t core).credits = cs ∧ (coreAt t core).winAlloc = u.winAlloc + roundedSize s core u.winAlloc n.img ∧
        boardAt t core ent = { e with st := 2, rk := true, dst := (u.winAlloc - u.winBase) / 64, claim := s.nextId } ∧
        ∃ r ∈ t.reqs, r.id = s.nextId ∧ r.key = c.key ∧ r.word = some c.word ∧ r.fut = c.fut ∧ r.accepted = true ∧
          r.job = .pull { p with assigned := true }

/-- R238, R241, R246, R282, R285 to R289: notices, boards and ranked admission. -/
def Obligations.NoticesAndAdmissions : Prop :=
  Clause.NoticesReachBoards ∧ Clause.RankedAdmissionTakesTheBest

/-- R290 to R293, R355: a pacing window gives each paced link the budget that stood as it began; in a cycle the oldest pull whose next request fits its link's budget asks for
up to 4,096 bytes; the first flit of a link lands, in whole elements, and a pull ends when its last byte has landed, a cancelled
one when what it asked for has landed, and one that a conversion makes pass SPSIZE with a window fault. -/
def Clause.PullsArePaced : Prop :=
  (∀ s : State,
    let core := s.subj.core
    let u := coreAt s core
    let t := updCore s core fun u => { u with budWin := s.cyc / 64, budLeft := List.replicate 4 (budNow s u) }
    exec .pacingWindowStart s = .next t ∧ ∀ l ≤ 4, linkLeft t core l = if l = 0 then 4096 else budNow s u) ∧
  (∀ (s : State) (u : CoreSt), budNow s u = if s.cyc / 64 < u.budFrom then u.budOld else u.bud) ∧
  (∀ (s : State) (r : Req) (p : PullJob) (n : Nat),
    let core := s.subj.core
    (r, p) ∈ pullsOf s → r.key / 4 = core → nextAsk s core r p = some n → 1 ≤ p.link → p.link ≤ 4 →
    (∀ q ∈ pullsOf s, q ≠ (r, p) → q.1.key / 4 = core → (nextAsk s core q.1 q.2).isSome → r.acc < q.1.acc) →
    ∃ t, exec .pullRequestIssue s = .next t ∧ t.mem = s.mem ∧ t.ctxs = s.ctxs ∧
      (coreAt t core).flits = (coreAt s core).flits ++ flitsFrom r.id p.link p.asked n ∧
      { r with job := .pull { p with asked := p.asked + n } } ∈ t.reqs ∧
      ∀ l, 1 ≤ l → l ≤ 4 → linkLeft t core l = linkLeft s core l - if l = p.link then n else 0) ∧
  (∀ s : State, (∀ q ∈ pullsOf s, q.1.key / 4 = s.subj.core → nextAsk s s.subj.core q.1 q.2 = none) →
    exec .pullRequestIssue s = .next s) ∧
  (∀ s : State, (coreAt s s.subj.core).flits.find? (fun f => f.link == s.subj.val) = none → exec .flitLanding s = .next s) ∧
  ∀ (s u : State) (f : Flit) (r : Req) (p : PullJob) (bs : List Byte),
    let core := s.subj.core
    let g := if p.conv then fmtBytes p.srcF else if p.add then fmtBytes p.dstF else 1
    let hi := if f.off + f.len = p.n then p.n else (f.off + f.len) / g * g
    let gone := updCore u core fun c => { c with flits := c.flits.filter fun x => x != f }
    let landed : State × Nat :=
      if p.conv then
        let k := (wholeElems p.srcF bs.length).getD 0
        let out := convertBytes p.srcF p.dstF k bs
        (mputs gone (spAddr core (p.dst + convBytes p.srcF p.dstF p.placed)) out, out.length)
      else if p.add then (addBytes gone core (p.dst + p.placed) p.dstF bs, bs.length)
      else (mputs gone (spAddr core (p.dst + p.placed)) bs, bs.length)
    let p' := { p with landed := f.off + f.len, placed := hi }
    (coreAt s core).flits.find? (fun f => f.link == s.subj.val) = some f →
    (pullsOf s).find? (fun q => q.1.id == f.pull) = some (r, p) → (∀ d a b sw, r.ins ≠ .rget d a b sw) →
    pullBytes s r p (p.base + p.placed) (hi - p.placed) = (u, .inl bs) →
    let t := countReq landed.1 r landed.2
    (pullOutside u core p hi = true → exec .flitLanding s = .next (endPull gone r p 6)) ∧
    (pullOutside u core p hi = false → exec .flitLanding s = .next (if f.off + f.len = p.n then endPull t r p' 0
      else if r.cancel = true ∧ f.off + f.len = p.asked then endPull t r p' 5 else putJob t r (.pull p')))

/-- R252 to R254, R294, R295: a tree takes one contribution of each member while it is open and closes when it has them all or its time is up;
its result, combined pair by pair or four by four with absent leaves skipped, lands at the root, and absent members are reported. -/
def Clause.TreesCombine : Prop :=
  (∀ (s : State) (r q : Req) (t : TreeJob),
    let d := r.args.getD 1 0
    let pos := t.members.findIdx (· == r.key / 4)
    let refuse (code : Nat) : Prop := exec .treeContribution s = .next (endX s r code 0 (fld d 27 16))
    reqOf s s.subj.id = some r → (treesOf s).find? (fun p => p.1.id == r.args.getD 3 0) = some (q, t) →
    let fits : Prop := pos < t.members.length ∧ t.len = fld d 43 32 ∧ t.op = fld d 47 44 ∧ ∀ e ∈ t.leaves, e.1 ≠ pos
    (t.closed = true → refuse 7) ∧ (t.closed = false → ¬ fits → refuse 8) ∧
    (t.closed = false → fits →
      let t' := { t with leaves := sins t.leaves pos r.data }
      let s' := endX (countReq (putJob s q (.tree t')) r t.len) r 0 0 0
      exec .treeContribution s = .next (if t'.leaves.length = t.members.length then
        addTimer s' (s.cyc + 1) ⟨.treeClose, { subjOf q.key with id := q.id }⟩ else s'))) ∧
  (∀ (s : State) (r : Req), reqOf s s.subj.id = some r → (treesOf s).find? (fun p => p.1.id == r.args.getD 3 0) = none →
    exec .treeContribution s = .next (endX s r 7 0 (fld (r.args.getD 1 0) 27 16))) ∧
  (∀ (s : State) (r : Req) (t : TreeJob), (treesOf s).find? (fun p => p.1.id == s.subj.id) = some (r, t) →
    (t.closed = true → exec .treeClose s = .next s) ∧
    (t.closed = false → ∃ u, exec .treeClose s = .next u ∧ { r with job := .tree { t with closed := true } } ∈ u.reqs ∧
      u.mem = s.mem ∧ u.ctxs = s.ctxs) ∧
    (t.closed = false → exec .treeResultLand s = .next s) ∧
    (t.closed = true →
      let u := countReq (mputs s (spAddr t.root t.dst) (treeResult t)) r t.len
      let m := missingMask t
      let x : Trap := { code := 0x1B, p0 := BitVec.ofNat 64 m, p1 := BitVec.ofNat 64 (r.args.getD 0 0) }
      (m = 0 → exec .treeResultLand s = .next (endX u r 0 0 0)) ∧
      (m ≠ 0 → exec .treeResultLand s = .next (wake (updTask (endX u r 7 0 t.root) r.key r.fut fun c =>
        { c with miss := BitVec.ofNat 64 m, async := asyncIns x c.async }) r.key)))) ∧
  (∀ (t : TreeJob) (p : Nat), Nat.testBit (missingMask t) p = (decide (p < t.members.length) && !t.leaves.any fun e => e.1 == p)) ∧
  -- the order of combining
  (∀ (op x y : Nat) (u v : BitVec 32), u.toNat = x → v.toNat = y →
    combine 1 x y = (u + v).toNat ∧ comb op (some x) none = some x ∧ comb op none (some y) = some y ∧ comb op none none = none ∧
    comb op (some x) (some y) = some (combine op x y)) ∧
  (∀ (op : Nat) (l : Nat → Option Nat),
    let c := comb op
    (∀ i, 4 ≤ i → l i = none) →
    treeElem 0 op ((List.range 64).map l) = treeElem 0 op [c (c (l 0) (l 1)) (c (l 2) (l 3))] ∧
    treeElem 1 op ((List.range 64).map l) = treeElem 1 op [c (c (c (l 0) (l 1)) (l 2)) (l 3)]) ∧
  ∀ (shp x op : Nat), treeElem shp op [some x] = x ∧
    treeElem shp 0 [none] = 0 ∧ treeElem shp 1 [none] = 0 ∧ treeElem shp 2 [none] = 0xFF800000 ∧ treeElem shp 3 [none] = 0x7F800000

/-- R252 to R254, R290 to R295: paced pulls and reduction trees. -/
def Obligations.PullsAndTrees : Prop :=
  Clause.PullsArePaced ∧ Clause.TreesCombine

/-- R255, R256, R296 to R298: a graph image is read, checked and held in its slot, or its slot is left empty; a run's ready node moves its next
4 KiB, and after its last byte it is counted into the sync word and lowers its successors' counters; a cancelled run ends after its chunk. -/
def Clause.GraphsLoadAndRun : Prop :=
  (∀ (s u t : State) (r : Req) (hs bs : List Byte),
    let va := r.args.getD 0 0
    let g := r.args.getD 1 0
    let header := ofBytes hs
    let nn := fld header 15 0
    let nse := fld header 31 16
    let nodes := (List.range nn).map fun i => ofBytes ((bs.drop (32 * i)).take 32)
    let succs := (List.range nse).map fun i => ofBytes ((bs.drop (32 * nn + 2 * i)).take 2)
    reqOf s s.subj.id = some r → readVa s r va 64 = (u, .inl hs) →
    (4096 < nodesUsed u (g / 16) + nn → nn ≤ 4096 →
      exec .graphLoadComplete s = .next (endX (countReq (dropGraph u g) r 64) r 0xB 0 0)) ∧
    (nodesUsed u (g / 16) + nn ≤ 4096 → readVa u r (va + 64) (32 * nn + 2 * nse) = (t, .inl bs) →
      let v := countReq t r (64 + 32 * nn + 2 * nse)
      (graphMalformed header nodes succs = true → exec .graphLoadComplete s = .next (endX (dropGraph v g) r 6 0 0)) ∧
      (graphMalformed header nodes succs = false →
        exec .graphLoadComplete s = .next (endX (putGraph v g { asn := r.asn, loaded := true, nodes, succs }) r 0 0 0)))) ∧
  (∀ (s : State) (r : Req) (j : RunJob) (x : Graph) (first : Req) (f : RunJob),
    let i := s.subj.val
    let n := x.nodes.getD i 0
    let m := j.moved.getD i 0
    let k := chunkBytes n m
    reqOf s s.subj.id = some r → r.job = .run j → graphOf s j.graph = some x → (runsIn s j.graph).head? = some (first, f) →
    ((first.id ≠ r.id ∨ j.counters.getD i 1 ≠ 0 ∨ i ∈ j.counted ∨ x.nodes.length ≤ i) → exec .graphNodeComplete s = .next s) ∧
    (first.id = r.id → j.counters.getD i 1 = 0 → i ∉ j.counted → i < x.nodes.length →
      (∀ u r', (if k = 0 then ((s, r), none) else moveChunk s r j n m k) = ((u, r'), none) →
        (r'.cancel = true → exec .graphNodeComplete s = .next (endRun u r' j 5)) ∧
        (r'.cancel = false → m + k < fld n 55 32 → exec .graphNodeComplete s = .next (putJob u r' (.run { j with moved := j.moved.set i (m + k) }))) ∧
        (r'.cancel = false → fld n 55 32 ≤ m + k →
          let v := countReq u r' 1
          let j' := countNode x { j with moved := j.moved.set i (m + k) } i
          exec .graphNodeComplete s = .next (if j'.counted.length = x.nodes.length then endRun v r' j' 0 else putJob v r' (.run j')))) ∧
      (∀ u r', k ≠ 0 → moveChunk s r j n m k = ((u, r'), some false) → exec .graphNodeComplete s = .next (endRun u r' j 6)))) ∧
  ∀ (x : Graph) (j : RunJob) (i k : Nat), k < j.counters.length →
    (countNode x j i).counters.getD k 0 =
      j.counters.getD k 0 - ((x.succs.drop (fld (x.nodes.getD i 0) 207 192)).take (fld (x.nodes.getD i 0) 223 208)).count k

/-- R212, R299, R300: a tile drained under a barker chunk adds one to its record's CNT, which stops at 65,535, and sets OVR after the
publication; a full, armed chunk is published by its home slice's barker and disarmed; a record that names no valid notice, or that no tile
can be counted into, leaves a fault record. -/
def Clause.BarkerPublishes : Prop :=
  (∀ (s u : State) (pa b : Nat),
    let k := keyOf s.subj
    let c : Chunk := { ia := s.subj.id, key := k, asn := (ctxOf s k).asn }
    s.subj.flag = false → lineHeld s (leadCore s (k / 4)) c.ia true = false → chunkPa s c = (u, .ok pa b) →
    let x := paNum u pa 8
    let cnt := min 0xFFFF (fld x 31 16 + 1)
    let y := if bitAt x 33 then setBit (setFld x 31 16 cnt) 34 true else setFld x 31 16 cnt
    ∃ t, exec .chunkTileCount s = .next t ∧ t.mem = (paPut u pa 8 y).mem ∧ t.ctxs = u.ctxs ∧ c ∈ t.chunks) ∧
  (∀ s : State, s.subj.flag = false → lineHeld s (leadCore s (keyOf s.subj / 4)) s.subj.id true = true →
    exec .chunkTileCount s = .next (addTimer s (s.cyc + 1) ⟨.chunkTileCount, s.subj⟩)) ∧
  (∀ (s u : State) (e : PageEnd),
    let k := keyOf s.subj
    s.subj.flag = false → lineHeld s (leadCore s (k / 4)) s.subj.id true = false →
    chunkPa s { ia := s.subj.id, key := k, asn := (ctxOf s k).asn } = (u, e) → e = .range ∨ e = .protection ∨ e = .pageFault →
    exec .chunkTileCount s = .next (logFault u (homeSlice u (leadCore u (k / 4)) s.subj.id / 64) 0x22 0 0xFFF 0 s.subj.id 0)) ∧
  ∀ (s u : State) (c : Chunk) (pa b : Nat),
    s.chunks.find? (fun c => c.ia == s.subj.id && c.asn == s.subj.val) = some c →
    let s' := putChunk s { c with tried := some s.cyc }
    let q := leadCore s' (c.key / 4)
    let slice := homeSlice s' q c.ia
    lineHeld s' q c.ia true = false → chunkPa s' c = (u, .ok pa b) →
    let x := paNum u pa 8
    let img := paNum u (pa + 32) 32
    let full : Prop := bitAt x 32 = true ∧ bitAt x 33 = false ∧ x % 2 ^ 16 ≤ fld x 31 16
    ((¬ full ∨ c.failed = true) → exec .barkerPublish s = .next u) ∧
    (full → c.failed = false → fld (paNum u (pa + 16) 16) 127 36 ≠ 0 → exec .barkerPublish s = .next (publishFailed u c slice)) ∧
    (full → c.failed = false → fld (paNum u (pa + 16) 16) 127 36 = 0 →
      (imgMalformed u q img = true → exec .barkerPublish s = .next (publishFailed u c slice)) ∧
      (∀ code va ia, imgMalformed u q img = false → rangeCheck (ctxOf u c.key) (fld img 119 64) (imgSize img) .read = .trap code va ia →
        exec .barkerPublish s = .next (publishFailed u c slice)) ∧
      ∀ ia, imgMalformed u q img = false → rangeCheck (ctxOf u c.key) (fld img 119 64) (imgSize img) .read = .ok ia →
        exec .barkerPublish s = .next (publish (soilLine (paPut u pa 8 (setBit (setBit x 33 true) 32 false)) q c.ia)
          { id := 0, img := imgPublished img (coreForm (c.key / 4) ia) (0x800 + slice), key := c.key, asn := c.asn, chunk := some c.ia
            members := (imgConsumers u q img).getD [], slice }))

/-- R212, R255, R256, R296 to R300: accord graphs and barkers. -/
def Obligations.GraphsAndBarkers : Prop :=
  Clause.GraphsLoadAndRun ∧ Clause.BarkerPublishes

/-- R51, R59, R98, R101, R264 to R267: COPY and COPYC check their shape, both sides in all of their runs, their sync word and their formats, in that
order, and then go out; each run converts in the formats its banks had at acceptance; a chunk moves up to 4,096 source bytes of one run in
whole elements and is counted; a reclamation ends a copy after its chunk with SHORT, and a fault with ERR. -/
def Clause.CopiesAndFills : Prop :=
  (∀ (s : State) (a b n : Nat) (sw : BitVec 17) (ws wd : Bool),
    let d := nestWords s n
    let x := (readS s a).toNat
    let y := (readS s b).toNat
    let traps (i : Instr) (code va ia : Nat) : Prop := exec i s = .next (takeTrap s s.at_ (addrTrap s code va ia) (curSeq s))
    (nestMalformed d = true → traps (.copy a b sw ws wd n) 0x08 0 0 ∧ traps (.copyc a b sw wd n) 0x08 0 0) ∧
    (nestMalformed d = false →
      (∀ code va ia, sourceCheck s d ws y = .trap code va ia → traps (.copy a b sw ws wd n) code va ia) ∧
      (∀ src k, sourceCheck s d ws y = .ok src k →
        (∀ code va ia, destCheck s d wd x (some src) = .trap code va ia → traps (.copy a b sw ws wd n) code va ia) ∧
        (∀ dst conflict, destCheck s d wd x (some src) = .ok dst conflict → Guarded s (.copy a b sw ws wd n)
          [wordCheck s sw, (conflict = true, trapOf s 0x0D)]
          (request s (.copy a b sw ws wd n) 2 (some sw) [] (.copy { desc := d, dst, src, wd, ws })))) ∧
      (∀ code va ia, destCheck s d wd x none = .trap code va ia → traps (.copyc a b sw wd n) code va ia) ∧
      (∀ dst k, destCheck s d wd x none = .ok dst k → Guarded s (.copyc a b sw wd n) [wordCheck s sw]
        (request s (.copyc a b sw wd n) 2 (some sw) [] (.copy { desc := d, dst, wd, fill := some (readS s b) }))))) ∧
  -- a side that passes its check lies in the scratchpad with every one of its runs
  (∀ (s : State) (d : List Word) (x b : Nat) (k : Bool), shapeEmpty d = false →
    (sourceCheck s d true x = .ok b k → ∀ r < runCount d, shapeAt x (runOffset d 0 r) + nestCount d 0 ≤ mySp s) ∧
    (destCheck s d true x none = .ok b k → ∀ r < runCount d, shapeAt x (runOffset d 1 r) + nestCount d 0 ≤ mySp s)) ∧
  -- the formats of a run
  (∀ (s : State) (r : Req) (c : CopyJob), c.fill = none →
    let c' := startRun s r c
    c'.srcF = fmtAt s r.accAt (r.key / 4) (shapeAt c.src (runOffset c.desc 0 c.run)) ∧
    c'.dstF = fmtAt s r.accAt (r.key / 4) (shapeAt c.dst (runOffset c.desc 1 c.run)) ∧ c'.conv = converts c'.srcF c'.dstF) ∧
  (∀ (s u v : State) (r : Req) (c : CopyJob) (as_ bs : List (List (Nat × Nat))),
    let n := nextChunk c
    let src := shapeAt c.src (runOffset c.desc 0 c.run) + c.off
    let dst := shapeAt c.dst (runOffset c.desc 1 c.run) + if c.conv then convBytes c.srcF c.dstF c.off else c.off
    let raw := readKept u r (firstCopy as_)
    let out := match c.fill with
      | some x => fillBytes x c.off n
      | none => if c.conv then convertBytes c.srcF c.dstF ((wholeElems c.srcF n).getD 0) raw else raw
    reqOf s s.subj.id = some r → r.job = .copy c → r.accepted = true →
    (∀ code, c.fill = none → spots s r.key r.asn src n false = (u, .fail code) →
      exec .copyChunk s = .next (chunkFault u r src (.fail code))) ∧
    ((if c.fill.isSome then u = s else spots s r.key r.asn src n false = (u, .ok as_)) →
      (∀ code, spots u r.key r.asn dst out.length true = (v, .fail code) → exec .copyChunk s = .next (chunkFault v r dst (.fail code))) ∧
      (spots u r.key r.asn dst out.length true = (v, .ok bs) →
        let t := countReq (touchChunks (bs.foldl (fun s ps => writeSpots s ps out) v) r.key r.asn (lineAddrs dst out.length)) r
          (out.length * bs.length)
        let r' := dropKept r bs
        let c' := if c.off + n < nestCount c.desc 0 then { c with off := c.off + n } else startRun t r' { c with run := c.run + 1, off := 0 }
        exec .copyChunk s = .next (if runCount c.desc ≤ c'.run then dropReq t r'
          else if r'.cancel = true then dropReq (flagWord t r' 5) r' else putJob t r' (.copy c'))))) ∧
  (∀ (s : State) (r : Req) (c : CopyJob), reqOf s s.subj.id = some r → r.job = .copy c → r.accepted = false → exec .copyChunk s = .next s) ∧
  -- the one run of a copy within its core's scratchpad, as short as a chunk, moves whole
  (∀ (s : State) (r : Req) (c : CopyJob) (o p : Nat),
    let core := r.key / 4
    let n := nestCount c.desc 0
    reqOf s s.subj.id = some r → r.job = .copy c → r.accepted = true → c.fill = none → c.conv = false → r.kept = [] → c.run = 0 → c.off = 0 →
    runCount c.desc = 1 → 0 < n → n ≤ 4096 → spReached s core core o n = true → spReached s core core p n = true → Memory.wf s.mem = true →
    shapeAt c.src (runOffset c.desc 0 0) = spAddr core o → shapeAt c.dst (runOffset c.desc 1 0) = spAddr core p →
    ∃ t, exec .copyChunk s = .next t ∧ (∀ x ∈ t.reqs, x.id ≠ r.id) ∧
      ∀ a, mget t a = if spAddr core p ≤ a ∧ a < spAddr core p + n then mget s (spAddr core o + (a - spAddr core p)) else mget s a) ∧
  (∀ (s : State) (k p x asn n : Nat) (w : Bool), windowOf (k / 4) p = .scratch x (p - spAddr x 0) → spReached s (k / 4) x (p - spAddr x 0) n = true →
    spots s k asn p n w = (s, .ok [[(spAddr x (p - spAddr x 0), n)]])) ∧
  ∀ (x : Word) (o n i : Nat), i < n → (fillBytes x o n).getD i 0 = x.extractLsb' (8 * ((o + i) % 8)) 8

/-- R53 to R55, R98, R99, R268, R269: SWSET, SWADD and SWRD check the word and go out; RTWR, RTRD and RTARM write, read and arm the range
table; at the end of a cycle a word counts its arrivals, advances as often as its target divides the count, and sets its flags. -/
def Clause.SyncWordsAndRangeTable : Prop :=
  (∀ (s : State) (d a b : Nat) (sw : BitVec 17) (g hi : Bool),
    let w := waitWord s a sw
    let y := (readS s b).toNat
    let v := readS s a
    let checks : List (Prop × Trap) := [(w % 16 ≠ 0, trapOf s 0x04), (mySp s ≤ w, outside s w)]
    let big : Prop × Trap := (2 ^ 40 ≤ y, trapOf s 0x04)
    Guarded s (.swset d a b sw g) (checks ++ [big]) (request s (.swset d a b sw g) 2 none [w, y, (readS s d).toNat % 2 ^ 16] .none) ∧
    Guarded s (.swadd a b sw) (checks ++ [big]) (request s (.swadd a b sw) 2 none [w, y] .none) ∧
    Guarded s (.swrd d a sw hi) checks (requestFor s (.swrd d a sw hi) 3 none [w] [.s d]) ∧
    (let lim : Nat := mySp s / 64
     let x := v.toNat
     let bad : Prop := fld x 63 50 ≠ 0 ∨ (bitAt x 48 = true ∧ (fld x 30 15 = 0 ∨ lim < fld x 14 0 + fld x 30 15))
     Guarded s (.rtwr d a) [(bad, trapOf s 0x04)] (wake (updMe s fun c => { c with range := sins c.range d ⟨v, s.cyc⟩ }) s.at_)) ∧
    exec (.rtrd d a) s = .next (requestFor s (.rtrd d a) 1 none [] [.s d]) ∧
    Guarded s (.rtarm a) [(2 ^ 16 ≤ v.toNat, trapOf s 0x04)]
      (let arm (p : Nat × RangeEntry) : Nat × RangeEntry :=
        if v.getLsbD p.1 ∧ p.2.word.getLsbD 48 then (p.1, ⟨p.2.word &&& ~~~ BitVec.twoPow 64 49, s.cyc⟩) else p
       updMe s fun c => { c with range := c.range.map arm })) ∧
  (∀ (x a : Nat) (short err : Bool), x < 2 ^ 128 →
    let tgt := fld x 39 0
    let sum := min (2 ^ 40 - 1) (fld x 79 40 + a)
    let n := if tgt = 0 then 0 else sum / tgt
    let y := (swAdd x a short err).1
    (swAdd x a short err).2 = n ∧ fld y 39 0 = tgt ∧ fld y 79 40 = (if tgt = 0 then sum else sum % tgt) ∧
    fld y 95 80 = (fld x 95 80 + n) % 2 ^ 16 ∧ (bitAt y 96 = true ↔ bitAt x 96 = true ∨ (0 < n ∧ sum % tgt ≠ 0)) ∧
    (bitAt y 97 = true ↔ bitAt x 97 = true ∨ short = true) ∧
    (bitAt y 98 = true ↔ bitAt x 98 = true ∨ err = true ∨ 2 ^ 40 ≤ fld x 79 40 + a) ∧
    (bitAt y 99 = true ↔ bitAt x 99 = true ∨ 2 ^ 16 ≤ fld x 95 80 + n)) ∧
  ∀ (c : Ctx) (off : Nat), byteReady c off = true ↔ ∀ p ∈ c.range, let w := p.2.word.toNat
    bitAt w 48 = true → bitAt w 49 = false → ¬ (64 * fld w 14 0 ≤ off ∧ off < 64 * (fld w 14 0 + fld w 30 15))

/-- R53 to R55, R98, R99, R264 to R269: copies, sync words and the range table. -/
def Obligations.CopiesAndSyncWords : Prop :=
  Clause.CopiesAndFills ∧ Clause.SyncWordsAndRangeTable

/-- R257, R301 to R303, R420, R421: a frame that authenticates with a counter above the last is accepted and answers its request; any other
closes its connection, as does a frame that no link can carry; a peer's put or get is served inside its window, and otherwise refused
without effect but for the frame that says so; one that meets a page that is not there waits. -/
def Obligations.ConnectionsCarryFrames : Prop :=
  (∀ s : State,
    let c := s.subj.id
    let x := connOf s c
    let good : Prop := s.subj.flag = true ∧ (if s.subj.ctx = 1 then x.oldRxc else x.rxc) < s.subj.val ∧ s.subj.val < 2 ^ 64 ∧ (s.subj.ctx = 1 → x.oldRxk ≠ none)
    (x.opened = false → exec .frameReceive s = .next s) ∧
    (x.opened = true → ¬ good → exec .frameReceive s = .next (closeConn s c true)) ∧
    (x.opened = true → good →
      let t := putConn s c (if s.subj.ctx = 1 then { x with oldRxc := s.subj.val } else { x with rxc := s.subj.val, oldRxk := none })
      (∀ r, reqOf s s.subj.ref = some r → r.accepted = true → r.args.getD 0 0 = c → exec .frameReceive s = .next (answerFrame t r)) ∧
      (reqOf s s.subj.ref = none → exec .frameReceive s = .next t)) ∧
    (s.subj.flag = true → exec .linkFrameLoss s = .next s) ∧
    (s.subj.flag = false → exec .linkFrameLoss s = .next (closeConn s c true))) ∧
  (∀ (s : State) (c : Nat), (connOf s c).opened = true →
    (connOf (closeConn s c true) c).opened = false ∧ (connOf (closeConn s c true) c).txk = 0 ∧ (connOf (closeConn s c true) c).rxk = 0) ∧
  (∀ (s : State) (c : Nat), let x := connOf s c
    (x.opened = true → x.txc + 1 < 2 ^ 64 → sendFrame s c = putConn s c { x with txc := x.txc + 1 }) ∧
    (x.opened = true → 2 ^ 64 ≤ x.txc + 1 → sendFrame s c = closeConn s c true)) ∧
  ∀ (s : State) (addr n : Nat) (bs : List Byte),
    let c := s.subj.id
    let x := connOf s c
    let core := c / 1024 * 288
    let inside (n : Nat) : Prop := 0 < n ∧ x.wbase ≤ addr ∧ addr + n ≤ x.wlim + 1
    let ends (u : State) : State :=
      let v := sendFrame u c
      if (connOf v c).opened then putConn v c { connOf v c with waits := [] } else v
    let waits (u : State) (r : RemoteReq) : State :=
      if (connOf u c).opened then addTimer (putConn u c { connOf u c with waits := [(s.subj.val, r)] }) (u.cyc + 1) ⟨.remoteRequest, { id := c }⟩ else u
    let paged (a : Nat) : Prop := windowOf core a = .memory ∨ windowOf core a = .cxl ∨ ∃ p o, windowOf core a = .scratch p o
    (x.opened = false → exec .remoteRequest s = .next s) ∧
    (x.opened = true → x.waits = [] →
      (s.subj.req = some .flush → exec .remoteRequest s = .next (ends s)) ∧
      (s.subj.req = some (.put addr bs) →
        (¬ (inside bs.length ∧ x.wwr = true) → exec .remoteRequest s = .next (ends s)) ∧
        (∀ q o, windowOf core addr = .ctl .part q o → exec .remoteRequest s = .next (ends s)) ∧
        (∀ q o, inside bs.length → x.wwr = true → windowOf core addr = .notify q o →
          exec .remoteRequest s = .next (ends (regWrite s { core, id := addr, val := 2, data := bs }))) ∧
        (inside bs.length → x.wwr = true → paged addr → ∀ u,
          (∀ cs, spots s (4 * core) x.asn addr bs.length true = (u, .ok cs) →
            exec .remoteRequest s = .next (ends (cs.foldl (fun s ps => writeSpots s ps bs) u))) ∧
          (spots s (4 * core) x.asn addr bs.length true = (u, .wait) → exec .remoteRequest s = .next (waits u (.put addr bs))) ∧
          ∀ code, spots s (4 * core) x.asn addr bs.length true = (u, .fail code) → exec .remoteRequest s = .next (ends u))) ∧
      (s.subj.req = some (.get addr n) →
        (¬ (inside n ∧ x.wrd = true) → exec .remoteRequest s = .next (ends s)) ∧
        (inside n → x.wrd = true → ∀ u e, spots s (4 * core) x.asn addr n false = (u, e) →
          exec .remoteRequest s = .next (if e = .wait then waits u (.get addr n) else ends u))))

/-! ### Tasks, references, queues -/

/-- R273 to R277: SPAWN and the reference instructions check their operand and ask the task engine; FAWAIT that has proceeded answers RES, or
what it found; FPIN and FUNPIN ask for the pin depth at the boundary and trap past its ends; an accepted FREF, FDROP, FSTAT or FSET acts
on the future's record; a handle is stale by its index or its generation alone (R270). -/
def Obligations.ReferenceResults : Prop :=
  (∀ (s : State) (d a b c : Nat) (ar : Bool),
    let v := readS s a
    let bad : Prop × Trap := (fld v.toNat 63 36 ≠ 0, trapOf s 0x04)
    let asks (i : Instr) : State := requestFor s i 2 none [v.toNat] [.s d]
    Guarded s (.fref d a) [bad] (asks (.fref d a)) ∧ Guarded s (.fdrop d a) [bad] (asks (.fdrop d a)) ∧
    Guarded s (.fstat d a) [bad] (asks (.fstat d a)) ∧ exec (.fset d a) s = .next (asks (.fset d a)) ∧
    (let x := futRead s (myLead s) (futIndex v.toNat)
     let r : Nat × Bool := if futStale s (myLead s) v.toNat then (1, false) else if futSt x = 3 then (fld x 127 64, true) else (2, false)
     Guarded s (.fawait d a c) [bad] (queueBoard s [{ dst := .s d, bits := r.1 }, { dst := .f c, bits := r.2.toNat }])) ∧
    (let depth (n : Nat) : State := { s with iss := { s.iss with mark := true, pin := some n } }
     let n := (me s).regs.pin
     Guarded s .fpin [(n = 15, trapOf s 0x15)] (depth (n + 1)) ∧ Guarded s .funpin [(n = 0, trapOf s 0x16)] (depth (n - 1))) ∧
    -- SPAWN
    (v.toNat % 64 ≠ 0 → exec (.spawn d a b ar) s = .next (takeTrap s s.at_ (trapOf s 0x04) (curSeq s))) ∧
    (v.toNat % 64 = 0 →
      (∀ code va ia, rangeCheck (me s) v.toNat 64 .read = .trap code va ia →
        exec (.spawn d a b ar) s = .next (takeTrap s s.at_ (addrTrap s code va ia) (curSeq s))) ∧
      ∀ ia, rangeCheck (me s) v.toNat 64 .read = .ok ia → Guarded s (.spawn d a b ar)
        [((∃ g o, windowOf (myCore s) ia = .mcast g o) ∨ windowOk s (quarterOf (myCore s)) (me s).pl (windowOf (myCore s) (ia + 63)) = false, addrTrap s 0x0B v.toNat ia)]
        (requestFor s (.spawn d a b ar) 2 none [ia, v.toNat, (readS s b).toNat] [.s d]))) ∧
  ∀ (s : State) (r : Req) (d : Nat),
    let q := leadCore s (r.key / 4)
    let h := r.args.getD 0 0
    let x := futRead s q (futIndex h)
    let held := match (reqCtx s r).task with | some t => t.held | none => []
    let t := dropReq s r
    let known : Prop := futStale s q h = false
    (¬ known → acceptFref s r d = answerS t r d 1 ∧ acceptFdrop s r d = answerS t r d 1) ∧
    (¬ known ∨ futSt x = 0 → acceptFstat s r d = answerS t r d (2 ^ 23)) ∧
    (known ↔ futIndex h ≠ 0 ∧ futIndex h < creg s q .sched 0x018 ∧ fld x 39 24 = fld h 35 20) ∧
    (known → futSt x = 5 → acceptFref s r d = answerS t r d 1) ∧
    (known → futSt x ≠ 5 → futCnt x = 2 ^ 20 - 1 → acceptFref s r d = reqTrap t r 0x12) ∧
    (known → futSt x ≠ 5 → futCnt x ≠ 2 ^ 20 - 1 → BitVec.ofNat 64 h ∉ held → 256 ≤ held.eraseDups.length →
      acceptFref s r d = reqTrap t r 0x14) ∧
    (known → futSt x ≠ 5 → futCnt x ≠ 2 ^ 20 - 1 → (BitVec.ofNat 64 h ∈ held ∨ held.eraseDups.length < 256) →
      acceptFref s r d =
        answerS (updHeld (futWrite t q (futIndex h) (setFld x 19 0 (futCnt x + 1))) r (· ++ [BitVec.ofNat 64 h])) r d 0) ∧
    (known → BitVec.ofNat 64 h ∉ held → acceptFdrop s r d = reqTrap t r 0x13) ∧
    (known → BitVec.ofNat 64 h ∈ held →
      acceptFdrop s r d = dropRef (answerS (updHeld t r fun l => l.erase (BitVec.ofNat 64 h)) r d 0) q h) ∧
    (known → futSt x ≠ 0 → acceptFstat s r d = answerS t r d (futCnt x + futSt x * 2 ^ 20))

/-- R20, R22, R26, R27, R33, R47, R382, R406: a task starts on a free context with its record's values; a task that is over, or faulted, ends its
future and frees its context, unless its last reference was dropped in an earlier cycle; an idle core asks a drawn victim, which answers, as the cycle ends, the lowest thief with its last task or empty, the
back-off doubling; a stolen task joins the head of the thief's queue. -/
def Clause.TasksStartEndAndMove : Prop :=
  (∀ (s s' : State) (r : TaskRec),
    let k := keyOf s.subj
    let core := k / 4
    let free : Prop := (ctxOf s k).st = .free ∧ coreFenced s core = false ∧ ctxClaimed s k = false
    (¬ free → exec .taskStart s = .next s) ∧ (takeTask s k = none → exec .taskStart s = .next s) ∧
    (free → takeTask s k = some (r, s') → configFits s core r.ppw = false → exec .taskStart s = .next s) ∧
    (free → takeTask s k = some (r, s') → configFits s core r.ppw = true →
      ∃ t, exec .taskStart s = .next t ∧
        let c := ctxOf t k
        c.st = .ready ∧ c.pc = r.pro ∧ c.pl = r.pl ∧ c.asn = r.asn ∧ c.tvec = r.tvec ∧ c.trec = r.trec ∧ c.task = some { record := r } ∧
        c.cycLim = r.cycLim ∧ c.mark.restart = r.pro ∧ c.regs.loop.active = false ∧ c.regs.pin = 0 ∧ c.flights = [] ∧
        (r.spatial = [] → sget 0 c.regs.s 1 = r.arg ∧ sget 0 c.regs.s 2 = r.fut ∧ ∀ n, 3 ≤ n → sget 0 c.regs.s n = 0))) ∧
  (∀ s : State,
    let k := keyOf s.subj
    let c := ctxOf s k
    let h := (futOf c).toNat
    let q := leadCore s (k / 4)
    (s.subj.flag = true → c.why = .fault →
      let u := forceLate s k
      ((ctxOf u k).late = [] → exec .taskComplete s = .next (endTask (endFuture u q h 4) k true)) ∧
      ((ctxOf u k).late ≠ [] → exec .taskComplete s = .next (addTimer u (u.cyc + 1) ⟨.taskComplete, u.subj⟩))) ∧
    (s.subj.flag = true → c.why ≠ .fault → exec .taskComplete s = .next s) ∧
    (s.subj.flag = false → (c.st ≠ .stopping ∨ c.why ≠ .done) → exec .taskComplete s = .next s) ∧
    (s.subj.flag = false → c.st = .stopping → c.why = .done → reclaimDue c = true → c.reclaimAt < s.cyc →
      exec .taskComplete s = .next (addReady s ⟨.reclaimStop, subjOf k⟩)) ∧
    (s.subj.flag = false → c.st = .stopping → c.why = .done → ¬ (reclaimDue c = true ∧ c.reclaimAt < s.cyc) →
      (taskQuiet s k = true → exec .taskComplete s = .next (endTask (endFuture s q h 3) k false)) ∧
      (taskQuiet s k = false → c.async = [] → exec .taskComplete s = .next (addTimer s (s.cyc + 1) ⟨.taskComplete, s.subj⟩)))) ∧
  (∀ (s : State) (l : Launch),
    let core := s.subj.core
    let u := coreAt s core
    u.steal.asked = none → u.steal.off = false → (∀ p ∈ s.transit, p.1 ≠ core) →
    (stealLaunch s core = none → exec .stealRequest s = .next s) ∧
    (stealLaunch s core = some l →
      let x := xorshift (if u.steal.launch = l.id then u.steal.x else stealSeed core l.lnum)
      let others := (setCores l.cset).filter fun c => c != core
      ∃ t, exec .stealRequest s = .next t ∧ (coreAt t core).steal.asked = some (others.getD (x % others.length) core) ∧
        (coreAt t core).steal.x = x ∧ t.mem = s.mem ∧ t.ctxs = s.ctxs)) ∧
  (∀ (x : BitVec 32),
    let a := x ^^^ (x <<< 13)
    let b := a ^^^ (a >>> 17)
    BitVec.ofNat 32 (xorshift x.toNat) = b ^^^ (b <<< 5)) ∧
  (∀ (s : State) (thief : Nat) (l : Launch),
    let v := s.subj.core
    let most := creg s (leadCore s thief) .sched 0x040
    let w := min (coreAt s thief).steal.wait most
    let mine := (coreAt s v).rq.filter fun r => r.launch == l.id
    (s.subj.flag = false → exec .stealAnswer s = .next (addTimer s (s.cyc + 1) ⟨.stealAnswer, { s.subj with flag := true }⟩)) ∧
    (s.subj.flag = true → firstThief s v = none → exec .stealAnswer s = .next s) ∧
    (s.subj.flag = true → firstThief s v = some thief → launchOf s (coreAt s thief).steal.launch = some l → thief ≠ v →
      ((l.ns = true ∨ coreFenced s thief = true ∨ mine.length ≤ ownClaims s v) →
        ∃ t, exec .stealAnswer s = .next t ∧ (coreAt t thief).steal.off = true ∧ (coreAt t thief).steal.asked = none ∧
          (coreAt t thief).steal.wait = min (2 * w) most ∧
          (s.cyc + w, ⟨.stealBackoffExpiry, { core := thief }⟩) ∈ t.timers ∧ t.transit = s.transit) ∧
      (∀ r rest, l.ns = false → coreFenced s thief = false → ownClaims s v < mine.length → takeTail l.id (coreAt s v).rq = some (r, rest) →
        ∃ t, exec .stealAnswer s = .next t ∧ t.transit = s.transit ++ [(thief, r)] ∧ (coreAt t v).rq = rest ∧
          (coreAt t thief).steal.wait = 64))) ∧
  (∀ s : State, ∃ t, exec .stealBackoffExpiry s = .next t ∧ (coreAt t s.subj.core).steal.off = false ∧ t.mem = s.mem ∧ t.ctxs = s.ctxs) ∧
  ∀ (s : State) (r : TaskRec) (j : Nat),
    let core := s.subj.core
    let q := leadCore s core
    let u := { s with transit := s.transit.filter fun p => p.2.fut != r.fut }
    s.transit.find? (fun p => p.1 == core) = some (j, r) →
    ((futStale s q r.fut.toNat = true ∨ futSt (futRead s q (futIndex r.fut.toNat)) ≠ 5) →
      exec .stolenTaskArrival s =
        .next (fillCore (setFutCore (updCore u core fun c => { c with rq := r :: c.rq }) q r.fut.toNat core) core)) ∧
    (futStale s q r.fut.toNat = false → futSt (futRead s q (futIndex r.fut.toNat)) = 5 →
      exec .stolenTaskArrival s = .next (taskGone (retireFuture u q (futIndex r.fut.toNat)) r.launch core false))

/-- R30 to R34, R36 to R38, R361, R412: a context at its reclamation point is rolled back, its task's effects end and it is free; pin limit,
watchdog and yield deadline act once they are due; a context that blocks in FAWAIT on a task queued on its core gives its place up; a
stopping context that has drained is saved at its mark and may go on. -/
def Clause.ContextsStopAndGoOn : Prop :=
  ∀ s : State,
    let k := keyOf s.subj
    let c := ctxOf s k
    -- RECLAIM_STOP
    (let late : Prop := c.why = .done ∧ reclaimDue c = true ∧ c.reclaimAt < s.cyc
     (s.subj.flag = false → (c.st ≠ .stopping ∨ (c.why ≠ .reclaim ∧ ¬ late)) → exec .reclaimStop s = .next s) ∧
     s.subj.flag = false → c.st = .stopping → (late ∨ c.why = .reclaim) → (c.nextMark = none ∨ c.ownMark = true) →
       let u := if c.why = .done ∧ reclaimDue c = true ∧ c.reclaimAt < s.cyc then updCtx s k fun c => { c with why := .reclaim } else s
       let v := forceLate u k
       ((ctxOf v k).late = [] →
         exec .reclaimStop s = .next (reclaimed (freeCtx (endEffects (rollback v k) k (futOf (ctxOf u k))) k) k (ctxOf u k))) ∧
       ((ctxOf v k).late ≠ [] → exec .reclaimStop s = .next (addTimer v (v.cyc + 1) ⟨.reclaimStop, v.subj⟩))) ∧
    (∀ x j, s.subj.flag = true → s.saved.find? (fun p => p.1 == k && futOf p.2 == BitVec.ofNat 64 s.subj.id) = some (j, x) →
      exec .reclaimStop s = .next (reclaimed (endEffects
        { s with saved := s.saved.filter fun p => !(p.1 == k && futOf p.2 == futOf x) } k (futOf x)) k x)) ∧
    (ctxOf (freeCtx s k) k).st = .free ∧ (ctxOf (freeCtx s k) k).task = none ∧
    -- PIN_LIMIT_EXPIRY
    (let due : Prop := c.reclaim = true ∧ c.reclaimAt = s.subj.val ∧ c.reclaimAt + c.pinLim ≤ s.cyc ∧ c.regs.pin ≠ 0 ∧ c.st ≠ .free
     (futOf c).toNat = s.subj.id →
     (¬ due → (∀ p ∈ s.saved, (futOf p.2).toNat ≠ s.subj.id) → exec .pinLimitExpiry s = .next s) ∧
     (due → mustHold c (c.bseq + 1) = false → ∃ t, exec .pinLimitExpiry s = .next t ∧ (ctxOf t k).st = .stopping ∧ (ctxOf t k).why = .reclaim ∧
       (ctxOf t k).regs = c.mark.regs ∧ ⟨.reclaimStop, subjOf k⟩ ∈ t.ready) ∧
     (due → mustHold c (c.bseq + 1) = true → exec .pinLimitExpiry s = .next (addTimer s (s.cyc + 1) ⟨.pinLimitExpiry, s.subj⟩))) ∧
    (∀ j x, c.st = .free → (∀ p ∈ s.ctxs, (futOf p.2).toNat ≠ s.subj.id) → (futOf c).toNat ≠ s.subj.id →
      s.saved.find? (fun p => leadCore s (p.1 / 4) == leadCore s s.subj.core && (futOf p.2).toNat == s.subj.id && pinHeld s p.2) = some (j, x) →
      ∃ t, exec .pinLimitExpiry s = .next t ∧ ⟨.reclaimStop, { subjOf j with flag := true, id := s.subj.id }⟩ ∈ t.ready) ∧
    -- WATCHDOG_EXPIRY
    (let due : Prop := (s.subj.flag = true ∨ 2 * c.cycLim < c.wdc) ∧ c.st ≠ .free ∧ c.st ≠ .stopping
     (¬ due → exec .watchdogExpiry s = .next s) ∧
     (due → ∃ x : Trap, x.code = 0x11 ∧ x.pc = c.pc ∧ x.slot = 0 ∧ x.cyc = s.cyc ∧
       exec .watchdogExpiry s = .next { takeTrap { s with at_ := k } k x (c.bseq + 1) with iss := {} })) ∧
    -- YIELD_DEADLINE_EXPIRY
    (let due : Prop := s.subj.flag = false ∧ c.yieldReq = true ∧ c.yieldAt = s.subj.val ∧ c.yieldAt + c.yd ≤ s.cyc ∧ c.st ≠ .free ∧ c.st ≠ .stopping
     let held : Prop := c.retry = true ∨ c.heldTrap ≠ none ∨ c.async ≠ [] ∨ c.forced = false
     let gives : Prop := s.subj.flag = true ∧ c.st = .waiting ∧ c.bseq = s.subj.id ∧ c.awaiting = some (BitVec.ofNat 64 s.subj.val) ∧
       ∃ r ∈ (coreAt s (k / 4)).rq, r.fut = BitVec.ofNat 64 s.subj.val
     (¬ due → ¬ gives → exec .yieldDeadlineExpiry s = .next s) ∧
     (gives → c.retry = false → c.heldTrap = none → c.async = [] → ∃ t, exec .yieldDeadlineExpiry s = .next t ∧
       (ctxOf t k).st = .stopping ∧ (ctxOf t k).why = .save ∧ (ctxOf t k).regs = c.regs ∧ (ctxOf t k).pc = c.pc ∧
       ⟨.contextSaveComplete, subjOf k⟩ ∈ t.ready) ∧
     (due → held → exec .yieldDeadlineExpiry s =
       .next (addTimer (updCtx s k fun c => { c with forced := !c.retry }) (s.cyc + 1) ⟨.yieldDeadlineExpiry, s.subj⟩)) ∧
     (due → ¬ held → ∃ t, exec .yieldDeadlineExpiry s = .next t ∧ (ctxOf t k).st = .stopping ∧ (ctxOf t k).why = .save ∧
       (ctxOf t k).regs = c.regs ∧ (ctxOf t k).pc = c.pc ∧ ⟨.contextSaveComplete, subjOf k⟩ ∈ t.ready)) ∧
    -- CONTEXT_SAVE_COMPLETE
    (let stopping : Prop := c.st = .stopping ∧ (c.why = .save ∨ c.why = .halt) ∧ c.saved = false ∧ c.halted = false
     let u := stopPasses s k
     (¬ stopping → exec .contextSaveComplete s = .next s) ∧
     (stopping → c.async = [] → saveDrained u k = false →
       exec .contextSaveComplete s = .next (addTimer u (s.cyc + 1) ⟨.contextSaveComplete, s.subj⟩)) ∧
     (∀ v, stopping → c.async = [] → saveDrained u k = true → c.nextMark = none → confirmRegion u k = (v, .ok) →
       let w := forceLate (completeMark v k (markOf (ctxOf v k))) k
       ((ctxOf w k).late = [] → exec .contextSaveComplete s = .next (if c.why = .halt then saveHere w k else afterSave (saveHere w k) k)) ∧
       ((ctxOf w k).late ≠ [] → exec .contextSaveComplete s = .next (addTimer w (w.cyc + 1) ⟨.contextSaveComplete, w.subj⟩))) ∧
     (c.why = .halt → (ctxOf (saveHere s k) k).halted = true) ∧ (c.why = .save → (ctxOf (saveHere s k) k).saved = true)) ∧
    -- TASK_RESUME
    (let goes : Prop := c.st = .stopping ∧ c.why = .save ∧ c.saved = true ∧ (∀ t, residentOf s (clusterOf (k / 4)) = some t → t.leaving = false) ∧
       coreFenced s (k / 4) = false ∧ ctxClaimed s k = false
     (¬ goes → parkedHere s k = none → exec .taskResume s = .next s) ∧
     (∀ x, ¬ goes → parkedHere s k = some x → exec .taskResume s = .next (unpark s k x)) ∧
     (∀ x, c.st = .free → x.halted = false → parkedHere s k = some x → ∃ t, exec .taskResume s = .next t ∧ (ctxOf t k).st = .ready ∧ (ctxOf t k).saved = false ∧
       (ctxOf t k).pc = x.pc ∧ (ctxOf t k).regs = x.regs ∧ (ctxOf t k).q = x.q) ∧
     (goes → ∃ t, exec .taskResume s = .next t ∧ (ctxOf t k).st = .ready ∧ (ctxOf t k).saved = false ∧ (ctxOf t k).yieldReq = false ∧
       (ctxOf t k).pc = c.pc ∧ (ctxOf t k).regs = c.regs ∧ (ctxOf t k).q = c.q))

/-- R20, R22, R26, R27, R30 to R38, R361: tasks start, end and move; contexts stop and go on. -/
def Obligations.TasksAndContexts : Prop :=
  Clause.TasksStartEndAndMove ∧ Clause.ContextsStopAndGoOn

/-- R369, R372, R373, R375 to R379: QMAP, QUNMAP and QKICK check their slot and go out; a notify write moves WIDX of an enabled queue or counts
as bad; the entry at RIDX is admitted, waits, or stalls its queue; a launch whose tasks have ended counts its completion; an unmap that has
timed out is refused. -/
def Obligations.QueuesAndLaunches : Prop :=
  (∀ (s : State) (a b : Nat),
    let va := (readS s a).toNat
    let lead := myLead s
    let base := creg s lead .sched 0x000
    let p := (readS s b).toNat % 64
    let mine : Prop := sameQuarter s (quarterOf (myCore s)) (p / 16) = true
    let illegal := trapOf s 0x04
    let gone : Prop := slotAt s p = none
    Guarded s (.qunmap b) [(¬ mine, illegal), (gone, illegal)] (request s (.qunmap b) 2 none [p] .none) ∧
    Guarded s (.qkick b) [(¬ mine, illegal), (gone, illegal)] (request s (.qkick b) 2 none [p] .none) ∧
    (va % 64 ≠ 0 → exec (.qmap a b) s = .next (takeTrap s s.at_ illegal (curSeq s))) ∧
    (va % 64 = 0 →
      (∀ code v ia, rangeCheck (me s) va 64 .read = .trap code v ia →
        exec (.qmap a b) s = .next (takeTrap s s.at_ (addrTrap s code v ia) (curSeq s))) ∧
      ∀ ia, rangeCheck (me s) va 64 .read = .ok ia →
        let queue := (ia - base) / 64
        let x := queueRead s lead queue
        let bad : Prop := ia < base ∨ (ia - base) % 64 ≠ 0 ∨ creg s lead .sched 0x008 ≤ queue ∨ slotAt s p ≠ none ∨
          slotOf s lead queue ≠ none ∨ (∃ e ∈ (quarterSt s lead).pend, e.1 = queue) ∨ queueEnabled x = false ∨
          (bitAt x 70 = true ∧ (me s).pl < 2)
        Guarded s (.qmap a b) [(¬ mine, illegal), (bad, illegal)] (request s (.qmap a b) 2 none [queue, p] .none))) ∧
  (∀ s : State,
    let lead := leadCore s s.subj.core
    let queue := s.subj.id
    let w : Nat := s.subj.val % 2 ^ 32
    let x := queueRead s lead queue
    let r : Nat := fld x 159 128
    let wi : Nat := fld x 191 160
    let good : Prop := queueEnabled x = true ∧ ((w : Int) - r) % 2 ^ 32 ≤ 2 ^ fld x 67 64 ∧ ((w : Int) - wi) % 2 ^ 32 < 2 ^ 31
    let u := queuePut s lead queue 20 4 w
    ((s.boot.stat ≠ 0 ∨ creg s lead .sched 0x008 ≤ queue) → exec .notifyWrite s = .next s) ∧
    (s.boot.stat = 0 → queue < creg s lead .sched 0x008 →
      (¬ good → exec .notifyWrite s = .next (queuePut s lead queue 29 1 (min 255 (fld x 239 232 + 1)))) ∧
      (∀ p, good → slotOf u lead queue = some p →
        let leaves : Prop := quiescing u (p / 16) = true ∧ (∃ y, slotAt u p = some y ∧ y.drn = true) ∧ bitAt x 70 = false ∧ modeBit u lead 0 = false
        (leaves → exec .notifyWrite s = .next (addReady (joinPend u lead queue) ⟨.entryAdmission, { id := p }⟩)) ∧
        (¬ leaves → exec .notifyWrite s = .next (addReady u ⟨.entryAdmission, { id := p }⟩))) ∧
      (good → slotOf u lead queue = none →
        ((bitAt x 70 = true ∨ modeBit u lead 0 = true) → exec .notifyWrite s = .next (hostEvent u lead 1 0xFF queue 0 u.cyc)) ∧
        (bitAt x 70 = false → modeBit u lead 0 = false → exec .notifyWrite s = .next (mapOnDemand u lead queue))))) ∧
  (∀ (s : State) (q : QSlot),
    let p := s.subj.id
    let lead := leadOf s (p / 16)
    let v := (sysFind s lead (queueDesc s lead q.queue)).1
    let found := (sysFind s lead (queueDesc s lead q.queue)).2
    let x := queueRead v lead q.queue
    let r := fld x 159 128
    (slotAt s p = none → exec .entryAdmission s = .next s) ∧
    (slotAt s p = some q →
      ((q.drn = true ∨ q.stalled = true ∨ q.en = false) → exec .entryAdmission s = .next v) ∧
      (q.drn = false → q.stalled = false → q.en = true → found = false → exec .entryAdmission s = .next (stallQueue v lead p 5 q)) ∧
      (q.drn = false → q.stalled = false → q.en = true → found = true →
        (r = fld x 191 160 → exec .entryAdmission s = .next (servePend v lead)) ∧
        (r ≠ fld x 191 160 → ∀ w,
          let look : State × (List Byte ⊕ ByteEnd) := queueBytes v lead q.asn (q.rbase + 64 * (r % 2 ^ q.log2n)) 64
          (look = (w, .inr .wait) → exec .entryAdmission s = .next (entryWaits w p)) ∧
          (∀ code, look = (w, .inr (.fail code)) → exec .entryAdmission s = .next (stallQueue w lead p 5 q)) ∧
          ∀ bs, look = (w, .inl bs) →
            let e := ofBytes bs
            let u := (depsFound w lead [(fld e 5 4, fld e 191 128), (fld e 7 6, fld e 255 192)]).1
            let deps := (depsFound w lead [(fld e 5 4, fld e 191 128), (fld e 7 6, fld e 255 192)]).2
            let met : Prop := depMet u lead (fld e 5 4) (fld e 31 16) (fld e 191 128) = true ∧
              depMet u lead (fld e 7 6) (fld e 47 32) (fld e 255 192) = true
            (entryMalformed u lead e = true → exec .entryAdmission s = .next (stallQueue u lead p 1 q)) ∧
            (entryMalformed u lead e = false → deps = false → exec .entryAdmission s = .next (stallQueue u lead p 5 q)) ∧
            (entryMalformed u lead e = false → deps = true →
              (¬ met → exec .entryAdmission s = .next (entryWaits u p)) ∧
              (met → fld e 3 0 = 0 → exec .entryAdmission s = .next (admitted u lead p q)) ∧
              (met → fld e 3 0 = 2 →
                ((∃ l ∈ u.launches, l.lead = lead ∧ l.queue = q.queue) → exec .entryAdmission s = .next u) ∧
                ((∀ l ∈ u.launches, ¬ (l.lead = lead ∧ l.queue = q.queue)) → exec .entryAdmission s = .next (admitted u lead p q))) ∧
              (met → fld e 3 0 = 1 → exec .entryAdmission s = .next (admitLaunch u lead p q e))))))) ∧
  (∀ (s : State) (l : Launch),
    (launchOf s s.subj.id = none → exec .launchComplete s = .next s) ∧
    (launchOf s s.subj.id = some l → l.live ≠ 0 → exec .launchComplete s = .next s) ∧
    (launchOf s s.subj.id = some l → l.live = 0 → ∀ c off, windowOf 0 l.csw = .scratch c off →
      let u := l.futs.foldl (fun s h => dropRef s l.lead h) s
      let u := if l.csw = 0 then u else arrive u c off 1 false l.err
      let x := queueRead u l.lead l.queue
      let u := queuePut u l.lead l.queue 24 4 ((fld x 223 192 + 1) % 2 ^ 32)
      let u := syncSlot { u with launches := u.launches.filter fun y => y.id != l.id } l.slot
      exec .launchComplete s = .next (addReady (servePend (settleUnmap u l.slot) l.lead) ⟨.entryAdmission, { id := l.slot }⟩))) ∧
  ∀ (s : State) (x : QSlot),
    let p := s.subj.id
    (slotAt s p = none → exec .unmapTimeout s = .next s) ∧
    (slotAt s p = some x →
      ((x.drn = false ∨ x.unmap ≠ s.subj.val) → exec .unmapTimeout s = .next s) ∧
      (x.drn = true → x.unmap = s.subj.val →
        (s.subj.flag = false → exec .unmapTimeout s = .next (addTimer s (s.cyc + 1) ⟨.unmapTimeout, { s.subj with flag := true }⟩)) ∧
        (s.subj.flag = true →
          let u := hostEvent (putSlot s p (some { x with drn := false, ref := true })) (leadOf s (p / 16)) 3 p x.queue 0 (s.cyc - 1)
          exec .unmapTimeout s = .next (addReady (abandonQuiesce u (p / 16) true) ⟨.entryAdmission, { id := p }⟩))))

/-- R18: a task's number is spread over the levels of its kind as a number in mixed radix, outermost digit first: every digit is below its
level's extent, goes to the level's register, and together the digits make the number. -/
def Clause.TaskNumbersAreMixedRadix : Prop :=
  ∀ (ls : List Level) (n : Nat), (∀ l ∈ ls, 0 < l.ext) → n < (ls.map Level.ext).prod →
    let ds := levelDigits ls n
    ds.map Prod.fst = ls.map Level.idx ∧ (∀ i < ls.length, (ds.getD i (0, 0)).2 < (ls.getD i ⟨0, 0, 0⟩).ext) ∧
    (List.range ls.length).foldl (fun x i => x * (ls.getD i ⟨0, 0, 0⟩).ext + (ds.getD i (0, 0)).2) 0 = n

/-- R19, R23, R24, R380, R381: a cluster whose team has been saved everywhere, or that is free, is taken by its first waiting team where its
configuration fits on the cores that hold its tasks; a slice that ends swaps its team out where a waiting team of at least its priority may take the cluster, and otherwise
begins again. -/
def Clause.TeamsShareClusters : Prop :=
  (∀ s : State,
    let cluster := s.subj.id
    let u := match residentOf s cluster with
      | some t =>
        if t.leaving = true ∧ ∀ k ∈ clusterKeys s cluster, ctxLaunch (ctxOf s k) = t.launch →
            ((ctxOf s k).saved = true ∨ (ctxOf s k).halted = true) ∧ ctxClaimed s k = false
        then teamOut s t cluster else s
      | none => s
    (waitingTeams u cluster = [] → exec .teamSwapIn s = .next u) ∧
    (∀ t ts r, waitingTeams u cluster = t :: ts → residentOf u cluster = some r →
      exec .teamSwapIn s = .next (swapForPriority u t.die)) ∧
    (∀ t ts, waitingTeams u cluster = t :: ts → residentOf u cluster = none →
      let fits : Prop := clusterFenced u cluster = false ∧ ∀ c ∈ placedCores t cluster, configFits u c (teamLaunch u t).ppw = true
      (fits → exec .teamSwapIn s = .next (sweepTeam (swapForPriority (teamIn u t cluster) t.die) (8 * cluster))) ∧
      (¬ fits → exec .teamSwapIn s = .next u))) ∧
  ∀ (s : State) (t : Team) (cluster : Nat),
    (teamOf s s.subj.id = none → exec .teamSliceEnd s = .next s) ∧
    (teamOf s s.subj.id = some t → t.cluster = none → exec .teamSliceEnd s = .next s) ∧
    (teamOf s s.subj.id = some t → t.cluster = some cluster →
      ((t.leaving = true ∨ t.slice ≠ some s.subj.val) → exec .teamSliceEnd s = .next s) ∧
      (t.leaving = false → t.slice = some s.subj.val →
        ((∃ w ∈ waitingTeams s cluster, (teamLaunch s t).pri ≤ (teamLaunch s w).pri) →
          exec .teamSliceEnd s = .next (swapOut s t cluster)) ∧
        ((∀ w ∈ waitingTeams s cluster, (teamLaunch s w).pri < (teamLaunch s t).pri) →
          (s.subj.flag = false → exec .teamSliceEnd s = .next (addTimer s (s.cyc + 1) ⟨.teamSliceEnd, { s.subj with flag := true }⟩)) ∧
          (s.subj.flag = true → exec .teamSliceEnd s = .next (sliceFrom s t (s.cyc - 1))))))

/-- R18, R19, R23, R24, R380, R381: task numbers, and teams on clusters. -/
def Obligations.TaskNumbersAndTeams : Prop :=
  Clause.TaskNumbersAreMixedRadix ∧ Clause.TeamsShareClusters

/-! ### The state store, chains, slices -/

/-- R278, R279, R304 to R314: the state-store instructions check their operands and go out; an operation behind no other on its sequences takes
effect, waits, or ends with its status; a duplicate snapshot, an absent one, an absent layer and an existing sequence are refused with
theirs; SLD of a null entry reads zeros, and SST to a page of its own writes it in place. -/
def Obligations.StateStoreResults : Prop :=
  (∀ (s : State) (d a b : Nat) (sw : BitVec 17),
    let x := (readS s a).toNat
    let y := (readS s b).toNat
    let illegal := trapOf s 0x04
    let asks (i : Instr) (w : Option (BitVec 17)) (args : List Nat) (data : List Byte) : State :=
      let t := requestFor s i 2 w args [.s d]
      { t with reqs := t.reqs.map fun r => if r.id == s.nextId then { r with data } else r }
    let snap (i : Instr) : Prop := Guarded s i [(2 ^ 32 ≤ x ∨ 2 ^ 48 ≤ y, illegal)] (asks i none [x, y] [])
    let sp := fld y 23 0
    let n := fld y 40 24
    let bad : Prop := fld x 63 60 ≠ 0 ∨ fld y 63 41 ≠ 0 ∨ fld x 59 44 % 16 ≠ 0 ∨ sp % 16 ≠ 0 ∨ n % 16 ≠ 0 ∨ n < 16 ∨ 2 ^ 16 < n ∨
      2 ^ 16 < fld x 59 44 + n
    let page (i : Instr) (data : List Byte) : Prop :=
      Guarded s i [(bad, illegal), (mySp s < sp + n, outside s sp), wordCheck s sw]
        (asks i (some sw) [fld x 31 0, fld x 43 32, fld x 59 44, sp, n] data)
    snap (.ssnap d a b) ∧ snap (.sroll d a b) ∧ snap (.sdrop d a b false) ∧
    Guarded s (.sdrop d a b true) [(2 ^ 32 ≤ x, illegal)] (asks (.sdrop d a b true) none [x, 0] []) ∧
    Guarded s (.sfork d a b) [(2 ^ 48 ≤ y, illegal)] (asks (.sfork d a b) none [x % 2 ^ 32, y, x / 2 ^ 32] []) ∧
    page (.sld d a b sw) [] ∧ page (.sst d a b sw) (mgets s (spAddr (myCore s) sp) n)) ∧
  (∀ (s : State) (r : Req), reqOf s s.subj.id = some r → isStateOp r.ins = true →
    (r.accepted = false → exec .stateOpComplete s = .next s) ∧
    (r.accepted = true →
      (∀ j, r.job = .state j →
        (∀ f fs, j.pend = f :: fs → exec .stateOpComplete s = .next (eager (statePageIn s r f) (stateStep r))) ∧
        (j.pend = [] → exec .stateOpComplete s = .next (finishState s r j))) ∧
      (r.job = .none →
        (stateBehind s r = true → exec .stateOpComplete s = .next s) ∧
        (stateBehind s r = false → s.subj.flag = true → s.subj.code = 5 → exec .stateOpComplete s = .next (endState s r 5)) ∧
        (stateBehind s r = false → (s.subj.flag = false ∨ s.subj.code ≠ 5) →
          (applyState s r s.subj.flag = .ask → exec .stateOpComplete s = .next s) ∧
          (∀ t, applyState s r s.subj.flag = .wait t → exec .stateOpComplete s = .next (addTimer t (t.cyc + 1) (stateStep r))) ∧
          (∀ fs t, applyState s r s.subj.flag = .pages fs t →
            let r' := (reqOf t r.id).getD r
            exec .stateOpComplete s = .next (eager (putJob t r' (.state { pend := fs, cyc := t.cyc })) (stateStep r'))) ∧
          (∀ st t, applyState s r s.subj.flag = .done st t → exec .stateOpComplete s = .next (endState t r st)))))) ∧
  (∀ (s u v : State) (q p n id : Nat) (ask : Bool) (x : Seq),
    (ringAt s q x p ≠ none → applySnap s ask q p id x = .done 3 s) ∧
    (ringAt s q x p = none → applyRoll s ask q p x = .done 2 s ∧ applyDrop s q p false x = .done 2 s) ∧
    (ringAt s q x p = none →
      let i := snapPlace s q x
      let tbl := frozenPlace s q id x (ringEntry s q x i)
      let live := tableOf v q x.ltab x.nl
      let w := if bitAt (ringEntry v q x i) 48 then dropEntry v q x i else v
      let raised := raiseRefs q live [] w
      findSys q false (ends x.ltab (8 * x.nl)) s = (u, some true) →
      let old := if bitAt (ringEntry v q x i) 48 then tableOf v q (fld (ringEntry v q x i) 255 192) x.nl else []
      findSys q true (ends x.ring 512 ++ ends tbl (8 * x.nl)) u = (v, some true) →
      (countsBad v q (live ++ old) = true → applySnap s ask q p id x = .done 6 v) ∧
      (countsBad v q (live ++ old) = false → copiesFor w q live = 0 → applySnap s ask q p id x = .done 0
        (putEntry (putTable raised.2 q tbl raised.1) q x i (entryWord p (lastOrd v q x + 1) tbl raised.1)))) ∧
    (∀ i, ringAt s q x p = some i → findSys q false (frozenEnds s q x [i]) s = (u, some true) →
      findSys q true (ends x.ring 512) u = (v, some true) →
      let fs := tableOf v q (fld (ringEntry v q x i) 255 192) x.nl
      (countsBad v q fs = true → applyDrop s q p false x = .done 6 v) ∧
      (countsBad v q fs = false → applyDrop s q p false x = .done 0 (dropEntry v q x i))) ∧
    (seqOf s q n ≠ none → applyFork s ask q p n id x = .done 3 s) ∧
    (seqOf s q n = none → ringAt s q x p = none → applyFork s ask q p n id x = .done 2 s)) ∧
  ∀ (s u : State) (q l : Nat) (x : Seq) (r : Req), r.args.getD 1 0 = l →
    let f := fld (sysNum u q (x.ltab + 8 * l) 8) 35 0
    let at_ := paAddr (f * 2 ^ 16 + r.args.getD 2 0)
    (x.nl ≤ l → applySld s q r x = .done 4 s ∧ applySst s q r x = .done 4 s) ∧
    (l < x.nl →
      (findSys q false [x.ltab + 8 * l] s = (u, none) → applySld s q r x = .wait u) ∧
      (findSys q false [x.ltab + 8 * l] s = (u, some false) → applySld s q r x = .done 6 u) ∧
      (findSys q false [x.ltab + 8 * l] s = (u, some true) →
        (f = 0 → applySld s q r x = .done 0 (landSld u r (zeros (r.args.getD 4 0)))) ∧
        (f ≠ 0 → frameAway f = false → applySld s q r x = .done 0 (landSld u r (mgets u at_ (r.args.getD 4 0)))) ∧
        (f ≠ 0 → frameAway f = true →
          applySld s q r x = .pages [f] (putReq u { r with data := mgets u at_ (r.args.getD 4 0) }))) ∧
      (findSys q true [x.ltab + 8 * l] s = (u, none) → applySst s q r x = .wait u) ∧
      (findSys q true [x.ltab + 8 * l] s = (u, some false) → applySst s q r x = .done 6 u) ∧
      (findSys q true [x.ltab + 8 * l] s = (u, some true) → f ≠ 0 → frameBad u q f = true → applySst s q r x = .done 6 u) ∧
      (findSys q true [x.ltab + 8 * l] s = (u, some true) → f ≠ 0 → frameBad u q f = false → frameCount u q f ≤ 1 →
        applySst s q r x = .done 0 (countReq (mputs u at_ r.data) r r.data.length)))

/-- R280, R315 to R317, R319, R339: KVST and KVNX go out; KVST takes the lowest free chain slot and answers its handle; a handle of no live slot is
answered 4, and KVNX.end frees the slot; the walker answers a KVNX whose page it has found, goes on up to four pages ahead, and stops at a
malformed or unreadable header. -/
def Obligations.ChainsAreWalked : Prop :=
  (∀ (s : State) (d a b : Nat) (sw : BitVec 17),
    let x := (readS s a).toNat
    let y := (readS s b).toNat
    Guarded s (.kvst d a sw) [(x % 2 ^ 16 ≠ 0, trapOf s 0x04), wordCheck s sw] (requestFor s (.kvst d a sw) 2 (some sw) [x] [.s d]) ∧
    exec (.kvnx d b) s = .next (requestFor s (.kvnx d b) 2 none [y] [.s d]) ∧
    exec (.kvnxEnd d b) s = .next (requestFor s (.kvnxEnd d b) 2 none [y] [.s d])) ∧
  (∀ (s : State) (r : Req) (d n : Nat),
    let core := r.key / 4
    let h := r.args.getD 0 0
    let c := chainAt s core (h % 8)
    ((∀ i < 8, (chainAt s core i).live = true) → acceptKvst s r d = answerS (dropReq s r) r d (2 ^ 64 - 1)) ∧
    (n < 8 → (chainAt s core n).live = false → (∀ i < n, (chainAt s core i).live = true) →
      let g := (chainAt s core n).gen
      let t := putChain s core n { gen := g, live := true, key := r.key, fut := r.fut, asn := r.asn, word := r.word.getD 0
                                   maps := (ctxOf s r.key).rregs, start := BitVec.ofNat 64 (r.args.getD 0 0) }
      acceptKvst s r d = eager (answerS (dropReq t r) r d (n + g * 2 ^ 8)) (walkStep core n g)) ∧
    (∀ e, (c.live = false ∨ c.gen ≠ fld h 15 8) → acceptKvnx s r e = answerKvnx s r 4) ∧
    (c.live = true → c.gen = fld h 15 8 → acceptKvnx s r true = freeChain (answerKvnx s r 2) core (h % 8) ∧
      acceptKvnx s r false = eager s (walkStep core (h % 8) c.gen))) ∧
  (∀ s : State,
    let core := s.subj.core
    let n := s.subj.id % 8
    let c := chainAt s core n
    let ahead : Prop := c.pages.length < c.ret + max 4 (chainWants s core n c.gen).length
    ((c.live = false ∨ c.gen ≠ s.subj.val) → exec .chainWalkStep s = .next s) ∧
    (c.live = true → c.gen = s.subj.val →
      (∀ t, serveKvnx s core n = some t → exec .chainWalkStep s = .next (eager t (walkStep core n c.gen))) ∧
      (serveKvnx s core n = none →
        (¬ ahead → exec .chainWalkStep s = .next s) ∧ (nextPage c = none → exec .chainWalkStep s = .next s) ∧
        (∀ va, ahead → nextPage c = some va →
          let t := walkOn s core n c va
          exec .chainWalkStep s = .next (if (chainAt t core n).pages.length = c.pages.length then addTimer t (t.cyc + 1) (walkStep core n c.gen)
            else eager t (walkStep core n c.gen))))) ∧
    (let goes : Prop := c.live = true ∧ c.gen = s.subj.val ∧ c.pages.length < c.ret + 4
     (¬ goes → exec .chainStepTrigger s = .next s) ∧ (nextPage c = none → exec .chainStepTrigger s = .next s) ∧
     (∀ va, goes → nextPage c = some va → exec .chainStepTrigger s = .next (walkOn s core n c va)))) ∧
  ∀ (s u : State) (core n h ia : Nat) (c : Chain) (va : Word), ¬ (va = 0 ∧ c.pages ≠ []) →
    (readHeader s core c va = (u, .unreadable ia) → walkOn s core n c va = breakChain u core n c 0x27 ia) ∧
    (readHeader s core c va = (u, .wait) → walkOn s core n c va = u) ∧
    ∀ v, readHeader s core c va = (u, .ok h ia) → askHandler u core n c ia = (v, false) →
      (headerMalformed h = true → walkOn s core n c va = breakChain v core n c 0x23 ia) ∧
      (headerMalformed h = false → walkOn s core n c va = makeResident
        (putChain v core n { c with plain := false, pages := c.pages ++ [{ va, ia, next := BitVec.ofNat 64 (fld h 63 0) }] }) core c ia)

/-- R281, R325 to R339: HMSG goes out; a trigger runs its slot's handler, or nothing where its table entry is 0; tenants do not overlap; an
invocation starts with its registers and its time limit, retires one instruction a cycle, ends with ECALL's verdict, and is aborted past
its time limit; a service command that is refused, full or done says so in its status. -/
def Obligations.HandlersRun : Prop :=
  (∀ (s : State) (d a b : Nat) (sw : BitVec 17) (code : BitVec 4),
    let va := (readS s a).toNat
    (∀ c v ia, rangeCheck (me s) va 1 .read = .trap c v ia →
      exec (.hmsg d a b sw code) s = .next (takeTrap s s.at_ (addrTrap s c v ia) (curSeq s))) ∧
    ∀ ia, rangeCheck (me s) va 1 .read = .ok ia →
      Guarded s (.hmsg d a b sw code)
        [(windowOf (myCore s) ia ≠ .memory ∧ windowOf (myCore s) ia ≠ .cxl, addrTrap s 0x0B va ia), wordCheck s sw]
        (requestFor s (.hmsg d a b sw code) 2 (some sw) [ia, (readS s b).toNat] [.s d])) ∧
  (∀ s : State,
    (let n := (stepLine s).1
     let l := (stepLine s).2
     (fetchOf s n l = none → exec .missTrigger s = .next s ∧ exec .fillTrigger s = .next s) ∧
     (∀ f, fetchOf s n l = some f →
       ((f.stage ≠ .miss ∨ f.asked = true) → exec .missTrigger s = .next s) ∧
       ((f.stage ≠ .fill ∨ f.asked = true) → exec .fillTrigger s = .next s) ∧
       (f.asked = false → ∀ t,
         (f.stage = .miss →
           (raiseLine s n 0 l f.key = (t, true) → exec .missTrigger s = .next (putFetch t n { f with asked := true })) ∧
           (raiseLine s n 0 l f.key = (t, false) → exec .missTrigger s = .next (arriveLine t n f).1)) ∧
         (f.stage = .fill →
           (raiseLine s n 1 l f.key = (t, true) → exec .fillTrigger s = .next (putFetch t n { f with asked := true })) ∧
           (raiseLine s n 1 l f.key = (t, false) → exec .fillTrigger s = .next (placeLine t n f).1)))) ∧
     (evictionOf s n l = none → exec .evictionTrigger s = .next s) ∧
     (∀ f i, evictionOf s n l = some (f, i) →
       (f.asked = true → exec .evictionTrigger s = .next s) ∧
       (f.asked = false → ∀ t,
         (raiseLine s n 2 l f.key = (t, true) → exec .evictionTrigger s = .next (putFetch t n { f with asked := true })) ∧
         (raiseLine s n 2 l f.key = (t, false) → exec .evictionTrigger s = .next (installLine t n i f))))) ∧
    (let n := s.subj.id
     let t := s.subj.code % 4
     let v := s.subj.val
     (enableRefused s n t v = false → exec .tenantEnable s = .next (putDesc s n (32 * t) v)) ∧
     (enableRefused s n t v = true → ∃ u, exec .tenantEnable s = .next u ∧ tenantOn u n t = false ∧ u.mem = s.mem ∧ u.ctxs = s.ctxs))) ∧
  (∀ (s : State) (n : Nat) (i : Invoke),
    let i' := { i with id := s.nextId, cyc := s.cyc }
    let e := tableEntry s n i.slot i.key
    (e = 0 → raiseTrigger s n i = (s, false)) ∧
    (e ≠ 0 → e % 2 = 0 → e < (codeRegion (tenantWord s n i.slot 0)).2 →
      (32 ≤ (sliceOf s n).queue.length → raiseTrigger s n i = overflow s n i') ∧
      ((sliceOf s n).queue.length < 32 → (raiseTrigger s n i).2 = true ∧
        (sliceOf (raiseTrigger s n i).1 n).queue = invokeIns i' (sliceOf s n).queue))) ∧
  (∀ (s : State) (n : Nat) (i j : Invoke) (js : List Invoke), invokeIns i (sliceOf s n).queue = js ++ [j] →
    (j.id = i.id → overflow s n i = (updSlice s n fun u => { u with ovf := (u.ovf + 1) % 2 ^ 32 }, false)) ∧
    (j.id ≠ i.id → (overflow s n i).2 = true ∧ sliceOf (overflow s n i).1 n =
      { sliceOf s n with ovf := ((sliceOf s n).ovf + 1) % 2 ^ 32, queue := js, aborts := (sliceOf s n).aborts ++ [j] })) ∧
  (∀ (s : State) (i : Invoke) (is : List Invoke),
    let sl := s.subj.id
    let w0 := tenantWord s sl i.slot 0
    (((sliceOf s sl).run ≠ none ∨ (sliceOf s sl).queue = []) → exec .handlerInvocationStart s = .next s) ∧
    ((sliceOf s sl).run = none → (sliceOf s sl).queue = i :: is →
      ∃ t r, exec .handlerInvocationStart s = .next t ∧ (sliceOf t sl).run = some r ∧ (sliceOf t sl).queue = is ∧ r.inv = i ∧
        r.first = s.cyc ∧ r.ret = 0 ∧ r.pc = (codeRegion w0).1 + tableEntry s sl i.slot i.key ∧
        (xreg r 10 = i.key % 2 ^ 64 ∧ xreg r 11 = i.a1 % 2 ^ 64 ∧ xreg r 12 = i.a2 % 2 ^ 64 ∧ xreg r 13 = i.a3 % 2 ^ 64) ∧
        (s.cyc + fld w0 55 40, ⟨.handlerTimeLimit, { id := sl, val := i.id }⟩) ∈ t.timers ∧ t.mem = s.mem)) ∧
  (∀ (s : State) (r : HandlerRun),
    let sl := s.subj.id
    (sliceOf s sl).run = some r →
    (r.last = some s.cyc → exec .handlerInstructionRetire s = .next s) ∧
    (r.last ≠ some s.cyc →
      (∀ t r', rvStep s sl r = .next t r' → exec .handlerInstructionRetire s =
        .next (retireNext (putRun t sl (some { r' with last := some t.cyc, ret := r'.ret + 1 })) sl)) ∧
      (∀ t, rvStep s sl r = .wait t → exec .handlerInstructionRetire s = .next (retireNext t sl)) ∧
      (rvStep s sl r = .ecall → exec .handlerInstructionRetire s = .next (addReady s ⟨.handlerEcall, { id := sl }⟩)) ∧
      (∀ c, rvStep s sl r = .abort c → exec .handlerInstructionRetire s = .next (addReady s ⟨.handlerAbort, { id := sl }⟩))) ∧
    (s.subj.flag = false →
      (r.last = some s.cyc → exec .handlerAbort s = .next (addTimer s (s.cyc + 1) ⟨.handlerAbort, s.subj⟩)) ∧
      (r.last ≠ some s.cyc → ∀ c, rvStep s sl r = .abort c → exec .handlerAbort s = .next (abortRun s sl c r))) ∧
    (∀ i, s.subj.flag = true → (sliceOf s sl).aborts.find? (fun i => i.id == s.subj.val) = some i → exec .handlerAbort s =
      .next (defaultAction (updSlice s sl fun u => { u with aborts := u.aborts.filter fun j => j.id != s.subj.val }) sl i)) ∧
    (s.subj.flag = true → (∀ i ∈ (sliceOf s sl).aborts, i.id ≠ s.subj.val) → exec .handlerAbort s = .next s) ∧
    (r.last = some s.cyc → exec .handlerEcall s = .next (addTimer s (s.cyc + 1) ⟨.handlerEcall, s.subj⟩)) ∧
    (r.last ≠ some s.cyc → rvStep s sl r = .ecall →
      let v := xreg r 10
      let ended := endInvoke s sl false
      (16 ≤ r.inv.key → (∀ q, reqOf ended r.inv.req = some q → exec .handlerEcall s = .next (hmsgReply ended q v false)) ∧
        (reqOf ended r.inv.req = none → exec .handlerEcall s = .next ended)) ∧
      (((r.inv.key = 0 ∧ v = 0) ∨ (r.inv.key = 1 ∧ v ≤ 1) ∨ (r.inv.key = 2 ∧ v = 0)) →
        exec .handlerEcall s = .next (lineVerdict ended sl r.inv v)) ∧
      (∀ t, r.inv.key = 0 → v = 1 →
        (∀ p, windowPage s sl r r.inv.a1 64 false true true = (t, .ok p) → exec .handlerEcall s =
          .next (lineVerdict (endInvoke (mputs t p ((List.range 64).map (fillByte r))) sl false) sl r.inv 1)) ∧
        (windowPage s sl r r.inv.a1 64 false true true = (t, .wait) →
          exec .handlerEcall s = .next (addTimer t (t.cyc + 1) ⟨.handlerEcall, s.subj⟩)) ∧
        (∀ c, windowPage s sl r r.inv.a1 64 false true true = (t, .abort c) → exec .handlerEcall s = .next (abortRun t sl c r))) ∧
      (r.inv.key = 3 → v ≤ 2 → exec .handlerEcall s = .next (chainVerdict ended r.inv (some v))) ∧
      (((r.inv.key = 0 ∧ 2 ≤ v) ∨ (r.inv.key = 1 ∧ 2 ≤ v) ∨ (r.inv.key = 2 ∧ 1 ≤ v) ∨ (r.inv.key = 3 ∧ 3 ≤ v)) →
        exec .handlerEcall s = .next (abortRun s sl 6 r))) ∧
    (let last := r.first + fld (tenantWord s sl r.inv.slot 0) 55 40
     (r.inv.id ≠ s.subj.val → exec .handlerTimeLimit s = .next s) ∧
     (r.inv.id = s.subj.val → last ≤ s.cyc → exec .handlerTimeLimit s = .next (abortRun s sl 1 r)) ∧
     (r.inv.id = s.subj.val → s.cyc < last → exec .handlerTimeLimit s = .next (addTimer s last ⟨.handlerTimeLimit, s.subj⟩)))) ∧
  ∀ (s : State) (c : Cmd),
    let sl := s.subj.id
    cmdOf s = some c →
    let answers (i : Instr) (st : Nat) : Prop := exec i s = .next (setCmd s sl c.id st)
    (spanRefused s sl c = true → answers .prefetchCommand 2 ∧ answers .fillCommand 2) ∧
    (pageRefused s sl c = true → answers .pageInCommand 2) ∧
    (∀ (u : State) (x : PageEnd), cmdPage s sl c = (u, x) →
      (x = .wait → (spanRefused s sl c = false → exec .prefetchCommand s = .next (cmdAgain u c) ∧ exec .fillCommand s = .next (cmdAgain u c)) ∧
        (pageRefused s sl c = false → exec .pageInCommand s = .next (cmdAgain u c))) ∧
      (x = .range ∨ x = .protection ∨ x = .pageFault →
        (spanRefused s sl c = false → exec .prefetchCommand s = .next (setCmd u sl c.id 4) ∧ exec .fillCommand s = .next (setCmd u sl c.id 4)) ∧
        (pageRefused s sl c = false → exec .pageInCommand s = .next (setCmd u sl c.id 4))) ∧
      ∀ pa e, x = .ok pa e →
        (spanRefused s sl c = false → exec .prefetchCommand s = .next (setCmd (bringSpan u sl c) sl c.id 1) ∧
          (leafAway e = true → exec .fillCommand s = .next (setCmd u sl c.id 1)) ∧
          (leafAway e = false → exec .fillCommand s =
            .next (eager (bringSpan u sl c) ⟨.serviceCommandDone, { id := sl, val := c.id, code := 1 }⟩))) ∧
        (pageRefused s sl c = false →
          ((leafAway e = false ∨ bitAt e 12 = true) → exec .pageInCommand s = .next (setCmd u sl c.id 1)) ∧
          (leafAway e = true → bitAt e 12 = false → ∃ t, exec .pageInCommand s = .next t ∧
            t.mem = (tierMiss u (sliceLead s sl) (fld (tenantWord s sl c.slot 1) 15 0) c.addr c.core c.ctx 2 none).mem))) ∧
    (∀ r, (sliceOf s sl).run = some r → r.inv.id = c.inv →
      exec .serviceCommandDone s = .next (setCmd s sl c.id (if s.subj.code = 0 then 1 else s.subj.code))) ∧
    (inRegion (dataRegion (tenantWord s sl c.slot 0)) c.addr 32 = false → answers .postNotice 2) ∧
    (imgMalformed s (sliceLead s sl) (ofBytes (mgets s (sliceAddr sl (0x10000 + c.addr)) 32)) = true → answers .postNotice 2) ∧
    ∃ t, exec .postNotice s = .next t ∧ t.mem = s.mem ∧ t.ctxs = s.ctxs

/-! ### Privileged state, partitions, power, bring-up -/

/-- R352, R354 to R361: SYSR and SYSW trap below their register's level, SYSW on a value it does not take, and else read or write it; PRET returns to
XEPC and XEPL or traps; RNGR reads a range register and RNGW changes one after the bundle; PPWSET sets the core's configuration; WDSET a
limit; HALT stops at the boundary; SHOOT holds its context until the shoot-down is complete. -/
def Obligations.PrivilegedResults : Prop :=
  (∀ (s : State) (d a b c : Nat) (r : SysReg) (w all : Bool) (imm : BitVec 32),
    let m := me s
    let x := readS s a
    let v := x.toNat
    let privileged := trapOf s 0x03
    let illegal := trapOf s 0x04
    Guarded s (.sysr d r) [(m.pl < 1, privileged)] (writeS s 1 d (BitVec.ofNat 64 (sysValue s r))) ∧
    (let level : Nat := match r with | .plv | .asn | .lnum => 4 | .pkg => 2 | _ => 1
     let takes : Prop := match r with
       | .tvec | .trec => v % 64 = 0
       | .xepl => v < 4
       | .bud => v % 64 = 0 ∧ 64 ≤ v ∧ v ≤ 4096
       | .tword => v < 2 ^ 18 ∧ v / 2 < mySp s / 16
       | .pkg => v < 2 ^ 16
       | _ => True
     m.pl < 4 → Guarded s (.sysw a r) [(m.pl < level, privileged), (¬ takes, illegal)] (queueFixed s 1 [{ dst := .sys r, bits := v }])) ∧
    Guarded s .pret [(m.pl < m.xepl, privileged), (m.xepc.toNat % 64 ≠ 0, trapOf s 0x05)]
      { (updMe s fun c => { c with inService := false }) with iss := { s.iss with target := some m.xepc, ret := some m.xepl } } ∧
    (let e : RangeReg := sget {} m.rregs (v % 16)
     exec (.rngr d a w) s = .next (writeS s 1 d (if w then e.w1 else e.w0))) ∧
    (let e : RangeReg := ⟨readS s b, readS s c⟩
     Guarded s (.rngw a b c) [(rangeRefused e.w0.toNat e.w1.toNat = true, illegal)] { s with iss := { s.iss with rng := some (v % 16, rangeReg e.w0 e.w1) } } ∧
     rangeReg e.w0 e.w1 = ⟨e.w0 &&& ~~~ 0xFFF0, e.w1⟩) ∧
    exec .halt s = .next { s with iss := { s.iss with halt := true } } ∧
    -- PPWSET
    (let u := coreAt s (myCore s)
     let cfg : Bool × Nat := ppwConfig x
     let same : Prop := cfg = (u.vreg, u.tile)
     let others : Prop := ∃ k ∈ coreKeys (myCore s), k ≠ s.at_ ∧ (ctxOf s k).st ≠ .free
     (ppwMalformed v = true → exec (.ppwset a) s = .next (takeTrap s s.at_ illegal (curSeq s))) ∧
     (¬ same → others → exec (.ppwset a) s = .next (takeTrap s s.at_ illegal (curSeq s))) ∧
     (ppwMalformed v = false → (same ∨ ¬ others) → exec (.ppwset a) s = .next { s with iss := { s.iss with ppw := some x } }) ∧
     (∀ z, ppwMalformed (setFld v 9 4 z) = ppwMalformed v) ∧
     -- what changes once every slot of the bundle has read
     (∀ i : Iss, i.ret = none →
       (∀ n e, i.rng = some (n, e) → i.ppw = none →
         -- what the bundle has put in a slip buffer keeps the registers as they stood
         commitSystem i s = updMe s fun c =>
           { mapSlips (fun x => { x with work := { x.work with rregs := some (x.work.rregs.getD c.rregs) } }) c with rregs := sins c.rregs n e }) ∧
       (i.rng = none → i.ppw = some x →
         let t := commitSystem i s
         (same → t = updMe s fun c => { c with ppw := ppwOf cfg.1 cfg.2 }) ∧
         (¬ same → (coreAt t (myCore s)).vreg = cfg.1 ∧ (coreAt t (myCore s)).tile = cfg.2 ∧ (me t).ppw = ppwOf cfg.1 cfg.2 ∧
           (me t).regs.v = [] ∧ (me t).q = [] ∧ (me t).regs.s = m.regs.s ∧ (me t).regs.m = m.regs.m)))) ∧
    (∀ i : Iss, ∀ pl, i.ret = some pl → i.rng = none → i.ppw = none → commitSystem i s = updMe s fun c => { c with pl }) ∧
    -- WDSET
    (let n := v + imm.toNat
     let bad : Prop := n < 1024 ∨ 2 ^ 32 ≤ n
     ∀ sel, (bad → exec (.wdset a sel imm) s = .next (takeTrap s s.at_ illegal (curSeq s))) ∧
       (¬ bad → ∃ t, exec (.wdset a sel imm) s = .next t ∧ t.mem = s.mem ∧
         t.iss = (match sel with | .cyc => { s.iss with wdLim := some n } | _ => s.iss) ∧
         me t = match sel with | .cyc => m | .yd => { m with yd := n } | .pin => { m with pinLim := n })) ∧
    -- the cycle limit changes after the bundle's own comparison
    (∀ v, s.iss.bundle = true → s.iss.cut = false → s.iss.wdLim = some v →
      let t := finishBundle { s with iss := { s.iss with wdLim := none } }
      (me t).st ≠ .free → t.at_ = s.at_ → finishBundle s = updMe t fun c => { c with cycLim := v }) ∧
    -- SHOOT
    (let n := (readS s b).toNat
     let z := (readS s c).toNat
     let bad : Prop := v % 2 ^ 16 ≠ 0 ∨ n % 2 ^ 16 ≠ 0 ∨ (all = false ∧ 2 ^ 16 ≤ z)
     (bad → exec (.shoot a b c all) s = .next (takeTrap s s.at_ illegal (curSeq s))) ∧
     (¬ bad → ∃ t, exec (.shoot a b c all) s = .next t ∧ (me t).shooting = some s.nextId ∧ (me t).regs = m.regs ∧ t.mem = s.mem ∧
       t.shoots = s.shoots ++ [{ id := s.nextId, key := s.at_, q := myLead s, asn := if all then none else some z, lo := v / 2 ^ 16
                                 n := if n = 0 then none else some (n / 2 ^ 16) }]))) ∧
  ∀ (s : State) (t : Shoot),
    (s.shoots.find? (fun t => t.id == s.subj.id) = none → exec .shootComplete s = .next s) ∧
    (s.shoots.find? (fun t => t.id == s.subj.id) = some t → shootWaits s t = true →
      exec .shootComplete s = .next (addTimer s (s.cyc + 1) ⟨.shootComplete, s.subj⟩)) ∧
    (s.shoots.find? (fun t => t.id == s.subj.id) = some t → shootWaits s t = false → (ctxOf s t.key).shooting = some t.id →
      ∃ u, exec .shootComplete s = .next u ∧ (ctxOf u t.key).shooting = none ∧ u.mem = s.mem ∧
        (∀ e, e ∈ u.tlb ↔ e ∈ s.tlb ∧ tlbCovered t e = false) ∧ ∀ y ∈ u.shoots, y.id ≠ t.id)

/-- R361 to R364, R368: CTXSAVE, CTXLOAD and CKEY make their checks in order and go out; a saved target's image is written and counted and its
context is free; a loaded image is counted and its context goes on, or stays halted; an accepted CKEY installs the record's keys with
counters at zero and clears the record. -/
def Obligations.ImagesAndKeys : Prop :=
  (∀ (s : State) (a b : Nat) (sw : BitVec 17) (h : Bool),
    let va := (readS s a).toNat
    let n := (readS s b).toNat
    let k := 4 * myCore s + n
    let go (i : Instr) (target : Ctx → Bool) (size : Nat) (p : Perm) : Prop :=
      let illegal : Prop := va % 64 ≠ 0 ∨ 4 ≤ n ∨ k = s.at_ ∨ target (ctxOf s k) = false
      (illegal → exec i s = .next (takeTrap s s.at_ (trapOf s 0x04) (curSeq s))) ∧
      (∀ code v ia, ¬ illegal → rangeCheck (me s) va size p = .trap code v ia →
        exec i s = .next (takeTrap s s.at_ (addrTrap s code v ia) (curSeq s))) ∧
      ∀ ia, ¬ illegal → rangeCheck (me s) va size p = .ok ia →
        let reach (x : Nat) : Prop := windowOk s (quarterOf (myCore s)) (me s).pl (windowOf (myCore s) x) = true
        let reached : Prop := if p = .read then blockOk s (myCore s) (me s).pl ia (ia + size - 1) = true else reach ia ∧ reach (ia + size - 1)
        Guarded s i [(¬ reached, addrTrap s 0x0B va ia), wordCheck s sw] (request s i 2 (some sw) [k, ia, va] .none)
    go (.ctxsave a b sw) (fun c => c.halted || (c.st == .stopping && c.why == .save && !c.saved)) (imageSize (ctxOf s (4 * myCore s + n % 4)).ppw) .write ∧
    go (.ctxload a b sw h) (fun c => c.st == .free) 64 .read ∧
    Guarded s (.ckey a b sw)
      [(va % 64 ≠ 0 ∨ 4096 ≤ n, trapOf s 0x04), (sameQuarter s (quarterOf (myCore s)) (n / 1024) = false, trapOf s 0x1E),
       (mySp s < va + 128, outside s va), (keyRefused (spNum s (myCore s) va 128) = true, trapOf s 0x04), wordCheck s sw]
      (request s (.ckey a b sw) 3 (some sw) [n, va] .none)) ∧
  (∀ (s : State) (r : Req), reqOf s s.subj.id = some r → r.accepted = true →
    let k := r.args.getD 0 0
    let core := k / 4
    let c := ctxOf s k
    (∀ a b sw, r.ins = .ctxsave a b sw →
      (c.st = .free → exec .contextImageComplete s = .next (dropReq (flagWord s r 5) r)) ∧
      (c.st ≠ .free → c.saved = false → c.halted = false → exec .contextImageComplete s =
        .next (addTimer s (s.cyc + 1) ⟨.contextImageComplete, { subjOf r.key with id := r.id }⟩)) ∧
      (∀ u cs, c.st ≠ .free → (c.saved = true ∨ c.halted = true) →
        let bs := imageOf (saveWaits s k c) ((coreAt s core).passes.filter fun p => p.ctx == k % 4 && decide (p.kbn < p.kb))
        spots s r.key r.asn (r.args.getD 1 0) bs.length true = (u, .ok cs) →
        let t := countReq (cs.foldl (fun s ps => writeSpots s ps bs) u) r bs.length
        let t := if futOf c = 0 then t else { t with parked := c :: t.parked.filter fun p => futOf p != futOf c }
        exec .contextImageComplete s = .next (fillCore (sweepTeam (dropReq (freeCtx t k) r) core) core))) ∧
    (∀ a b sw h, r.ins = .ctxload a b sw h → r.data ≠ [] →
      ((c.st ≠ .free ∨ configFits s core (imgPpw r.data) = false) → exec .contextImageComplete s = .next (loadFails s r)) ∧
      (c.st = .free → configFits s core (imgPpw r.data) = true → ∃ t, exec .contextImageComplete s = .next t ∧
        (ctxOf t k).halted = h ∧ (ctxOf t k).st = if h then .stopping else .ready))) ∧
  ∀ (s : State) (r : Req), Memory.wf s.mem = true →
    let core := r.key / 4
    let c := r.args.getD 0 0
    let off := r.args.getD 1 0
    let x := spNum s core off 128
    let t := acceptCkey s r
    (fld x 511 0 ≠ 0 → (∀ j < 128, mget t (spAddr core (off + j)) = 0) ∧ (connOf t c).opened = true ∧ (connOf t c).txk = fld x 255 0 ∧ (connOf t c).rxk = fld x 511 256 ∧
      (connOf t c).txc = 0 ∧ (connOf t c).rxc = 0 ∧ (connOf t c).asn = fld x 527 512 ∧ (connOf t c).wbase = fld x 599 544 ∧
      (connOf t c).wlim = fld x 655 600)

/-- R413, R414, R417 to R419, R430 to R433: QREQ starts the unmaps of a quarter, which is quiesced once it is quiet; NBR and MIL of a quarter change
while it is quiesced; a flush drops its translations; a resume waits for every quarter of the partition and a legal configuration. -/
def Clause.QuartersQuiesceAndResume : Prop :=
  ∀ s : State,
    let q := s.subj.id
    let ctl := qctl s q
    (bitAt ctl 0 = true → exec .quiesceRequest s = .next s) ∧
    (bitAt ctl 0 = false →
      exec .quiesceRequest s = .next (eager (((List.range 16).map fun i => 16 * q + i).foldl startUnmap (setQctl s q 0 true)) ⟨.quiesceComplete, { id := q }⟩)) ∧
    ((bitAt ctl 0 = false ∨ bitAt ctl 1 = true) → exec .quiesceComplete s = .next s) ∧
    (bitAt ctl 0 = true → bitAt ctl 1 = false →
      (quarterQuiet s q = true → exec .quiesceComplete s = .next (updQuarter (setQctl s q 1 true) q fun u => { u with ackAt := s.cyc })) ∧
      (quarterQuiet s q = false → exec .quiesceComplete s = .next (addTimer s (s.cyc + 1) ⟨.quiesceComplete, s.subj⟩))) ∧
    (let put (i : Instr) (off mask : Nat) : Prop :=
       (s.subj.flag = true → exec i s = .next (setCreg s q .part off (s.subj.val &&& mask))) ∧
       (s.subj.flag = false → ackBefore s q = true →
         exec i s = .next (setQctl (setCreg s q .part off (s.subj.val &&& mask)) q 4 false)) ∧
       (s.subj.flag = false → ackBefore s q = false → exec i s = .next s)
     put .milWrite 0x008 0xFF0F ∧ (s.subj.flag = false → put .nbrWrite 0x000 0xF) ∧
     (s.subj.flag = true → exec .nbrWrite s =
       .next (updQuarter (setCreg s q .part 0x000 (s.subj.val &&& 0xF)) q fun u => { u with joined := some (s.subj.val % 16) }))) ∧
    (ackBefore s q = false → exec .flush s = .next s) ∧
    (ackBefore s q = true → ∃ t, exec .flush s = .next t ∧ (quarterSt t q).flushing = true ∧ t.mem = s.mem ∧ t.tlb = s.tlb) ∧
    ((quarterSt s q).flushing = false → exec .flushComplete s = .next s) ∧
    ((quarterSt s q).flushing = true → ∃ t, exec .flushComplete s = .next t ∧ (quarterSt t q).flushing = false ∧ bitAt (qctl t q) 4 = true ∧
      (∀ e, e ∈ t.tlb ↔ e ∈ s.tlb ∧ e.home / 64 ≠ q) ∧ t.mem = s.mem) ∧
    (bitAt ctl 0 = false → exec .resumeRequest s = .next s) ∧
    (bitAt ctl 0 = true →
      (ackBefore s q = false → exec .resumeRequest s = .next (abandonQuiesce (setQctl s q 1 false) q false)) ∧
      (ackBefore s q = true → configOk s = false → exec .resumeRequest s = .next (setQctl s q 5 true)) ∧
      (ackBefore s q = true → configOk s = true → exec .resumeRequest s = .next (eager (setQctl s q 0 false) ⟨.resume, { id := q }⟩))) ∧
    (let all : Prop := configOk s = true ∧ ∀ p ∈ partOf s q, bitAt (qctl s p) 1 = true ∧ bitAt (qctl s p) 4 = true ∧ bitAt (qctl s p) 0 = false
     (¬ all → exec .resume s = .next s) ∧
     (all → (∀ p ∈ partOf s q, (quarterSt s p).pend = []) → ∃ t, exec .resume s = .next t ∧ ∀ p ∈ partOf s q, bitAt (qctl t p) 1 = false)) ∧
    (s.boot.stat ≠ 0 → exec .registerWrite s = .next s) ∧
    (∀ b p off, s.boot.stat = 0 → windowOf s.subj.core s.subj.id = .ctl b p off →
      let m := 0x1000 - off
      let bs := if s.subj.code = 1 ∧ b = .xlate then countsAfter s p off s.subj.ref (s.subj.data.take m) else s.subj.data.take m
      let w := writeBlock s b p off bs false
      s.subj.data.length ≤ m → exec .registerWrite s = .next { w.1 with timers := (w.2.map fun e => (w.1.cyc, e)) ++ w.1.timers }) ∧
    (∀ queue, s.boot.stat = 0 → windowOf s.subj.core s.subj.id = .notify queue 0 → s.subj.data.length = 8 → exec .registerWrite s =
      .next { s with timers := (s.cyc, ⟨.notifyWrite, { core := s.subj.core, id := queue, val := ofBytes (s.subj.data.take 4) }⟩) :: s.timers }) ∧
    (windowOf s.subj.core s.subj.id = .none → exec .registerWrite s = .next s)

/-- R424 to R427: a give above what a quarter may spare is refused, and one below leaves with its tokens; a quarter takes of a message what its cap
allows and returns the rest; a give not acknowledged in time comes back; an energy window begins with nothing spent; a clock step ends
with its markers sent, and the next begins once every marker has arrived. -/
def Clause.TokensAndSteps : Prop :=
  ∀ s : State,
    let q := s.subj.id
    let v := s.subj.val
    let u := quarterSt s q
    -- PGIVE
    (let target := fld v 3 0
     let amount := fld v 27 4
     let low := amount + creg s q .part 0x048
     (12 ≤ target → exec .pgive s = .next s) ∧
     (target < 12 → tokens s q < low → exec .pgive s = .next (setCreg s q .part 0x054 ((creg s q .part 0x054 + 1) % 2 ^ 32))) ∧
     (target < 12 → low ≤ tokens s q → tokens s q < 2 ^ 24 → ∃ t, exec .pgive s = .next t ∧ tokens t q = tokens s q - amount ∧
       (quarterSt t q).gives = u.gives ++ [⟨u.nextGive, target, amount⟩] ∧
       (s.cyc + 2 ^ 20, ⟨.tokenGiveTimeout, { id := q, val := u.nextGive }⟩) ∈ t.timers)) ∧
    -- TOKEN_MESSAGE
    (let cap := creg s q .part 0x044
     let code := s.subj.code
     (unlinked s = true → exec .tokenMessage s = .next s) ∧
     (unlinked s = false → s.subj.flag = false → s.subj.ctx = 0 →
       exec .tokenMessage s = .next (addTimer s (s.cyc + 1) ⟨.tokenMessage, { s.subj with ctx := 1 }⟩)) ∧
     (unlinked s = false → s.subj.flag = false → s.subj.ctx = 1 → earlierMessage s q code = true →
       exec .tokenMessage s = .next (addTimer s s.cyc ⟨.tokenMessage, s.subj⟩)) ∧
     (unlinked s = false → s.subj.flag = false → s.subj.ctx = 1 → earlierMessage s q code = false → code < 8 → (code, s.subj.ref) ∈ u.heard →
       exec .tokenMessage s = .next s) ∧
     (unlinked s = false → s.subj.flag = false → s.subj.ctx = 1 → earlierMessage s q code = false → code < 8 → (code, s.subj.ref) ∉ u.heard →
       tokens s q ≤ cap → cap < 2 ^ 24 →
       ∃ t, exec .tokenMessage s = .next t ∧ tokens t q = min cap (tokens s q + v) ∧ (code, s.subj.ref) ∈ (quarterSt t q).heard ∧
         (quarterSt t q).back = u.back ++ (if tokens s q + v ≤ cap then [] else [⟨s.subj.ref, code, tokens s q + v - cap⟩])) ∧
     (∀ g, unlinked s = false → s.subj.flag = true → u.gives.find? (fun g => g.seq == s.subj.ref && decide (g.target < 8)) = some g →
       exec .tokenMessage s = .next (settleGive s q s.subj.ref (min v g.amount)))) ∧
    -- TOKEN_GIVE_TIMEOUT
    (u.gives.find? (fun g => g.seq == v) = none → exec .tokenGiveTimeout s = .next s) ∧
    (∀ g, u.gives.find? (fun g => g.seq == v) = some g → tokens s q + g.amount < 2 ^ 24 →
      ∃ t, exec .tokenGiveTimeout s = .next t ∧ tokens t q = tokens s q + g.amount ∧
        creg t q .part 0x054 = (creg s q .part 0x054 + 1) % 2 ^ 32 ∧ ∀ x ∈ (quarterSt t q).gives, x.seq ≠ v) ∧
    -- ENERGY_WINDOW
    (∃ t, exec .energyWindow s = .next t ∧ t.mem = s.mem ∧ (quarterSt t q).used = 0 ∧ (quarterSt t q).debt = u.used - energyBudget s q ∧
      ((quarterSt t q).spent = true ↔ energyBudget t q = 0) ∧
      ∀ l, sget 0 t.nrg l = sget 0 t.joules l / 10000000 ∧ sget 0 s.joules l ≤ sget 0 t.joules l) ∧
    -- clock steps
    (let ends : Prop := stepOn s q = true ∧ u.stepEnd = none ∧ u.stepAt + stepLen s q ≤ s.cyc
     (¬ ends → exec .stepEnd s = .next s) ∧
     (ends → stepLinks s q ≠ [] → (∀ l k, (l, k) ∈ u.marks → k ≠ stepNum s q) → ∃ t, exec .stepEnd s = .next t ∧
       (quarterSt t q).stepEnd = some s.cyc ∧ (quarterSt t q).told = (stepLinks s q).map (fun l => (l, stepNum s q)) ∧
       (s.cyc + 2 ^ 20, ⟨.stepMarkerTimeout, { id := q, val := stepNum s q, ref := s.cyc }⟩) ∈ t.timers)) ∧
    (unlinked s = true → exec .stepMarker s = .next s) ∧
    (unlinked s = false → exec .stepMarker s = .next (advanceStep (updQuarter s q fun u => { u with marks := (s.subj.code % 8, v) :: u.marks }) q)) ∧
    (stepOn s q = true → u.stepEnd ≠ none → (∀ l ∈ stepLinks s q, (l, stepNum s q) ∈ u.marks) → stepNum s q + 1 < 2 ^ 48 →
      stepNum (advanceStep s q) q = stepNum s q + 1 ∧ (quarterSt (advanceStep s q) q).stepEnd = none ∧
      (quarterSt (advanceStep s q) q).stepAt = s.cyc) ∧
    (let late : Prop := stepOn s q = true ∧ u.stepEnd = some s.subj.ref ∧ stepNum s q = v
     (¬ late → exec .stepMarkerTimeout s = .next s) ∧
     (late → ∃ t, exec .stepMarkerTimeout s = .next t ∧ stepOn t q = false ∧ bitAt (creg t q .part 0x068) 48 = true ∧
       (quarterSt t q).stepEnd = none))

/-- R413 to R433: quarters quiesce and resume; tokens, energy windows and clock steps. -/
def Obligations.QuartersTokensAndSteps : Prop :=
  Clause.QuartersQuiesceAndResume ∧ Clause.TokensAndSteps

/-- R434 to R439: bring-up stops with its status at the first image that does not pass, at failed training or at a refused configuration, and
else starts the firmware at its entry on context 0 of core 0 at level 2; GET_STATUS, GET_REPORT, LOAD_IMAGE, RESET and the control
messages answer and act as the boot controller does. -/
def Obligations.BringUpAndManagement : Prop :=
  ∀ s : State,
    let b := loadKeys s.boot
    (s.boot.stat ≠ 1 → exec .powerGood s = .next s) ∧
    (s.boot.stat = 1 →
      (chooseCopy b 1 = none → ∃ t, exec .powerGood s = .next t ∧ t.boot.stat = 2 ∧ t.ctxs = s.ctxs ∧ t.mem = s.mem) ∧
      ∀ cf fw, chooseCopy b 1 = some (cf, fw) →
        (chooseCopy b 2 = none → ∃ t, exec .powerGood s = .next t ∧ t.boot.stat = 3 ∧ t.ctxs = s.ctxs ∧ t.mem = s.mem) ∧
        ∀ cc cfg, chooseCopy b 2 = some (cc, cfg) →
          let rs := configRecords (payloadOf cfg)
          ((s.subj.flag = true ∨ recordsRefused rs = true) → ∃ t, exec .powerGood s = .next t ∧ t.boot.stat = 4 ∧ t.ctxs = s.ctxs ∧ t.mem = s.mem) ∧
          (s.subj.flag = false → recordsRefused rs = false → ∃ t, exec .powerGood s = .next t ∧ t.boot.stat = 0 ∧
            (ctxOf t 0).st = .ready ∧ (ctxOf t 0).pl = 2 ∧
            (ctxOf t 0).pc = BitVec.ofNat 64 (0x10000 + fld (bootHeader fw) 191 128) ∧
            t.boot.mfw = measure fw ∧ t.boot.mcfg = measure cfg ∧
            sget 0 t.boot.floors 1 = fld (bootHeader fw) 95 64 ∧ sget 0 t.boot.floors 2 = fld (bootHeader cfg) 95 64)) ∧
    exec .getStatus s = .next { s with boot := { s.boot with answer := some (1, [BitVec.ofNat 8 s.boot.stat]) } } ∧
    (let body := reportBody s s.subj.data
     exec .getReport s = .next { s with boot := { s.boot with answer := some (2, body ++ ed448Sign ((List.range 57).map Config.identityKey) body) } } ∧
     body.length = 256 ∧ (s.subj.data.length = 32 → body.take 32 = s.subj.data)) ∧
    (let img := s.subj.data
     let kind := fld (bootHeader img) 39 32
     let ok : Prop := 1 ≤ kind ∧ kind ≤ 3 ∧ imagePasses { s.boot with answer := some (3, []) } kind img = true
     (¬ ok → exec .loadImage s = .next { s with boot := { s.boot with answer := some (3, []) } }) ∧
     (ok → ∃ t copy, exec .loadImage s = .next t ∧ copy < 2 ∧ sget [] t.boot.flash (2 * kind + copy) = img ∧
       ∀ c, s.boot.used.find? (fun e => e.1 == kind) = some (kind, c) → c < 2 → copy = 1 - c)) ∧
    (∃ t, exec .reset s = .next t ∧ t.ctxs = [] ∧ t.mem = [] ∧ t.cyc = 0 ∧ t.boot.stat = 1 ∧ t.boot.flash = s.boot.flash ∧
      t.boot.floors = s.boot.floors ∧ t.boot.used = s.boot.used) ∧
    exec .mctpControlMessage s = .next { s with boot := { s.boot with
      answer := some (0, []), eid := if s.subj.flag then s.subj.val % 256 else s.boot.eid } }

/-! ### Issue, marks, traps -/

/-- R12 to R15: the selector of a core that may issue takes the next bundle of the ready context it holds, which issues where nothing traps it, nothing
holds it and no mark stands before it; where that context is not ready it moves to
the next ready context in cyclic order, which issues two cycles after the last issue, and the core gates where there is none; a bundle that is held
leaves its context waiting, with its registers (but for the element progress, R226), its tiles, memory and its PC as they were; a reissue makes a context whose bundle no longer blocks ready, and a gated core
ungates with its third cycle as the first to issue. -/
def Clause.SelectorAndReissue : Prop :=
  (∀ (s : State), let core := s.subj.core
    let u := coreAt s core
    let k := 4 * core + u.sel
    (u.gated = true ∨ quarterHeld s (quarterOf core) = true ∨ s.cyc < u.selAt → exec .bundleIssue s = .next s) ∧
    (u.gated = false → quarterHeld s (quarterOf core) = false → u.selAt ≤ s.cyc →
      ((ctxOf s k).st = .ready → exec .bundleIssue s = .next (issueBundle { s with at_ := k })) ∧
      ((ctxOf s k).st ≠ .ready → ∃ t, exec .bundleIssue s = .next t ∧ t.ctxs = s.ctxs ∧
        (∀ d, 1 ≤ d → d ≤ 3 → (ctxOf s (4 * core + (u.sel + d) % 4)).st = .ready →
          (∀ e, 1 ≤ e → e < d → (ctxOf s (4 * core + (u.sel + e) % 4)).st ≠ .ready) →
          (coreAt t core).sel = (u.sel + d) % 4 ∧ (coreAt t core).selAt = max u.selAt (u.last + 2) ∧ (coreAt t core).gated = false) ∧
        (u.sel < 4 → (∀ d, 1 ≤ d → d ≤ 4 → (ctxOf s (4 * core + (u.sel + d) % 4)).st ≠ .ready) →
          (coreAt t core).gated = true ∧ (coreAt t core).sel = u.sel)))) ∧
  (∀ (s u : State) (b : Nat) (os : List SlotOp),
    let core := s.subj.core
    let k := 4 * core + (coreAt s core).sel
    let v := clearEp u
    (coreAt s core).gated = false → quarterHeld s (quarterOf core) = false → (coreAt s core).selAt ≤ s.cyc → (ctxOf s k).st = .ready →
    (ctxOf s k).async = [] → fetch { s with at_ := k } k = (u, .ok b) → decodeBundle u u.at_ b = .inr os → bundleHeld v (workOf v b os) = none →
    (∀ w ∈ workOf v b os, w.2 = true → takesMark w.1.op.ins = false) → capacityShort v os = false →
    ∃ t, exec .bundleIssue s = .next t ∧ t.iss.bundle = true ∧ t.iss.pc = (me u).pc ∧ t.iss.bseq = (me u).bseq + 1 ∧ t.iss.cut = false ∧
      (∀ w ∈ t.iss.work, (w, true) ∈ workOf v b os) ∧
      (∀ w, (w, true) ∈ workOf v b os → unitOf w.op.ins = none → w ∈ t.iss.work)) ∧
  (∀ (s u : State) (b : Nat) (os : List SlotOp) (st : Stall), (me s).async = [] → fetch s s.at_ = (u, .ok b) →
    decodeBundle u u.at_ b = .inr os → bundleHeld (clearEp u) (workOf (clearEp u) b os) = some st →
    issueBundle s = stallBundle (clearEp u) st ∧
      (reclaimDue (me u) = false → (ctxOf (stallBundle (clearEp u) st) u.at_).st = .waiting) ∧
      (reclaimDue (me u) = true → (me u).async = [] → (ctxOf (stallBundle (clearEp u) st) u.at_).st = .stopping ∧
        (ctxOf (stallBundle (clearEp u) st) u.at_).why = .reclaim) ∧
      (ctxOf (stallBundle (clearEp u) st) u.at_).pc = (ctxOf u u.at_).pc ∧
      (ctxOf (stallBundle (clearEp u) st) u.at_).flights = (ctxOf u u.at_).flights ∧
      (let d := ctxOf (stallBundle (clearEp u) st) u.at_
       d.regs.s = (me u).regs.s ∧ d.regs.f = (me u).regs.f ∧ d.regs.v = (me u).regs.v ∧ d.regs.m = (me u).regs.m ∧ d.regs.n = (me u).regs.n ∧
         d.regs.lc = (me u).regs.lc ∧ d.regs.loop = (me u).regs.loop ∧ d.regs.mcfg = (me u).regs.mcfg ∧ d.regs.pin = (me u).regs.pin ∧
         d.regs = (me (clearEp u)).regs ∧ d.q = (me u).q) ∧
      (stallBundle (clearEp u) st).mem = u.mem ∧ ∀ i, i ≠ u.at_ → ctxOf (stallBundle (clearEp u) st) i = ctxOf u i) ∧
  ∀ (s : State), let k := keyOf s.subj
    (((ctxOf s k).st = .waiting ∧ wouldIssue s k = true) → ∃ t, exec .reissue s = .next t ∧ ctxOf t k = { ctxOf s k with st := .ready, readyAt := s.cyc } ∧
      ((coreAt s (k / 4)).gated = true → coreAt t (k / 4) = { coreAt s (k / 4) with gated := false, sel := k % 4, selAt := s.cyc + 3 })) ∧
    ((ctxOf s k).st ≠ .waiting → exec .reissue s = .next s) ∧
    ((ctxOf s k).st = .waiting → wouldIssue s k = false → (reclaimDue (ctxOf s k) = false ∨ (ctxOf s k).heldTrap ≠ none) → ∃ t, exec .reissue s = .next t ∧ (ctxOf t k).st = .waiting ∧
      (ctxOf t k).pc = (ctxOf s k).pc ∧ (ctxOf t k).regs = (ctxOf s k).regs ∧ t.mem = s.mem ∧ t.cores = s.cores) ∧
    ((ctxOf s k).st = .waiting → wouldIssue s k = false → reclaimDue (ctxOf s k) = true → (ctxOf s k).heldTrap = none →
      (ctxOf s k).async = [] → ∃ t, exec .reissue s = .next t ∧ (ctxOf t k).st = .stopping ∧ (ctxOf t k).why = .reclaim ∧
        ⟨.reclaimStop, subjOf k⟩ ∈ t.ready)

/-- R115, R119: the head of a slip buffer that is due and that nothing holds executes, and leaves its buffer, its unit used for the cycle; an entry
whose predicate was false leaves and does nothing; a head that may not execute stays; the lag of an empty buffer of a context that issued nothing
returns to zero. -/
def Clause.SlipBuffersDrain : Prop :=
  (∀ (s : State) (e : SlipEntry) (es : List SlipEntry), let k := keyOf s.subj
    let u := s.subj.unit
    (slipBuf (ctxOf s k) u).entries = e :: es → e.due ≤ s.cyc → unitUsed s (k / 4) u = false →
    (e.pred = true → (slipBuf (ctxOf s k) u).blocked = false ∧ heldNow s k e.work = false) →
    ∃ t, exec .slipEntryExecute s = .next t ∧ t.at_ = k ∧ t.iss.work = (if e.pred then [e.work] else []) ∧
      slipBuf (ctxOf t k) u = { slipBuf (ctxOf s k) u with entries := es, blocked := false } ∧
      (coreAt t (k / 4)).used = (coreAt s (k / 4)).used ++ [(u, k % 4)] ∧
      (ctxOf t k).pc = (ctxOf s k).pc ∧
      ((∀ f ∈ (ctxOf s k).flights, match f.src with | .stores .. => e.work.bseq ≤ f.bseq | _ => True) → t.mem = s.mem)) ∧
  (∀ s : State, headRuns s (keyOf s.subj) s.subj.unit = false → exec .slipEntryExecute s = .next s) ∧
  (∀ (s : State), let k := keyOf s.subj
    let b := slipBuf (ctxOf s k) s.subj.unit
    (b.entries = [] → ¬ ((coreAt s (k / 4)).last = s.cyc ∧ (coreAt s (k / 4)).sel = k % 4) →
      ∃ t, exec .lagReturnsToZero s = .next t ∧ (slipBuf (ctxOf t k) s.subj.unit).lag = 0 ∧
        (slipBuf (ctxOf t k) s.subj.unit).entries = [] ∧ (ctxOf t k).regs = (ctxOf s k).regs) ∧
    (b.entries ≠ [] ∨ ((coreAt s (k / 4)).last = s.cyc ∧ (coreAt s (k / 4)).sel = k % 4) → exec .lagReturnsToZero s = .next s))

/-- R12 to R15, R115, R119: the selector, reissues and slip buffers. -/
def Obligations.ContextsIssueAndSlip : Prop :=
  Clause.SelectorAndReissue ∧ Clause.SlipBuffersDrain

/-- R400, R401, R404, R406, R407: TAKING A TRAP rolls the context back to its last completed mark. With a service at TVEC, XEPC takes the mark's PC and
XEPL the level, the level rises to 1 at least, and the PC goes to TVEC; with TVEC zero the task ends as faulted; a trap within the service stops the
context to be halted; and while an after-mark of an earlier bundle is under way the trap is held. -/
def Obligations.TrapsAreTaken : Prop :=
  (∀ (s : State) (k : Nat) (x : Trap) (seq : Nat), let c := ctxOf s k
    let t := takeTrap s k x seq
    let d := ctxOf t k
    (mustHold c seq = true → (d.st = if c.st = .stopping then .stopping else .waiting) ∧ d.heldTrap = some (c.heldTrap.getD x) ∧ d.pc = c.pc ∧ d.regs = c.regs ∧ t.mem = s.mem) ∧
    (mustHold c seq = false → x.quar = none → x.keep = none → ¬ (c.reclaim = true ∧ c.mark.regs.pin = 0) →
      (t.iss = { s.iss with cut := true, work := [], stores := [] } ∧ d.regs = c.mark.regs ∧ d.wdc = 0 ∧
        (∀ n, (slipBuf d n).entries = []) ∧ (∀ f ∈ d.flights, f.bseq ≤ c.mark.bseq) ∧ ∀ i, i ≠ k → ctxOf t i = ctxOf s i) ∧
      (c.inService = false → c.tvec ≠ 0 → d.xepc = c.mark.restart ∧ d.xepl = c.pl ∧ d.pl = max c.pl 1 ∧ d.pc = c.tvec ∧ d.inService = true ∧
        (let stops : Prop := c.st = .stopping ∧ (c.why = .save ∨ c.why = .halt)
         (¬ stops → d.st = .ready) ∧
         (stops → d.st = .stopping ∧ d.why = c.why ∧ ⟨.contextSaveComplete, subjOf k⟩ ∈ t.ready)) ∧
        (∀ ia core off, Memory.wf s.mem = true → rangeCheck d c.trec.toNat 64 .write = .ok ia → windowOf (k / 4) ia = .scratch core off →
          windowOk s (quarterOf (k / 4)) c.pl (.scratch core off) = true → mgets t (spAddr core off) 64 = trapRecord s k x)) ∧
      (c.inService = false → c.tvec = 0 → d.st = .stopping ∧ d.why = .fault ∧ d.pc = c.mark.restart ∧
        ⟨.taskComplete, { subjOf k with flag := true }⟩ ∈ t.ready) ∧
      (c.inService = true → d.st = .stopping ∧ d.why = .halt ∧ d.wt = false ∧ d.pc = c.mark.restart ∧
        ⟨.contextSaveComplete, subjOf k⟩ ∈ t.ready))) ∧
  (∀ (s : State), let k := keyOf s.subj
    ((ctxOf s k).heldTrap = none ∨ (ctxOf s k).nextMark ≠ none → exec .trapDelivery s = .next s) ∧
    (∀ x, (ctxOf s k).heldTrap = some x → (ctxOf s k).nextMark = none → ∃ t, exec .trapDelivery s = .next t ∧ t.iss = {} ∧
      ctxOf t k = ctxOf (takeTrap (updCtx s k fun c => { c with heldTrap := none }) k x ((ctxOf s k).bseq + 1)) k))

/-- R402, R404: a scratchpad store that a rollback undoes leaves no trace in memory: rolling back after it gives every byte the value that rolling back
without it gives, for a store into the newest region of its context; or, where it overwrote the copy of a multicast store that had been released but
not yet performed, that copy's byte.  And what a rollback restores. -/
def Obligations.RollbackUndoesStores : Prop :=
  (∀ (s : State) (seq off : Nat) (b : Byte) (x : Nat), Memory.wf s.mem = true →
    inNext (me s) seq = true ∨ (me s).nextRegion.journal = [] →
    (∀ g ∈ gated (me s), ownCopy (myCore s) g off = false) →
    mget (rollback (spStoreIn s seq off b) s.at_) x = mget (rollback s s.at_) x) ∧
  (∀ (s : State) (seq off : Nat) (b : Byte) (g : GateByte), Memory.wf s.mem = true → (me s).region.journal = [] → (me s).nextRegion.journal = [] →
    (me s).late = [g] → g.seq < seq → ownCopy (myCore s) g off = true → inNext (me s) seq = false →
    mget (rollback (spStoreIn s seq off b) s.at_) (spAddr (myCore s) off) = g.byte) ∧
  (∀ (s : State) (k : Nat), let d := ctxOf (rollback s k) k
    d.regs = (ctxOf s k).mark.regs ∧ d.pc = (ctxOf s k).mark.restart ∧ d.region.gate = [] ∧ d.nextRegion.gate = [] ∧ d.region.journal = [] ∧
    d.nextMark = none ∧ d.heldTrap = none ∧ (∀ f ∈ d.flights, f.bseq ≤ (ctxOf s k).mark.bseq) ∧
    (∀ r ∈ (rollback s k).reqs, r.key = k → r.accepted = true ∨ r.bseq ≤ (ctxOf s k).mark.bseq) ∧
    ((ctxOf s k).region.journal = [] → (ctxOf s k).nextRegion.journal = [] → (rollback s k).mem = s.mem))

/-- R30, R90, R212, R218, R401: a mark that the program asked for does not complete while a reclaim request is due; an after-mark waits while a request of its bundle is not accepted or its atomic has not performed, or while a page of its region's
gated stores waits for its translation; otherwise it completes: the gated stores are released, the mark is what rollback restores, and the region it
opened becomes the open one, and the chunk tiles of the region count once no released byte waits any longer; a context that waited for it goes on. -/
def Clause.AfterMarksComplete : Prop :=
  (∀ s : State, (ctxOf s (keyOf s.subj)).nextMark = none → (ctxOf s (keyOf s.subj)).markWait = false → exec .afterMark s = .next s) ∧
  (∀ (s : State) (m : Mark), let k := keyOf s.subj
    (ctxOf s k).nextMark = some m → (ctxOf s k).markWait = false →
    ((ctxOf s k).ownMark = true → reclaimDue (ctxOf s k) = true → exec .afterMark s = .next s) ∧
    ((∃ r ∈ s.reqs, r.key = k ∧ r.bseq = m.bseq ∧ r.accepted = false) → exec .afterMark s = .next s) ∧
    ((ctxOf s k).ownMark = false ∨ reclaimDue (ctxOf s k) = false → (∀ r ∈ s.reqs, r.key = k → r.bseq = m.bseq → r.accepted = true) →
      (∀ f ∈ (ctxOf s k).flights, f.bseq = m.bseq → (match f.src with | .atomic .. => False | _ => True)) →
      (∀ u, confirmRegion s k = (u, .ok) → ∃ t, exec .afterMark s = .next t ∧
        (ctxOf t k).mark = m ∧ (ctxOf t k).region = (ctxOf s k).nextRegion ∧ (ctxOf t k).nextMark = none ∧ (ctxOf t k).retry = false ∧
        (ctxOf t k).regs = (ctxOf s k).regs ∧ (ctxOf t k).pc = (ctxOf s k).pc ∧ t.mem = (releaseGate u k).mem ∧
        ((ctxOf s k).region.gate = [] → (ctxOf s k).late = [] → t.mem = s.mem) ∧
        (∀ h ∈ (ctxOf s k).region.chunks, if (ctxOf t k).late = [] then ⟨.chunkTileCount, { subjOf k with id := h }⟩ ∈ t.ready
          else h ∈ (ctxOf t k).lateTiles) ∧
        ((ctxOf s k).heldTrap.isSome = true → ⟨.trapDelivery, subjOf k⟩ ∈ t.ready)) ∧
      (∀ u, confirmRegion s k = (u, .wait) → exec .afterMark s = .next (updCtx u k fun c => { c with markWait := true })))) ∧
  (∀ (s u : State) (m : Mark), let k := keyOf s.subj
    let c := ctxOf s k
    c.nextMark = some m → c.markWait = true → c.st = .waiting → c.why ≠ .done → c.heldTrap = none → reclaimDue c = false → c.checkDue = .none →
    c.forced = false → (∀ r ∈ s.reqs, r.key = k → r.bseq = m.bseq → r.accepted = true) →
    (∀ f ∈ c.flights, f.bseq = m.bseq → (match f.src with | .atomic .. => False | _ => True)) → confirmRegion s k = (u, .ok) →
    ∃ t, exec .afterMark s = .next t ∧ (ctxOf t k).mark = m ∧ (ctxOf t k).region = c.nextRegion ∧ (ctxOf t k).nextMark = none ∧
      (ctxOf t k).markWait = false ∧ (ctxOf t k).st = .ready ∧ (ctxOf t k).regs = c.regs ∧ (ctxOf t k).pc = c.pc ∧ t.mem = (releaseGate u k).mem)

/-! ### Translations, page-ins and errors -/

/-- R386, R391, R392, R394, R398: an access of an address space that has no valid entry takes a range fault. The home of a wanted page walks: the leaf it finds is cached with A set, in the entry too; with MODE's walk bit set, the walk
becomes a request to system software, which an access of another address space to the page joins, and whose answer 1 fails every access that
joined, 2 installs the leaf written to XPTE for each of their address spaces (not after a SHOOT of the page), and 0 lets them try again. -/
def Clause.TranslationsAreHomed : Prop :=
  (∀ (s : State), let k := keyOf s.subj
    let q := leadCore s (k / 4)
    let asn := (ctxOf s k).asn
    let ia := s.subj.id
    (windowOf (k / 4) ia = .memory ∨ windowOf (k / 4) ia = .cxl) →
    (asnAbsent s q asn = true → readIa s (k / 4) asn ia = ({ s with fresh := s.fresh + 1 }, .fail 0x09) ∧ exec .translationWalk s =
      .next (if pageWanted (ctxOf s k) (ia / 2 ^ 16) s.subj.flag then { s with fresh := s.fresh + 1 } else s)) ∧
    (pageWanted (ctxOf s k) (ia / 2 ^ 16) s.subj.flag = false → exec .translationWalk s = .next s) ∧
    (pageWanted (ctxOf s k) (ia / 2 ^ 16) s.subj.flag = true → s.tlb = [] → (∀ x ∈ s.xreqs, ¬ (x.quarter = q ∧ x.page = ia / 2 ^ 16)) →
      (∀ entry e huge, Memory.wf s.mem = true → s.subj.flag = false → modeBit s q 1 = false → walk s q asn ia = .leaf entry e huge →
        paNum s entry 8 = e → e < 2 ^ 64 → s.fenced = [] →
        ∃ t, exec .translationWalk s = .next t ∧ t.tlb = [⟨q, asn, ia / 2 ^ 16, setBit e 5 true, entry, huge, homeSlice s q ia⟩] ∧ paNum t entry 8 = setBit e 5 true ∧
          t.ctxs = s.ctxs) ∧
      (modeBit s q 1 = true → asnAbsent s q asn = false →
        ∃ t, exec .translationWalk s = .next t ∧ t.ctxs = s.ctxs ∧
          ∃ x ∈ t.xreqs, x.quarter = q ∧ x.ev = 1 ∧ x.acc = s.subj.flag.toNat ∧ x.asn = asn ∧ x.page = ia / 2 ^ 16 ∧ x.failed = none ∧ x.joined = [])) ∧
    (pageWanted (ctxOf s k) (ia / 2 ^ 16) s.subj.flag = true → s.tlb = [] → modeBit s q 1 = true → asnAbsent s q asn = false →
      ∀ x, s.xreqs.find? (fun x => x.quarter == q && x.page == ia / 2 ^ 16) = some x →
        (x.failed.isSome = true → exec .translationWalk s = .next { s with fresh := s.fresh + 1 }) ∧
        (x.failed = none → ∃ t, exec .translationWalk s = .next t ∧ t.ctxs = s.ctxs ∧ t.tlb.filter (fun e => e.q == q && e.page == ia / 2 ^ 16 && e.asn == asn) = [] ∧
          ∃ y ∈ t.xreqs, y.id = x.id ∧ (y.asn = asn ∨ asn ∈ y.joined)))) ∧
  (∀ (s : State), let q := s.subj.id
    let v := s.subj.val
    ((∀ x ∈ s.xreqs, ¬ (x.quarter = q ∧ x.failed = none ∧ x.id % 2 ^ 16 = v % 2 ^ 16)) → exec .xans s = .next s) ∧
    (∀ x, s.xreqs.find? (fun x => x.quarter == q && x.failed.isNone && x.id % 2 ^ 16 == v % 2 ^ 16) = some x →
      ∃ t, exec .xans s = .next t ∧ t.mem = s.mem ∧ t.ctxs = s.ctxs ∧
        (fld v 17 16 = 0 → t.xreqs = s.xreqs.filter (fun y => y.id != x.id) ∧ t.tlb = s.tlb) ∧
        (fld v 17 16 = 1 → t.tlb = s.tlb ∧ (∀ y ∈ t.xreqs, y.id = x.id → y.failed = some false) ∧ t.xreqs.length = s.xreqs.length) ∧
        (fld v 17 16 = 2 → x.shot = false → t.xreqs = s.xreqs.filter (fun y => y.id != x.id) ∧
          ∀ a ∈ x.asn :: x.joined, ⟨q, a, x.page, s.subj.ref, noEntry, false, homeSlice s q (x.page * 2 ^ 16)⟩ ∈ t.tlb) ∧
        (fld v 17 16 = 2 → x.shot = true → t.xreqs = s.xreqs.filter (fun y => y.id != x.id) ∧ t.tlb = s.tlb) ∧
        (fld v 17 16 = 3 → t.xreqs = s.xreqs ∧ t.tlb = s.tlb)))

/-- R317, R323, R324, R396: a page-in that ends leaves the list and appends its record to the tier ring of the page's home; it moves the page where it has a
frame and the leaf still awaits it, and every cached copy of the leaf changes with it; one with no frame fails: PI clears in the leaf, and each
context whose tier word counts it gets ERR; the units of the chains that wait for the page count where it came, and stay owed where it did not. -/
def Clause.PageInsEnd : Prop :=
  ∀ s : State,
    ((∀ p ∈ s.pageIns, p.id ≠ s.subj.id) → exec .pageInComplete s = .next s) ∧
    ∀ p, s.pageIns.find? (fun p => p.id == s.subj.id) = some p →
      ∃ (u : State) (fail : Bool), exec .pageInComplete s = .next (ringAppend u (homeSlice u p.quarter p.ia / 64) tierRing (tierRecord p fail)) ∧
        u.pageIns = s.pageIns.filter (fun x => x.id != p.id) ∧
        (∀ g, p.frame = some g → fail = false → u.tlb = s.tlb.map fun t =>
          if t.q == p.quarter && (t.page == p.ia / 2 ^ 16 || (p.entry != noEntry && t.entry == p.entry)) then
            { t with leaf := setBit (setFld (setFld (movingLeaf s p) 51 16 g) 11 10 0) 12 false } else t) ∧
        (fail = true ↔ p.frame = none ∨ ¬ (bitAt (movingLeaf s p) 0 = true ∧ bitAt (movingLeaf s p) 12 = true) ∨
          frameBad s p.quarter (fld (movingLeaf s p) 51 16) = true) ∧
        (p.frame = none → p.entry ≠ noEntry → Memory.wf s.mem = true → paNum u p.entry 8 = setBit (paNum s p.entry 8) 12 false) ∧
        (fail = false → (p.quarter, p.ia / 2 ^ 16, p.keys) ∈ u.moved ∧
          ∀ e ∈ p.counts, ⟨e.2.2, 1, false, false⟩ ∈ (coreAt u (e.1 / 4)).arrivals) ∧
        (fail = true → ∀ e ∈ p.counts,
          ({ quarter := p.quarter, asn := p.asn, ia := p.ia, core := e.1 / 4, ctx := e.1 % 4, count := e, idle := true } : PageWait) ∈ u.owed) ∧
        (∀ k ∈ p.keys, (ctxOf s k).tword % 2 = 1 →
          ⟨(ctxOf s k).tword / 2 * 16, if fail then 0 else 1, false, fail⟩ ∈ (coreAt u (k / 4)).arrivals)

/-- R323, R324, R386, R391 to R398: absent address spaces, walks, answers of system software, and page-ins. -/
def Obligations.TranslationsAndPageIns : Prop :=
  Clause.TranslationsAreHomed ∧ Clause.PageInsEnd

/-- R206, R207, R410, R411: an uncorrectable error that a region's work meets rolls the region back and runs it again; a second one in the same region is
lasting: its unit is fenced and trap 0x1F is pending; the load pipe's reread either lets a suspended pass go on or abandons it. -/
def Clause.ErrorsRetryOnce : Prop :=
  (∀ (s : State), let k := keyOf s.subj
    let c := ctxOf s k
    (c.st = .free ∨ s.subj.code = 0 ∨ 3 < s.subj.code → exec .uncorrectableError s = .next s) ∧
    (c.st ≠ .free → c.why ≠ .done → c.why ≠ .fault → c.why ≠ .reclaim → c.saved = false → c.halted = false → 1 ≤ s.subj.code → s.subj.code ≤ 3 →
      (c.retry = false → c.nextMark = none → c.reclaim = false →
        ∃ t, exec .uncorrectableError s = .next t ∧ (ctxOf t k).st = .ready ∧ (ctxOf t k).retry = true ∧ (ctxOf t k).regs = c.mark.regs ∧
          (ctxOf t k).pc = c.mark.restart) ∧
      (c.retry = true → ∃ t, exec .uncorrectableError s = .next t ∧ (∃ x ∈ (ctxOf t k).async, x.code = 0x1F) ∧ (ctxOf t k).pc = c.pc ∧
        (ctxOf t k).regs = c.regs ∧ (s.subj.code = 3 → s.subj.val ∈ t.fenced) ∧
        (let n := homeSlice s (leadCore s (k / 4)) s.subj.id
         s.subj.code = 2 → ∀ i f, (sget [] s.frames n).find? (fun p => p.2.ia == s.subj.id / 64 * 64) = some (i, f) →
           i ∈ (sliceOf t n).fenced)))) ∧
  (∀ (s : State), (∀ p ∈ (coreAt s s.subj.core).passes, p.id ≠ s.subj.id) → exec .loadPipeReread s = .next s) ∧
  (∀ (s : State) (p : Pass), let core := s.subj.core
    passOf s core s.subj.id = some p →
    (p.st ≠ .suspended ∨ p.susp.fc ≠ 3 → exec .loadPipeReread s = .next s) ∧
    (p.st = .suspended → p.susp.fc = 3 → s.subj.flag = false → ∃ t, exec .loadPipeReread s = .next t ∧
      (ctxOf t (4 * core + p.ctx)).mrp = (ctxOf s (4 * core + p.ctx)).mrp ||| 2 ∧ t.mem = s.mem) ∧
    (p.st = .suspended → p.susp.fc = 3 → s.subj.flag = true → ∃ t, exec .loadPipeReread s = .next t ∧
      ∃ x ∈ (ctxOf t (4 * core + p.ctx)).async, x.code = 0x0E))
/-- R90, R206, R207, R401, R410, R411: after-marks, and uncorrectable errors. -/
def Obligations.MarksCompleteAndErrorsRetry : Prop :=
  Clause.AfterMarksComplete ∧ Clause.ErrorsRetryOnce

end Statements
end

