-- ==== Sys2Proof/Laws/Sparse.lean ====
section
/-!
SUPPORT. The laws of sparse maps: what a read gives after a write, and that every write keeps the canonical form.
-/

namespace Sys2Proof.Machine

variable {α : Type}

/-- A write that lists its key is read back. -/
@[simp] theorem sget_sins_same (d : α) (m : Sparse α) (k : Nat) (x : α) : sget d (sins m k x) k = x := by
  induction m with
  | nil => simp [sins, sget]
  | cons p m ih =>
    obtain ⟨j, v⟩ := p
    rcases Nat.lt_trichotomy k j with h | h | h
    · simp [sins, sget, Nat.ne_of_lt h, h]
    · simp [sins, sget, h]
    · simp [sins, sget, Nat.ne_of_gt h, Nat.lt_asymm h, ih]

/-- A write leaves every other key alone. -/
theorem sget_sins_other (d : α) (m : Sparse α) {k j : Nat} (x : α) (h : j ≠ k) :
    sget d (sins m k x) j = sget d m j := by
  induction m with
  | nil =>
    simp only [sins, sget, if_neg h]
    split <;> rfl
  | cons p m ih =>
    obtain ⟨i, v⟩ := p
    rcases Nat.lt_trichotomy k i with hk | hk | hk
    · simp only [sins, Nat.ne_of_lt hk, hk, if_true, if_false]
      by_cases hj : j < k
      · simp [sget, h, hj, Nat.ne_of_lt (Nat.lt_trans hj hk), Nat.lt_trans hj hk]
      · rw [sget]; simp [h, hj]
    · subst hk
      simp [sins, sget, h]
    · simp only [sins, Nat.ne_of_gt hk, Nat.lt_asymm hk, if_false]
      simp only [sget, ih]

/-- A read after a write that lists its key. -/
theorem sget_sins (d : α) (m : Sparse α) (k j : Nat) (x : α) :
    sget d (sins m k x) j = if j = k then x else sget d m j := by
  split
  next h => subst h; simp
  next h => exact sget_sins_other d m x h

/-- A bound on the keys of a canonical map may be lowered. -/
theorem swfFrom_weaken [DecidableEq α] {d : α} {m : Sparse α} {b c : Nat} (h : swfFrom d (some c) m = true)
    (hb : b ≤ c) : swfFrom d (some b) m = true := by
  cases m with
  | nil => rfl
  | cons p m =>
    obtain ⟨j, v⟩ := p
    simp only [swfFrom, Bool.and_eq_true, decide_eq_true_eq] at h ⊢
    exact ⟨⟨by omega, h.1.2⟩, h.2⟩

/-- A canonical map reads as d below its first key. -/
theorem sget_below [DecidableEq α] {d : α} {m : Sparse α} {b j : Nat} (h : swfFrom d (some b) m = true) (hj : j ≤ b) :
    sget d m j = d := by
  cases m with
  | nil => rfl
  | cons p m =>
    obtain ⟨i, v⟩ := p
    simp only [swfFrom, Bool.and_eq_true, decide_eq_true_eq] at h
    have : j < i := by omega
    simp [sget, Nat.ne_of_lt this, this]

/-- The bound on a map's keys, as a proposition. -/
theorem swfFrom_cons [DecidableEq α] (d : α) (b : Option Nat) (j : Nat) (v : α) (m : Sparse α) :
    swfFrom d b ((j, v) :: m) = true ↔ (∀ c, b = some c → c < j) ∧ v ≠ d ∧ swfFrom d (some j) m = true := by
  cases b <;> simp [swfFrom, and_assoc]

/-- A canonical map is canonical from no bound. -/
theorem swfFrom_none [DecidableEq α] {d : α} {b : Option Nat} {m : Sparse α} (h : swfFrom d b m = true) :
    swfFrom d none m = true := by
  cases m with
  | nil => rfl
  | cons p m =>
    obtain ⟨j, v⟩ := p
    rw [swfFrom_cons] at h ⊢
    exact ⟨by simp, h.2⟩

/-- Listing a value other than d keeps the canonical form. -/
theorem swfFrom_sins [DecidableEq α] {d : α} {b : Option Nat} {m : Sparse α} {k : Nat} {x : α}
    (h : swfFrom d b m = true) (hk : ∀ c, b = some c → c < k) (hx : x ≠ d) : swfFrom d b (sins m k x) = true := by
  induction m generalizing b with
  | nil => exact (swfFrom_cons ..).2 ⟨hk, hx, rfl⟩
  | cons p m ih =>
    obtain ⟨j, v⟩ := p
    have hc := (swfFrom_cons ..).1 h
    rcases Nat.lt_trichotomy k j with hj | hj | hj
    · simp only [sins, Nat.ne_of_lt hj, hj, if_true, if_false]
      exact (swfFrom_cons ..).2 ⟨hk, hx, (swfFrom_cons ..).2 ⟨by simpa using hj, hc.2⟩⟩
    · subst hj
      simp only [sins, if_true]
      exact (swfFrom_cons ..).2 ⟨hk, hx, hc.2.2⟩
    · simp only [sins, Nat.ne_of_gt hj, Nat.lt_asymm hj, if_false]
      exact (swfFrom_cons ..).2 ⟨hc.1, hc.2.1, ih hc.2.2 (by simpa using hj)⟩

/-- Removing a key keeps the canonical form. -/
theorem swfFrom_sdel [DecidableEq α] {d : α} {b : Option Nat} {m : Sparse α} {k : Nat}
    (h : swfFrom d b m = true) : swfFrom d b (sdel m k) = true := by
  induction m generalizing b with
  | nil => rfl
  | cons p m ih =>
    obtain ⟨j, v⟩ := p
    have hc := (swfFrom_cons ..).1 h
    rcases Nat.lt_trichotomy k j with hj | hj | hj
    · simpa [sdel, Nat.ne_of_lt hj, hj] using h
    · simp only [sdel, hj, if_true]
      cases b with
      | none => exact swfFrom_none hc.2.2
      | some b => exact swfFrom_weaken hc.2.2 (Nat.le_of_lt (hc.1 b rfl))
    · simp only [sdel, Nat.ne_of_gt hj, Nat.lt_asymm hj, if_false]
      exact (swfFrom_cons ..).2 ⟨hc.1, hc.2.1, ih hc.2.2⟩

/-- A write keeps the canonical form. -/
theorem swf_sput [DecidableEq α] {d : α} {m : Sparse α} {k : Nat} {x : α} (h : swf d m = true) :
    swf d (sput d m k x) = true := by
  unfold swf sput at *
  split
  next => exact swfFrom_sdel h
  next hx => exact swfFrom_sins h (by simp) hx

/-- A removed key reads as d. -/
theorem sget_sdel_same [DecidableEq α] {d : α} {b : Option Nat} {m : Sparse α} {k : Nat} (h : swfFrom d b m = true) :
    sget d (sdel m k) k = d := by
  induction m generalizing b with
  | nil => rfl
  | cons p m ih =>
    obtain ⟨j, v⟩ := p
    have hc := (swfFrom_cons ..).1 h
    rcases Nat.lt_trichotomy k j with hj | hj | hj
    · simp [sdel, sget, Nat.ne_of_lt hj, hj]
    · simpa [sdel, hj] using sget_below hc.2.2 (Nat.le_refl j)
    · simpa [sdel, sget, Nat.ne_of_gt hj, Nat.lt_asymm hj] using ih hc.2.2

/-- Removing a key leaves every other key alone. -/
theorem sget_sdel_other [DecidableEq α] {d : α} {b : Option Nat} {m : Sparse α} {k j : Nat}
    (h : swfFrom d b m = true) (hj : j ≠ k) : sget d (sdel m k) j = sget d m j := by
  induction m generalizing b with
  | nil => rfl
  | cons p m ih =>
    obtain ⟨i, v⟩ := p
    have hc := (swfFrom_cons ..).1 h
    rcases Nat.lt_trichotomy k i with hi | hi | hi
    · simp [sdel, Nat.ne_of_lt hi, hi]
    · subst hi
      simp only [sdel, if_true, sget, if_neg hj]
      split
      next hlt => exact sget_below hc.2.2 (Nat.le_of_lt hlt)
      next => rfl
    · simp only [sdel, Nat.ne_of_gt hi, Nat.lt_asymm hi, if_false, sget, ih hc.2.2]

/-- A read after a write in a canonical map. -/
theorem sget_sput [DecidableEq α] {d : α} {m : Sparse α} (k j : Nat) (x : α) (h : swf d m = true) :
    sget d (sput d m k x) j = if j = k then x else sget d m j := by
  unfold sput
  split
  next hx =>
    subst hx
    split
    next hj => subst hj; exact sget_sdel_same h
    next hj => exact sget_sdel_other h hj
  next hx => exact sget_sins ..

/-- Leaving entries out keeps the canonical form. -/
theorem swfFrom_filter [DecidableEq α] {d : α} {b : Option Nat} {m : Sparse α} (p : Nat × α → Bool)
    (h : swfFrom d b m = true) : swfFrom d b (m.filter p) = true := by
  induction m generalizing b with
  | nil => rfl
  | cons e m ih =>
    obtain ⟨j, v⟩ := e
    have hc := (swfFrom_cons ..).1 h
    have hr : swfFrom d b (m.filter p) = true := by
      apply ih
      cases b with
      | none => exact swfFrom_none hc.2.2
      | some b => exact swfFrom_weaken hc.2.2 (Nat.le_of_lt (hc.1 b rfl))
    rw [List.filter_cons]
    split
    · exact (swfFrom_cons ..).2 ⟨hc.1, hc.2.1, ih hc.2.2⟩
    · exact hr

end Sys2Proof.Machine
end

