-- ==== Sys2Proof/Laws/State.lean ====
section
/-!
SUPPORT. What each named update of the state leaves alone, field by field, and what it changes.
-/

namespace Sys2Proof.Machine

variable (s : State)

@[simp] theorem ctxOf_putCtx_same (k : Nat) (c : Ctx) : ctxOf (putCtx s k c) k = c := by simp [ctxOf, putCtx]
theorem ctxOf_putCtx_other {k j : Nat} (c : Ctx) (h : j ≠ k) : ctxOf (putCtx s k c) j = ctxOf s j := by
  simp [ctxOf, putCtx, sget_sins_other _ _ _ h]
@[simp] theorem me_setMe (c : Ctx) : me (setMe s c) = c := by simp [me, setMe, putCtx, ctxOf]
@[simp] theorem me_updMe (f : Ctx → Ctx) : me (updMe s f) = f (me s) := by simp [updMe]
@[simp] theorem ctxOf_updCtx_same (k : Nat) (f : Ctx → Ctx) : ctxOf (updCtx s k f) k = f (ctxOf s k) := by simp [updCtx]
theorem ctxOf_updCtx_other {k j : Nat} (f : Ctx → Ctx) (h : j ≠ k) : ctxOf (updCtx s k f) j = ctxOf s j :=
  ctxOf_putCtx_other s _ h
theorem ctxOf_updMe_other {j : Nat} (f : Ctx → Ctx) (h : j ≠ s.at_) : ctxOf (updMe s f) j = ctxOf s j :=
  ctxOf_putCtx_other s _ h
@[simp] theorem coreAt_updCore_same (n : Nat) (f : CoreSt → CoreSt) : coreAt (updCore s n f) n = f (coreAt s n) := by
  simp [coreAt, updCore]
theorem coreAt_updCore_other {n j : Nat} (f : CoreSt → CoreSt) (h : j ≠ n) :
    coreAt (updCore s n f) j = coreAt s j := by simp [coreAt, updCore, sget_sins_other _ _ _ h]
@[simp] theorem creg_setCreg_same (q : Nat) (b : CtlBlock) (o v : Nat) : creg (setCreg s q b o v) q b o = v := by
  simp [creg, setCreg]

@[simp] theorem putCtx_cyc (k : Nat) (c : Ctx) : (putCtx s k c).cyc = s.cyc := rfl
@[simp] theorem putCtx_fresh (k : Nat) (c : Ctx) : (putCtx s k c).fresh = s.fresh := rfl
@[simp] theorem putCtx_nextId (k : Nat) (c : Ctx) : (putCtx s k c).nextId = s.nextId := rfl
@[simp] theorem putCtx_mem (k : Nat) (c : Ctx) : (putCtx s k c).mem = s.mem := rfl
@[simp] theorem putCtx_cores (k : Nat) (c : Ctx) : (putCtx s k c).cores = s.cores := rfl
@[simp] theorem putCtx_ctl (k : Nat) (c : Ctx) : (putCtx s k c).ctl = s.ctl := rfl
@[simp] theorem putCtx_pkg (k : Nat) (c : Ctx) : (putCtx s k c).pkg = s.pkg := rfl
@[simp] theorem putCtx_at (k : Nat) (c : Ctx) : (putCtx s k c).at_ = s.at_ := rfl
@[simp] theorem putCtx_subj (k : Nat) (c : Ctx) : (putCtx s k c).subj = s.subj := rfl
@[simp] theorem putCtx_iss (k : Nat) (c : Ctx) : (putCtx s k c).iss = s.iss := rfl
@[simp] theorem putCtx_reqs (k : Nat) (c : Ctx) : (putCtx s k c).reqs = s.reqs := rfl
@[simp] theorem putCtx_tlb (k : Nat) (c : Ctx) : (putCtx s k c).tlb = s.tlb := rfl
@[simp] theorem putCtx_l1 (k : Nat) (c : Ctx) : (putCtx s k c).l1 = s.l1 := rfl
@[simp] theorem putCtx_xreqs (k : Nat) (c : Ctx) : (putCtx s k c).xreqs = s.xreqs := rfl
@[simp] theorem putCtx_asks (k : Nat) (c : Ctx) : (putCtx s k c).asks = s.asks := rfl
@[simp] theorem putCtx_pageIns (k : Nat) (c : Ctx) : (putCtx s k c).pageIns = s.pageIns := rfl
@[simp] theorem putCtx_moved (k : Nat) (c : Ctx) : (putCtx s k c).moved = s.moved := rfl
@[simp] theorem putCtx_owed (k : Nat) (c : Ctx) : (putCtx s k c).owed = s.owed := rfl
@[simp] theorem putCtx_fenced (k : Nat) (c : Ctx) : (putCtx s k c).fenced = s.fenced := rfl
@[simp] theorem putCtx_nrg (k : Nat) (c : Ctx) : (putCtx s k c).nrg = s.nrg := rfl
@[simp] theorem putCtx_joules (k : Nat) (c : Ctx) : (putCtx s k c).joules = s.joules := rfl
@[simp] theorem putCtx_slices (k : Nat) (c : Ctx) : (putCtx s k c).slices = s.slices := rfl
@[simp] theorem putCtx_frames (k : Nat) (c : Ctx) : (putCtx s k c).frames = s.frames := rfl
@[simp] theorem putCtx_resv (k : Nat) (c : Ctx) : (putCtx s k c).resv = s.resv := rfl
@[simp] theorem putCtx_notices (k : Nat) (c : Ctx) : (putCtx s k c).notices = s.notices := rfl
@[simp] theorem putCtx_groups (k : Nat) (c : Ctx) : (putCtx s k c).groups = s.groups := rfl
@[simp] theorem putCtx_saved (k : Nat) (c : Ctx) : (putCtx s k c).saved = s.saved := rfl
@[simp] theorem putCtx_graphs (k : Nat) (c : Ctx) : (putCtx s k c).graphs = s.graphs := rfl
@[simp] theorem putCtx_conns (k : Nat) (c : Ctx) : (putCtx s k c).conns = s.conns := rfl
@[simp] theorem putCtx_chunks (k : Nat) (c : Ctx) : (putCtx s k c).chunks = s.chunks := rfl
@[simp] theorem putCtx_launches (k : Nat) (c : Ctx) : (putCtx s k c).launches = s.launches := rfl
@[simp] theorem putCtx_teams (k : Nat) (c : Ctx) : (putCtx s k c).teams = s.teams := rfl
@[simp] theorem putCtx_transit (k : Nat) (c : Ctx) : (putCtx s k c).transit = s.transit := rfl
@[simp] theorem putCtx_quarters (k : Nat) (c : Ctx) : (putCtx s k c).quarters = s.quarters := rfl
@[simp] theorem putCtx_boot (k : Nat) (c : Ctx) : (putCtx s k c).boot = s.boot := rfl
@[simp] theorem putCtx_parked (k : Nat) (c : Ctx) : (putCtx s k c).parked = s.parked := rfl
@[simp] theorem putCtx_shoots (k : Nat) (c : Ctx) : (putCtx s k c).shoots = s.shoots := rfl
@[simp] theorem putCtx_timers (k : Nat) (c : Ctx) : (putCtx s k c).timers = s.timers := rfl
@[simp] theorem putCtx_ready (k : Nat) (c : Ctx) : (putCtx s k c).ready = s.ready := rfl
@[simp] theorem putCtx_schedule (k : Nat) (c : Ctx) : (putCtx s k c).schedule = s.schedule := rfl
@[simp] theorem putCtx_turn (k : Nat) (c : Ctx) : (putCtx s k c).turn = s.turn := rfl

@[simp] theorem updCtx_cyc (k : Nat) (f : Ctx → Ctx) : (updCtx s k f).cyc = s.cyc := rfl
@[simp] theorem updCtx_fresh (k : Nat) (f : Ctx → Ctx) : (updCtx s k f).fresh = s.fresh := rfl
@[simp] theorem updCtx_nextId (k : Nat) (f : Ctx → Ctx) : (updCtx s k f).nextId = s.nextId := rfl
@[simp] theorem updCtx_mem (k : Nat) (f : Ctx → Ctx) : (updCtx s k f).mem = s.mem := rfl
@[simp] theorem updCtx_cores (k : Nat) (f : Ctx → Ctx) : (updCtx s k f).cores = s.cores := rfl
@[simp] theorem updCtx_ctl (k : Nat) (f : Ctx → Ctx) : (updCtx s k f).ctl = s.ctl := rfl
@[simp] theorem updCtx_pkg (k : Nat) (f : Ctx → Ctx) : (updCtx s k f).pkg = s.pkg := rfl
@[simp] theorem updCtx_at (k : Nat) (f : Ctx → Ctx) : (updCtx s k f).at_ = s.at_ := rfl
@[simp] theorem updCtx_subj (k : Nat) (f : Ctx → Ctx) : (updCtx s k f).subj = s.subj := rfl
@[simp] theorem updCtx_iss (k : Nat) (f : Ctx → Ctx) : (updCtx s k f).iss = s.iss := rfl
@[simp] theorem updCtx_reqs (k : Nat) (f : Ctx → Ctx) : (updCtx s k f).reqs = s.reqs := rfl
@[simp] theorem updCtx_tlb (k : Nat) (f : Ctx → Ctx) : (updCtx s k f).tlb = s.tlb := rfl
@[simp] theorem updCtx_l1 (k : Nat) (f : Ctx → Ctx) : (updCtx s k f).l1 = s.l1 := rfl
@[simp] theorem updCtx_xreqs (k : Nat) (f : Ctx → Ctx) : (updCtx s k f).xreqs = s.xreqs := rfl
@[simp] theorem updCtx_asks (k : Nat) (f : Ctx → Ctx) : (updCtx s k f).asks = s.asks := rfl
@[simp] theorem updCtx_pageIns (k : Nat) (f : Ctx → Ctx) : (updCtx s k f).pageIns = s.pageIns := rfl
@[simp] theorem updCtx_moved (k : Nat) (f : Ctx → Ctx) : (updCtx s k f).moved = s.moved := rfl
@[simp] theorem updCtx_owed (k : Nat) (f : Ctx → Ctx) : (updCtx s k f).owed = s.owed := rfl
@[simp] theorem updCtx_fenced (k : Nat) (f : Ctx → Ctx) : (updCtx s k f).fenced = s.fenced := rfl
@[simp] theorem updCtx_nrg (k : Nat) (f : Ctx → Ctx) : (updCtx s k f).nrg = s.nrg := rfl
@[simp] theorem updCtx_joules (k : Nat) (f : Ctx → Ctx) : (updCtx s k f).joules = s.joules := rfl
@[simp] theorem updCtx_slices (k : Nat) (f : Ctx → Ctx) : (updCtx s k f).slices = s.slices := rfl
@[simp] theorem updCtx_frames (k : Nat) (f : Ctx → Ctx) : (updCtx s k f).frames = s.frames := rfl
@[simp] theorem updCtx_resv (k : Nat) (f : Ctx → Ctx) : (updCtx s k f).resv = s.resv := rfl
@[simp] theorem updCtx_notices (k : Nat) (f : Ctx → Ctx) : (updCtx s k f).notices = s.notices := rfl
@[simp] theorem updCtx_groups (k : Nat) (f : Ctx → Ctx) : (updCtx s k f).groups = s.groups := rfl
@[simp] theorem updCtx_saved (k : Nat) (f : Ctx → Ctx) : (updCtx s k f).saved = s.saved := rfl
@[simp] theorem updCtx_graphs (k : Nat) (f : Ctx → Ctx) : (updCtx s k f).graphs = s.graphs := rfl
@[simp] theorem updCtx_conns (k : Nat) (f : Ctx → Ctx) : (updCtx s k f).conns = s.conns := rfl
@[simp] theorem updCtx_chunks (k : Nat) (f : Ctx → Ctx) : (updCtx s k f).chunks = s.chunks := rfl
@[simp] theorem updCtx_launches (k : Nat) (f : Ctx → Ctx) : (updCtx s k f).launches = s.launches := rfl
@[simp] theorem updCtx_teams (k : Nat) (f : Ctx → Ctx) : (updCtx s k f).teams = s.teams := rfl
@[simp] theorem updCtx_transit (k : Nat) (f : Ctx → Ctx) : (updCtx s k f).transit = s.transit := rfl
@[simp] theorem updCtx_quarters (k : Nat) (f : Ctx → Ctx) : (updCtx s k f).quarters = s.quarters := rfl
@[simp] theorem updCtx_boot (k : Nat) (f : Ctx → Ctx) : (updCtx s k f).boot = s.boot := rfl
@[simp] theorem updCtx_parked (k : Nat) (f : Ctx → Ctx) : (updCtx s k f).parked = s.parked := rfl
@[simp] theorem updCtx_shoots (k : Nat) (f : Ctx → Ctx) : (updCtx s k f).shoots = s.shoots := rfl
@[simp] theorem updCtx_timers (k : Nat) (f : Ctx → Ctx) : (updCtx s k f).timers = s.timers := rfl
@[simp] theorem updCtx_ready (k : Nat) (f : Ctx → Ctx) : (updCtx s k f).ready = s.ready := rfl
@[simp] theorem updCtx_schedule (k : Nat) (f : Ctx → Ctx) : (updCtx s k f).schedule = s.schedule := rfl
@[simp] theorem updCtx_turn (k : Nat) (f : Ctx → Ctx) : (updCtx s k f).turn = s.turn := rfl

@[simp] theorem setMe_cyc (c : Ctx) : (setMe s c).cyc = s.cyc := rfl
@[simp] theorem setMe_fresh (c : Ctx) : (setMe s c).fresh = s.fresh := rfl
@[simp] theorem setMe_nextId (c : Ctx) : (setMe s c).nextId = s.nextId := rfl
@[simp] theorem setMe_mem (c : Ctx) : (setMe s c).mem = s.mem := rfl
@[simp] theorem setMe_cores (c : Ctx) : (setMe s c).cores = s.cores := rfl
@[simp] theorem setMe_ctl (c : Ctx) : (setMe s c).ctl = s.ctl := rfl
@[simp] theorem setMe_pkg (c : Ctx) : (setMe s c).pkg = s.pkg := rfl
@[simp] theorem setMe_at (c : Ctx) : (setMe s c).at_ = s.at_ := rfl
@[simp] theorem setMe_subj (c : Ctx) : (setMe s c).subj = s.subj := rfl
@[simp] theorem setMe_iss (c : Ctx) : (setMe s c).iss = s.iss := rfl
@[simp] theorem setMe_reqs (c : Ctx) : (setMe s c).reqs = s.reqs := rfl
@[simp] theorem setMe_tlb (c : Ctx) : (setMe s c).tlb = s.tlb := rfl
@[simp] theorem setMe_l1 (c : Ctx) : (setMe s c).l1 = s.l1 := rfl
@[simp] theorem setMe_xreqs (c : Ctx) : (setMe s c).xreqs = s.xreqs := rfl
@[simp] theorem setMe_asks (c : Ctx) : (setMe s c).asks = s.asks := rfl
@[simp] theorem setMe_pageIns (c : Ctx) : (setMe s c).pageIns = s.pageIns := rfl
@[simp] theorem setMe_moved (c : Ctx) : (setMe s c).moved = s.moved := rfl
@[simp] theorem setMe_owed (c : Ctx) : (setMe s c).owed = s.owed := rfl
@[simp] theorem setMe_fenced (c : Ctx) : (setMe s c).fenced = s.fenced := rfl
@[simp] theorem setMe_nrg (c : Ctx) : (setMe s c).nrg = s.nrg := rfl
@[simp] theorem setMe_joules (c : Ctx) : (setMe s c).joules = s.joules := rfl
@[simp] theorem setMe_slices (c : Ctx) : (setMe s c).slices = s.slices := rfl
@[simp] theorem setMe_frames (c : Ctx) : (setMe s c).frames = s.frames := rfl
@[simp] theorem setMe_resv (c : Ctx) : (setMe s c).resv = s.resv := rfl
@[simp] theorem setMe_notices (c : Ctx) : (setMe s c).notices = s.notices := rfl
@[simp] theorem setMe_groups (c : Ctx) : (setMe s c).groups = s.groups := rfl
@[simp] theorem setMe_saved (c : Ctx) : (setMe s c).saved = s.saved := rfl
@[simp] theorem setMe_graphs (c : Ctx) : (setMe s c).graphs = s.graphs := rfl
@[simp] theorem setMe_conns (c : Ctx) : (setMe s c).conns = s.conns := rfl
@[simp] theorem setMe_chunks (c : Ctx) : (setMe s c).chunks = s.chunks := rfl
@[simp] theorem setMe_launches (c : Ctx) : (setMe s c).launches = s.launches := rfl
@[simp] theorem setMe_teams (c : Ctx) : (setMe s c).teams = s.teams := rfl
@[simp] theorem setMe_transit (c : Ctx) : (setMe s c).transit = s.transit := rfl
@[simp] theorem setMe_quarters (c : Ctx) : (setMe s c).quarters = s.quarters := rfl
@[simp] theorem setMe_boot (c : Ctx) : (setMe s c).boot = s.boot := rfl
@[simp] theorem setMe_parked (c : Ctx) : (setMe s c).parked = s.parked := rfl
@[simp] theorem setMe_shoots (c : Ctx) : (setMe s c).shoots = s.shoots := rfl
@[simp] theorem setMe_timers (c : Ctx) : (setMe s c).timers = s.timers := rfl
@[simp] theorem setMe_ready (c : Ctx) : (setMe s c).ready = s.ready := rfl
@[simp] theorem setMe_schedule (c : Ctx) : (setMe s c).schedule = s.schedule := rfl
@[simp] theorem setMe_turn (c : Ctx) : (setMe s c).turn = s.turn := rfl

@[simp] theorem updMe_cyc (f : Ctx → Ctx) : (updMe s f).cyc = s.cyc := rfl
@[simp] theorem updMe_fresh (f : Ctx → Ctx) : (updMe s f).fresh = s.fresh := rfl
@[simp] theorem updMe_nextId (f : Ctx → Ctx) : (updMe s f).nextId = s.nextId := rfl
@[simp] theorem updMe_mem (f : Ctx → Ctx) : (updMe s f).mem = s.mem := rfl
@[simp] theorem updMe_cores (f : Ctx → Ctx) : (updMe s f).cores = s.cores := rfl
@[simp] theorem updMe_ctl (f : Ctx → Ctx) : (updMe s f).ctl = s.ctl := rfl
@[simp] theorem updMe_pkg (f : Ctx → Ctx) : (updMe s f).pkg = s.pkg := rfl
@[simp] theorem updMe_at (f : Ctx → Ctx) : (updMe s f).at_ = s.at_ := rfl
@[simp] theorem updMe_subj (f : Ctx → Ctx) : (updMe s f).subj = s.subj := rfl
@[simp] theorem updMe_iss (f : Ctx → Ctx) : (updMe s f).iss = s.iss := rfl
@[simp] theorem updMe_reqs (f : Ctx → Ctx) : (updMe s f).reqs = s.reqs := rfl
@[simp] theorem updMe_tlb (f : Ctx → Ctx) : (updMe s f).tlb = s.tlb := rfl
@[simp] theorem updMe_l1 (f : Ctx → Ctx) : (updMe s f).l1 = s.l1 := rfl
@[simp] theorem updMe_xreqs (f : Ctx → Ctx) : (updMe s f).xreqs = s.xreqs := rfl
@[simp] theorem updMe_asks (f : Ctx → Ctx) : (updMe s f).asks = s.asks := rfl
@[simp] theorem updMe_pageIns (f : Ctx → Ctx) : (updMe s f).pageIns = s.pageIns := rfl
@[simp] theorem updMe_moved (f : Ctx → Ctx) : (updMe s f).moved = s.moved := rfl
@[simp] theorem updMe_owed (f : Ctx → Ctx) : (updMe s f).owed = s.owed := rfl
@[simp] theorem updMe_fenced (f : Ctx → Ctx) : (updMe s f).fenced = s.fenced := rfl
@[simp] theorem updMe_nrg (f : Ctx → Ctx) : (updMe s f).nrg = s.nrg := rfl
@[simp] theorem updMe_joules (f : Ctx → Ctx) : (updMe s f).joules = s.joules := rfl
@[simp] theorem updMe_slices (f : Ctx → Ctx) : (updMe s f).slices = s.slices := rfl
@[simp] theorem updMe_frames (f : Ctx → Ctx) : (updMe s f).frames = s.frames := rfl
@[simp] theorem updMe_resv (f : Ctx → Ctx) : (updMe s f).resv = s.resv := rfl
@[simp] theorem updMe_notices (f : Ctx → Ctx) : (updMe s f).notices = s.notices := rfl
@[simp] theorem updMe_groups (f : Ctx → Ctx) : (updMe s f).groups = s.groups := rfl
@[simp] theorem updMe_saved (f : Ctx → Ctx) : (updMe s f).saved = s.saved := rfl
@[simp] theorem updMe_graphs (f : Ctx → Ctx) : (updMe s f).graphs = s.graphs := rfl
@[simp] theorem updMe_conns (f : Ctx → Ctx) : (updMe s f).conns = s.conns := rfl
@[simp] theorem updMe_chunks (f : Ctx → Ctx) : (updMe s f).chunks = s.chunks := rfl
@[simp] theorem updMe_launches (f : Ctx → Ctx) : (updMe s f).launches = s.launches := rfl
@[simp] theorem updMe_teams (f : Ctx → Ctx) : (updMe s f).teams = s.teams := rfl
@[simp] theorem updMe_transit (f : Ctx → Ctx) : (updMe s f).transit = s.transit := rfl
@[simp] theorem updMe_quarters (f : Ctx → Ctx) : (updMe s f).quarters = s.quarters := rfl
@[simp] theorem updMe_boot (f : Ctx → Ctx) : (updMe s f).boot = s.boot := rfl
@[simp] theorem updMe_parked (f : Ctx → Ctx) : (updMe s f).parked = s.parked := rfl
@[simp] theorem updMe_shoots (f : Ctx → Ctx) : (updMe s f).shoots = s.shoots := rfl
@[simp] theorem updMe_timers (f : Ctx → Ctx) : (updMe s f).timers = s.timers := rfl
@[simp] theorem updMe_ready (f : Ctx → Ctx) : (updMe s f).ready = s.ready := rfl
@[simp] theorem updMe_schedule (f : Ctx → Ctx) : (updMe s f).schedule = s.schedule := rfl
@[simp] theorem updMe_turn (f : Ctx → Ctx) : (updMe s f).turn = s.turn := rfl

@[simp] theorem updCore_cyc (n : Nat) (f : CoreSt → CoreSt) : (updCore s n f).cyc = s.cyc := rfl
@[simp] theorem updCore_fresh (n : Nat) (f : CoreSt → CoreSt) : (updCore s n f).fresh = s.fresh := rfl
@[simp] theorem updCore_nextId (n : Nat) (f : CoreSt → CoreSt) : (updCore s n f).nextId = s.nextId := rfl
@[simp] theorem updCore_mem (n : Nat) (f : CoreSt → CoreSt) : (updCore s n f).mem = s.mem := rfl
@[simp] theorem updCore_ctxs (n : Nat) (f : CoreSt → CoreSt) : (updCore s n f).ctxs = s.ctxs := rfl
@[simp] theorem updCore_ctl (n : Nat) (f : CoreSt → CoreSt) : (updCore s n f).ctl = s.ctl := rfl
@[simp] theorem updCore_pkg (n : Nat) (f : CoreSt → CoreSt) : (updCore s n f).pkg = s.pkg := rfl
@[simp] theorem updCore_at (n : Nat) (f : CoreSt → CoreSt) : (updCore s n f).at_ = s.at_ := rfl
@[simp] theorem updCore_subj (n : Nat) (f : CoreSt → CoreSt) : (updCore s n f).subj = s.subj := rfl
@[simp] theorem updCore_iss (n : Nat) (f : CoreSt → CoreSt) : (updCore s n f).iss = s.iss := rfl
@[simp] theorem updCore_reqs (n : Nat) (f : CoreSt → CoreSt) : (updCore s n f).reqs = s.reqs := rfl
@[simp] theorem updCore_tlb (n : Nat) (f : CoreSt → CoreSt) : (updCore s n f).tlb = s.tlb := rfl
@[simp] theorem updCore_l1 (n : Nat) (f : CoreSt → CoreSt) : (updCore s n f).l1 = s.l1 := rfl
@[simp] theorem updCore_xreqs (n : Nat) (f : CoreSt → CoreSt) : (updCore s n f).xreqs = s.xreqs := rfl
@[simp] theorem updCore_asks (n : Nat) (f : CoreSt → CoreSt) : (updCore s n f).asks = s.asks := rfl
@[simp] theorem updCore_pageIns (n : Nat) (f : CoreSt → CoreSt) : (updCore s n f).pageIns = s.pageIns := rfl
@[simp] theorem updCore_moved (n : Nat) (f : CoreSt → CoreSt) : (updCore s n f).moved = s.moved := rfl
@[simp] theorem updCore_owed (n : Nat) (f : CoreSt → CoreSt) : (updCore s n f).owed = s.owed := rfl
@[simp] theorem updCore_fenced (n : Nat) (f : CoreSt → CoreSt) : (updCore s n f).fenced = s.fenced := rfl
@[simp] theorem updCore_nrg (n : Nat) (f : CoreSt → CoreSt) : (updCore s n f).nrg = s.nrg := rfl
@[simp] theorem updCore_joules (n : Nat) (f : CoreSt → CoreSt) : (updCore s n f).joules = s.joules := rfl
@[simp] theorem updCore_slices (n : Nat) (f : CoreSt → CoreSt) : (updCore s n f).slices = s.slices := rfl
@[simp] theorem updCore_frames (n : Nat) (f : CoreSt → CoreSt) : (updCore s n f).frames = s.frames := rfl
@[simp] theorem updCore_resv (n : Nat) (f : CoreSt → CoreSt) : (updCore s n f).resv = s.resv := rfl
@[simp] theorem updCore_notices (n : Nat) (f : CoreSt → CoreSt) : (updCore s n f).notices = s.notices := rfl
@[simp] theorem updCore_groups (n : Nat) (f : CoreSt → CoreSt) : (updCore s n f).groups = s.groups := rfl
@[simp] theorem updCore_saved (n : Nat) (f : CoreSt → CoreSt) : (updCore s n f).saved = s.saved := rfl
@[simp] theorem updCore_graphs (n : Nat) (f : CoreSt → CoreSt) : (updCore s n f).graphs = s.graphs := rfl
@[simp] theorem updCore_conns (n : Nat) (f : CoreSt → CoreSt) : (updCore s n f).conns = s.conns := rfl
@[simp] theorem updCore_chunks (n : Nat) (f : CoreSt → CoreSt) : (updCore s n f).chunks = s.chunks := rfl
@[simp] theorem updCore_launches (n : Nat) (f : CoreSt → CoreSt) : (updCore s n f).launches = s.launches := rfl
@[simp] theorem updCore_teams (n : Nat) (f : CoreSt → CoreSt) : (updCore s n f).teams = s.teams := rfl
@[simp] theorem updCore_transit (n : Nat) (f : CoreSt → CoreSt) : (updCore s n f).transit = s.transit := rfl
@[simp] theorem updCore_quarters (n : Nat) (f : CoreSt → CoreSt) : (updCore s n f).quarters = s.quarters := rfl
@[simp] theorem updCore_boot (n : Nat) (f : CoreSt → CoreSt) : (updCore s n f).boot = s.boot := rfl
@[simp] theorem updCore_parked (n : Nat) (f : CoreSt → CoreSt) : (updCore s n f).parked = s.parked := rfl
@[simp] theorem updCore_shoots (n : Nat) (f : CoreSt → CoreSt) : (updCore s n f).shoots = s.shoots := rfl
@[simp] theorem updCore_timers (n : Nat) (f : CoreSt → CoreSt) : (updCore s n f).timers = s.timers := rfl
@[simp] theorem updCore_ready (n : Nat) (f : CoreSt → CoreSt) : (updCore s n f).ready = s.ready := rfl
@[simp] theorem updCore_schedule (n : Nat) (f : CoreSt → CoreSt) : (updCore s n f).schedule = s.schedule := rfl
@[simp] theorem updCore_turn (n : Nat) (f : CoreSt → CoreSt) : (updCore s n f).turn = s.turn := rfl

@[simp] theorem addTimer_cyc (n : Nat) (e : Event) : (addTimer s n e).cyc = s.cyc := rfl
@[simp] theorem addTimer_fresh (n : Nat) (e : Event) : (addTimer s n e).fresh = s.fresh := rfl
@[simp] theorem addTimer_nextId (n : Nat) (e : Event) : (addTimer s n e).nextId = s.nextId := rfl
@[simp] theorem addTimer_mem (n : Nat) (e : Event) : (addTimer s n e).mem = s.mem := rfl
@[simp] theorem addTimer_ctxs (n : Nat) (e : Event) : (addTimer s n e).ctxs = s.ctxs := rfl
@[simp] theorem addTimer_cores (n : Nat) (e : Event) : (addTimer s n e).cores = s.cores := rfl
@[simp] theorem addTimer_ctl (n : Nat) (e : Event) : (addTimer s n e).ctl = s.ctl := rfl
@[simp] theorem addTimer_pkg (n : Nat) (e : Event) : (addTimer s n e).pkg = s.pkg := rfl
@[simp] theorem addTimer_at (n : Nat) (e : Event) : (addTimer s n e).at_ = s.at_ := rfl
@[simp] theorem addTimer_subj (n : Nat) (e : Event) : (addTimer s n e).subj = s.subj := rfl
@[simp] theorem addTimer_iss (n : Nat) (e : Event) : (addTimer s n e).iss = s.iss := rfl
@[simp] theorem addTimer_reqs (n : Nat) (e : Event) : (addTimer s n e).reqs = s.reqs := rfl
@[simp] theorem addTimer_tlb (n : Nat) (e : Event) : (addTimer s n e).tlb = s.tlb := rfl
@[simp] theorem addTimer_l1 (n : Nat) (e : Event) : (addTimer s n e).l1 = s.l1 := rfl
@[simp] theorem addTimer_xreqs (n : Nat) (e : Event) : (addTimer s n e).xreqs = s.xreqs := rfl
@[simp] theorem addTimer_asks (n : Nat) (e : Event) : (addTimer s n e).asks = s.asks := rfl
@[simp] theorem addTimer_pageIns (n : Nat) (e : Event) : (addTimer s n e).pageIns = s.pageIns := rfl
@[simp] theorem addTimer_moved (n : Nat) (e : Event) : (addTimer s n e).moved = s.moved := rfl
@[simp] theorem addTimer_owed (n : Nat) (e : Event) : (addTimer s n e).owed = s.owed := rfl
@[simp] theorem addTimer_fenced (n : Nat) (e : Event) : (addTimer s n e).fenced = s.fenced := rfl
@[simp] theorem addTimer_nrg (n : Nat) (e : Event) : (addTimer s n e).nrg = s.nrg := rfl
@[simp] theorem addTimer_joules (n : Nat) (e : Event) : (addTimer s n e).joules = s.joules := rfl
@[simp] theorem addTimer_slices (n : Nat) (e : Event) : (addTimer s n e).slices = s.slices := rfl
@[simp] theorem addTimer_frames (n : Nat) (e : Event) : (addTimer s n e).frames = s.frames := rfl
@[simp] theorem addTimer_resv (n : Nat) (e : Event) : (addTimer s n e).resv = s.resv := rfl
@[simp] theorem addTimer_notices (n : Nat) (e : Event) : (addTimer s n e).notices = s.notices := rfl
@[simp] theorem addTimer_groups (n : Nat) (e : Event) : (addTimer s n e).groups = s.groups := rfl
@[simp] theorem addTimer_saved (n : Nat) (e : Event) : (addTimer s n e).saved = s.saved := rfl
@[simp] theorem addTimer_graphs (n : Nat) (e : Event) : (addTimer s n e).graphs = s.graphs := rfl
@[simp] theorem addTimer_conns (n : Nat) (e : Event) : (addTimer s n e).conns = s.conns := rfl
@[simp] theorem addTimer_chunks (n : Nat) (e : Event) : (addTimer s n e).chunks = s.chunks := rfl
@[simp] theorem addTimer_launches (n : Nat) (e : Event) : (addTimer s n e).launches = s.launches := rfl
@[simp] theorem addTimer_teams (n : Nat) (e : Event) : (addTimer s n e).teams = s.teams := rfl
@[simp] theorem addTimer_transit (n : Nat) (e : Event) : (addTimer s n e).transit = s.transit := rfl
@[simp] theorem addTimer_quarters (n : Nat) (e : Event) : (addTimer s n e).quarters = s.quarters := rfl
@[simp] theorem addTimer_boot (n : Nat) (e : Event) : (addTimer s n e).boot = s.boot := rfl
@[simp] theorem addTimer_parked (n : Nat) (e : Event) : (addTimer s n e).parked = s.parked := rfl
@[simp] theorem addTimer_shoots (n : Nat) (e : Event) : (addTimer s n e).shoots = s.shoots := rfl
@[simp] theorem addTimer_ready (n : Nat) (e : Event) : (addTimer s n e).ready = s.ready := rfl
@[simp] theorem addTimer_schedule (n : Nat) (e : Event) : (addTimer s n e).schedule = s.schedule := rfl
@[simp] theorem addTimer_turn (n : Nat) (e : Event) : (addTimer s n e).turn = s.turn := rfl

@[simp] theorem addReady_cyc (e : Event) : (addReady s e).cyc = s.cyc := rfl
@[simp] theorem addReady_fresh (e : Event) : (addReady s e).fresh = s.fresh := rfl
@[simp] theorem addReady_nextId (e : Event) : (addReady s e).nextId = s.nextId := rfl
@[simp] theorem addReady_mem (e : Event) : (addReady s e).mem = s.mem := rfl
@[simp] theorem addReady_ctxs (e : Event) : (addReady s e).ctxs = s.ctxs := rfl
@[simp] theorem addReady_cores (e : Event) : (addReady s e).cores = s.cores := rfl
@[simp] theorem addReady_ctl (e : Event) : (addReady s e).ctl = s.ctl := rfl
@[simp] theorem addReady_pkg (e : Event) : (addReady s e).pkg = s.pkg := rfl
@[simp] theorem addReady_at (e : Event) : (addReady s e).at_ = s.at_ := rfl
@[simp] theorem addReady_subj (e : Event) : (addReady s e).subj = s.subj := rfl
@[simp] theorem addReady_iss (e : Event) : (addReady s e).iss = s.iss := rfl
@[simp] theorem addReady_reqs (e : Event) : (addReady s e).reqs = s.reqs := rfl
@[simp] theorem addReady_tlb (e : Event) : (addReady s e).tlb = s.tlb := rfl
@[simp] theorem addReady_l1 (e : Event) : (addReady s e).l1 = s.l1 := rfl
@[simp] theorem addReady_xreqs (e : Event) : (addReady s e).xreqs = s.xreqs := rfl
@[simp] theorem addReady_asks (e : Event) : (addReady s e).asks = s.asks := rfl
@[simp] theorem addReady_pageIns (e : Event) : (addReady s e).pageIns = s.pageIns := rfl
@[simp] theorem addReady_moved (e : Event) : (addReady s e).moved = s.moved := rfl
@[simp] theorem addReady_owed (e : Event) : (addReady s e).owed = s.owed := rfl
@[simp] theorem addReady_fenced (e : Event) : (addReady s e).fenced = s.fenced := rfl
@[simp] theorem addReady_nrg (e : Event) : (addReady s e).nrg = s.nrg := rfl
@[simp] theorem addReady_joules (e : Event) : (addReady s e).joules = s.joules := rfl
@[simp] theorem addReady_slices (e : Event) : (addReady s e).slices = s.slices := rfl
@[simp] theorem addReady_frames (e : Event) : (addReady s e).frames = s.frames := rfl
@[simp] theorem addReady_resv (e : Event) : (addReady s e).resv = s.resv := rfl
@[simp] theorem addReady_notices (e : Event) : (addReady s e).notices = s.notices := rfl
@[simp] theorem addReady_groups (e : Event) : (addReady s e).groups = s.groups := rfl
@[simp] theorem addReady_saved (e : Event) : (addReady s e).saved = s.saved := rfl
@[simp] theorem addReady_graphs (e : Event) : (addReady s e).graphs = s.graphs := rfl
@[simp] theorem addReady_conns (e : Event) : (addReady s e).conns = s.conns := rfl
@[simp] theorem addReady_chunks (e : Event) : (addReady s e).chunks = s.chunks := rfl
@[simp] theorem addReady_launches (e : Event) : (addReady s e).launches = s.launches := rfl
@[simp] theorem addReady_teams (e : Event) : (addReady s e).teams = s.teams := rfl
@[simp] theorem addReady_transit (e : Event) : (addReady s e).transit = s.transit := rfl
@[simp] theorem addReady_quarters (e : Event) : (addReady s e).quarters = s.quarters := rfl
@[simp] theorem addReady_boot (e : Event) : (addReady s e).boot = s.boot := rfl
@[simp] theorem addReady_parked (e : Event) : (addReady s e).parked = s.parked := rfl
@[simp] theorem addReady_shoots (e : Event) : (addReady s e).shoots = s.shoots := rfl
@[simp] theorem addReady_timers (e : Event) : (addReady s e).timers = s.timers := rfl
@[simp] theorem addReady_schedule (e : Event) : (addReady s e).schedule = s.schedule := rfl
@[simp] theorem addReady_turn (e : Event) : (addReady s e).turn = s.turn := rfl

@[simp] theorem mput_cyc (a : Nat) (b : Byte) : (mput s a b).cyc = s.cyc := rfl
@[simp] theorem mput_fresh (a : Nat) (b : Byte) : (mput s a b).fresh = s.fresh := rfl
@[simp] theorem mput_nextId (a : Nat) (b : Byte) : (mput s a b).nextId = s.nextId := rfl
@[simp] theorem mput_ctxs (a : Nat) (b : Byte) : (mput s a b).ctxs = s.ctxs := rfl
@[simp] theorem mput_cores (a : Nat) (b : Byte) : (mput s a b).cores = s.cores := rfl
@[simp] theorem mput_ctl (a : Nat) (b : Byte) : (mput s a b).ctl = s.ctl := rfl
@[simp] theorem mput_pkg (a : Nat) (b : Byte) : (mput s a b).pkg = s.pkg := rfl
@[simp] theorem mput_at (a : Nat) (b : Byte) : (mput s a b).at_ = s.at_ := rfl
@[simp] theorem mput_subj (a : Nat) (b : Byte) : (mput s a b).subj = s.subj := rfl
@[simp] theorem mput_iss (a : Nat) (b : Byte) : (mput s a b).iss = s.iss := rfl
@[simp] theorem mput_reqs (a : Nat) (b : Byte) : (mput s a b).reqs = s.reqs := rfl
@[simp] theorem mput_tlb (a : Nat) (b : Byte) : (mput s a b).tlb = s.tlb := rfl
@[simp] theorem mput_l1 (a : Nat) (b : Byte) : (mput s a b).l1 = s.l1 := rfl
@[simp] theorem mput_xreqs (a : Nat) (b : Byte) : (mput s a b).xreqs = s.xreqs := rfl
@[simp] theorem mput_asks (a : Nat) (b : Byte) : (mput s a b).asks = s.asks := rfl
@[simp] theorem mput_pageIns (a : Nat) (b : Byte) : (mput s a b).pageIns = s.pageIns := rfl
@[simp] theorem mput_moved (a : Nat) (b : Byte) : (mput s a b).moved = s.moved := rfl
@[simp] theorem mput_owed (a : Nat) (b : Byte) : (mput s a b).owed = s.owed := rfl
@[simp] theorem mput_fenced (a : Nat) (b : Byte) : (mput s a b).fenced = s.fenced := rfl
@[simp] theorem mput_nrg (a : Nat) (b : Byte) : (mput s a b).nrg = s.nrg := rfl
@[simp] theorem mput_joules (a : Nat) (b : Byte) : (mput s a b).joules = s.joules := rfl
@[simp] theorem mput_slices (a : Nat) (b : Byte) : (mput s a b).slices = s.slices := rfl
@[simp] theorem mput_frames (a : Nat) (b : Byte) : (mput s a b).frames = s.frames := rfl
@[simp] theorem mput_notices (a : Nat) (b : Byte) : (mput s a b).notices = s.notices := rfl
@[simp] theorem mput_groups (a : Nat) (b : Byte) : (mput s a b).groups = s.groups := rfl
@[simp] theorem mput_saved (a : Nat) (b : Byte) : (mput s a b).saved = s.saved := rfl
@[simp] theorem mput_graphs (a : Nat) (b : Byte) : (mput s a b).graphs = s.graphs := rfl
@[simp] theorem mput_conns (a : Nat) (b : Byte) : (mput s a b).conns = s.conns := rfl
@[simp] theorem mput_chunks (a : Nat) (b : Byte) : (mput s a b).chunks = s.chunks := rfl
@[simp] theorem mput_launches (a : Nat) (b : Byte) : (mput s a b).launches = s.launches := rfl
@[simp] theorem mput_teams (a : Nat) (b : Byte) : (mput s a b).teams = s.teams := rfl
@[simp] theorem mput_transit (a : Nat) (b : Byte) : (mput s a b).transit = s.transit := rfl
@[simp] theorem mput_quarters (a : Nat) (b : Byte) : (mput s a b).quarters = s.quarters := rfl
@[simp] theorem mput_boot (a : Nat) (b : Byte) : (mput s a b).boot = s.boot := rfl
@[simp] theorem mput_parked (a : Nat) (b : Byte) : (mput s a b).parked = s.parked := rfl
@[simp] theorem mput_shoots (a : Nat) (b : Byte) : (mput s a b).shoots = s.shoots := rfl
@[simp] theorem mput_timers (a : Nat) (b : Byte) : (mput s a b).timers = s.timers := rfl
@[simp] theorem mput_ready (a : Nat) (b : Byte) : (mput s a b).ready = s.ready := rfl
@[simp] theorem mput_schedule (a : Nat) (b : Byte) : (mput s a b).schedule = s.schedule := rfl
@[simp] theorem mput_turn (a : Nat) (b : Byte) : (mput s a b).turn = s.turn := rfl

@[simp] theorem setCreg_cyc (q : Nat) (b : CtlBlock) (o v : Nat) : (setCreg s q b o v).cyc = s.cyc := rfl
@[simp] theorem setCreg_fresh (q : Nat) (b : CtlBlock) (o v : Nat) : (setCreg s q b o v).fresh = s.fresh := rfl
@[simp] theorem setCreg_nextId (q : Nat) (b : CtlBlock) (o v : Nat) : (setCreg s q b o v).nextId = s.nextId := rfl
@[simp] theorem setCreg_mem (q : Nat) (b : CtlBlock) (o v : Nat) : (setCreg s q b o v).mem = s.mem := rfl
@[simp] theorem setCreg_ctxs (q : Nat) (b : CtlBlock) (o v : Nat) : (setCreg s q b o v).ctxs = s.ctxs := rfl
@[simp] theorem setCreg_cores (q : Nat) (b : CtlBlock) (o v : Nat) : (setCreg s q b o v).cores = s.cores := rfl
@[simp] theorem setCreg_pkg (q : Nat) (b : CtlBlock) (o v : Nat) : (setCreg s q b o v).pkg = s.pkg := rfl
@[simp] theorem setCreg_at (q : Nat) (b : CtlBlock) (o v : Nat) : (setCreg s q b o v).at_ = s.at_ := rfl
@[simp] theorem setCreg_subj (q : Nat) (b : CtlBlock) (o v : Nat) : (setCreg s q b o v).subj = s.subj := rfl
@[simp] theorem setCreg_iss (q : Nat) (b : CtlBlock) (o v : Nat) : (setCreg s q b o v).iss = s.iss := rfl
@[simp] theorem setCreg_reqs (q : Nat) (b : CtlBlock) (o v : Nat) : (setCreg s q b o v).reqs = s.reqs := rfl
@[simp] theorem setCreg_tlb (q : Nat) (b : CtlBlock) (o v : Nat) : (setCreg s q b o v).tlb = s.tlb := rfl
@[simp] theorem setCreg_l1 (q : Nat) (b : CtlBlock) (o v : Nat) : (setCreg s q b o v).l1 = s.l1 := rfl
@[simp] theorem setCreg_xreqs (q : Nat) (b : CtlBlock) (o v : Nat) : (setCreg s q b o v).xreqs = s.xreqs := rfl
@[simp] theorem setCreg_asks (q : Nat) (b : CtlBlock) (o v : Nat) : (setCreg s q b o v).asks = s.asks := rfl
@[simp] theorem setCreg_pageIns (q : Nat) (b : CtlBlock) (o v : Nat) : (setCreg s q b o v).pageIns = s.pageIns := rfl
@[simp] theorem setCreg_moved (q : Nat) (b : CtlBlock) (o v : Nat) : (setCreg s q b o v).moved = s.moved := rfl
@[simp] theorem setCreg_owed (q : Nat) (b : CtlBlock) (o v : Nat) : (setCreg s q b o v).owed = s.owed := rfl
@[simp] theorem setCreg_fenced (q : Nat) (b : CtlBlock) (o v : Nat) : (setCreg s q b o v).fenced = s.fenced := rfl
@[simp] theorem setCreg_nrg (q : Nat) (b : CtlBlock) (o v : Nat) : (setCreg s q b o v).nrg = s.nrg := rfl
@[simp] theorem setCreg_joules (q : Nat) (b : CtlBlock) (o v : Nat) : (setCreg s q b o v).joules = s.joules := rfl
@[simp] theorem setCreg_slices (q : Nat) (b : CtlBlock) (o v : Nat) : (setCreg s q b o v).slices = s.slices := rfl
@[simp] theorem setCreg_frames (q : Nat) (b : CtlBlock) (o v : Nat) : (setCreg s q b o v).frames = s.frames := rfl
@[simp] theorem setCreg_resv (q : Nat) (b : CtlBlock) (o v : Nat) : (setCreg s q b o v).resv = s.resv := rfl
@[simp] theorem setCreg_notices (q : Nat) (b : CtlBlock) (o v : Nat) : (setCreg s q b o v).notices = s.notices := rfl
@[simp] theorem setCreg_groups (q : Nat) (b : CtlBlock) (o v : Nat) : (setCreg s q b o v).groups = s.groups := rfl
@[simp] theorem setCreg_saved (q : Nat) (b : CtlBlock) (o v : Nat) : (setCreg s q b o v).saved = s.saved := rfl
@[simp] theorem setCreg_graphs (q : Nat) (b : CtlBlock) (o v : Nat) : (setCreg s q b o v).graphs = s.graphs := rfl
@[simp] theorem setCreg_conns (q : Nat) (b : CtlBlock) (o v : Nat) : (setCreg s q b o v).conns = s.conns := rfl
@[simp] theorem setCreg_chunks (q : Nat) (b : CtlBlock) (o v : Nat) : (setCreg s q b o v).chunks = s.chunks := rfl
@[simp] theorem setCreg_launches (q : Nat) (b : CtlBlock) (o v : Nat) : (setCreg s q b o v).launches = s.launches := rfl
@[simp] theorem setCreg_teams (q : Nat) (b : CtlBlock) (o v : Nat) : (setCreg s q b o v).teams = s.teams := rfl
@[simp] theorem setCreg_transit (q : Nat) (b : CtlBlock) (o v : Nat) : (setCreg s q b o v).transit = s.transit := rfl
@[simp] theorem setCreg_quarters (q : Nat) (b : CtlBlock) (o v : Nat) : (setCreg s q b o v).quarters = s.quarters := rfl
@[simp] theorem setCreg_boot (q : Nat) (b : CtlBlock) (o v : Nat) : (setCreg s q b o v).boot = s.boot := rfl
@[simp] theorem setCreg_parked (q : Nat) (b : CtlBlock) (o v : Nat) : (setCreg s q b o v).parked = s.parked := rfl
@[simp] theorem setCreg_shoots (q : Nat) (b : CtlBlock) (o v : Nat) : (setCreg s q b o v).shoots = s.shoots := rfl
@[simp] theorem setCreg_timers (q : Nat) (b : CtlBlock) (o v : Nat) : (setCreg s q b o v).timers = s.timers := rfl
@[simp] theorem setCreg_ready (q : Nat) (b : CtlBlock) (o v : Nat) : (setCreg s q b o v).ready = s.ready := rfl
@[simp] theorem setCreg_schedule (q : Nat) (b : CtlBlock) (o v : Nat) : (setCreg s q b o v).schedule = s.schedule := rfl
@[simp] theorem setCreg_turn (q : Nat) (b : CtlBlock) (o v : Nat) : (setCreg s q b o v).turn = s.turn := rfl

end Sys2Proof.Machine
end

