-- ==== Sys2Proof/Laws/Mem.lean ====
section
/-!
SUPPORT. The laws of memory: a read after a write, what a write leaves alone, and that every memory operation keeps the canonical
form.
-/

namespace Sys2Proof.Machine

variable (s : State)

/-- A byte written is read back, and every other byte is left alone. -/
theorem mget_mput (a x : Nat) (b : Byte) (h : Memory.wf s.mem = true) :
    mget (mput s a b) x = if x = a then b else mget s x := sget_sput a x b h

/-- A byte write keeps memory canonical. -/
theorem mput_wf (a : Nat) (b : Byte) (h : Memory.wf s.mem = true) : Memory.wf (mput s a b).mem = true := swf_sput h

/-- Writing bytes keeps memory canonical. -/
theorem mputs_wf (a : Nat) (bs : List Byte) (h : Memory.wf s.mem = true) : Memory.wf (mputs s a bs).mem = true := by
  induction bs generalizing s a with
  | nil => exact h
  | cons b bs ih => exact ih _ _ (mput_wf s a b h)

/-- Leaving bytes out keeps memory canonical. -/
theorem filter_wf (m : List Host.Cell) (p : Host.Cell → Bool) (h : Memory.wf m = true) :
    Memory.wf (m.filter p) = true := swfFrom_filter p h

/-- Writing bytes changes memory and the reservations of handler cores, and nothing else. -/
theorem mputs_eq (a : Nat) (bs : List Byte) :
    mputs s a bs = { s with mem := (mputs s a bs).mem, resv := (mputs s a bs).resv } := by
  induction bs generalizing s a with
  | nil => rfl
  | cons b bs ih =>
    rw [mputs, ih]
    rfl

@[simp] theorem mputs_cyc (a : Nat) (bs : List Byte) : (mputs s a bs).cyc = s.cyc := by rw [mputs_eq]
@[simp] theorem mputs_fresh (a : Nat) (bs : List Byte) : (mputs s a bs).fresh = s.fresh := by rw [mputs_eq]
@[simp] theorem mputs_nextId (a : Nat) (bs : List Byte) : (mputs s a bs).nextId = s.nextId := by rw [mputs_eq]
@[simp] theorem mputs_ctxs (a : Nat) (bs : List Byte) : (mputs s a bs).ctxs = s.ctxs := by rw [mputs_eq]
@[simp] theorem mputs_cores (a : Nat) (bs : List Byte) : (mputs s a bs).cores = s.cores := by rw [mputs_eq]
@[simp] theorem mputs_ctl (a : Nat) (bs : List Byte) : (mputs s a bs).ctl = s.ctl := by rw [mputs_eq]
@[simp] theorem mputs_pkg (a : Nat) (bs : List Byte) : (mputs s a bs).pkg = s.pkg := by rw [mputs_eq]
@[simp] theorem mputs_at (a : Nat) (bs : List Byte) : (mputs s a bs).at_ = s.at_ := by rw [mputs_eq]
@[simp] theorem mputs_subj (a : Nat) (bs : List Byte) : (mputs s a bs).subj = s.subj := by rw [mputs_eq]
@[simp] theorem mputs_iss (a : Nat) (bs : List Byte) : (mputs s a bs).iss = s.iss := by rw [mputs_eq]
@[simp] theorem mputs_reqs (a : Nat) (bs : List Byte) : (mputs s a bs).reqs = s.reqs := by rw [mputs_eq]
@[simp] theorem mputs_tlb (a : Nat) (bs : List Byte) : (mputs s a bs).tlb = s.tlb := by rw [mputs_eq]
@[simp] theorem mputs_l1 (a : Nat) (bs : List Byte) : (mputs s a bs).l1 = s.l1 := by rw [mputs_eq]
@[simp] theorem mputs_xreqs (a : Nat) (bs : List Byte) : (mputs s a bs).xreqs = s.xreqs := by rw [mputs_eq]
@[simp] theorem mputs_asks (a : Nat) (bs : List Byte) : (mputs s a bs).asks = s.asks := by rw [mputs_eq]
@[simp] theorem mputs_pageIns (a : Nat) (bs : List Byte) : (mputs s a bs).pageIns = s.pageIns := by rw [mputs_eq]
@[simp] theorem mputs_moved (a : Nat) (bs : List Byte) : (mputs s a bs).moved = s.moved := by rw [mputs_eq]
@[simp] theorem mputs_owed (a : Nat) (bs : List Byte) : (mputs s a bs).owed = s.owed := by rw [mputs_eq]
@[simp] theorem mputs_fenced (a : Nat) (bs : List Byte) : (mputs s a bs).fenced = s.fenced := by rw [mputs_eq]
@[simp] theorem mputs_nrg (a : Nat) (bs : List Byte) : (mputs s a bs).nrg = s.nrg := by rw [mputs_eq]
@[simp] theorem mputs_joules (a : Nat) (bs : List Byte) : (mputs s a bs).joules = s.joules := by rw [mputs_eq]
@[simp] theorem mputs_slices (a : Nat) (bs : List Byte) : (mputs s a bs).slices = s.slices := by rw [mputs_eq]
@[simp] theorem mputs_frames (a : Nat) (bs : List Byte) : (mputs s a bs).frames = s.frames := by rw [mputs_eq]
@[simp] theorem mputs_notices (a : Nat) (bs : List Byte) : (mputs s a bs).notices = s.notices := by rw [mputs_eq]
@[simp] theorem mputs_groups (a : Nat) (bs : List Byte) : (mputs s a bs).groups = s.groups := by rw [mputs_eq]
@[simp] theorem mputs_saved (a : Nat) (bs : List Byte) : (mputs s a bs).saved = s.saved := by rw [mputs_eq]
@[simp] theorem mputs_graphs (a : Nat) (bs : List Byte) : (mputs s a bs).graphs = s.graphs := by rw [mputs_eq]
@[simp] theorem mputs_conns (a : Nat) (bs : List Byte) : (mputs s a bs).conns = s.conns := by rw [mputs_eq]
@[simp] theorem mputs_chunks (a : Nat) (bs : List Byte) : (mputs s a bs).chunks = s.chunks := by rw [mputs_eq]
@[simp] theorem mputs_launches (a : Nat) (bs : List Byte) : (mputs s a bs).launches = s.launches := by rw [mputs_eq]
@[simp] theorem mputs_teams (a : Nat) (bs : List Byte) : (mputs s a bs).teams = s.teams := by rw [mputs_eq]
@[simp] theorem mputs_transit (a : Nat) (bs : List Byte) : (mputs s a bs).transit = s.transit := by rw [mputs_eq]
@[simp] theorem mputs_quarters (a : Nat) (bs : List Byte) : (mputs s a bs).quarters = s.quarters := by rw [mputs_eq]
@[simp] theorem mputs_boot (a : Nat) (bs : List Byte) : (mputs s a bs).boot = s.boot := by rw [mputs_eq]
@[simp] theorem mputs_parked (a : Nat) (bs : List Byte) : (mputs s a bs).parked = s.parked := by rw [mputs_eq]
@[simp] theorem mputs_shoots (a : Nat) (bs : List Byte) : (mputs s a bs).shoots = s.shoots := by rw [mputs_eq]
@[simp] theorem mputs_timers (a : Nat) (bs : List Byte) : (mputs s a bs).timers = s.timers := by rw [mputs_eq]
@[simp] theorem mputs_ready (a : Nat) (bs : List Byte) : (mputs s a bs).ready = s.ready := by rw [mputs_eq]
@[simp] theorem mputs_schedule (a : Nat) (bs : List Byte) : (mputs s a bs).schedule = s.schedule := by rw [mputs_eq]
@[simp] theorem mputs_turn (a : Nat) (bs : List Byte) : (mputs s a bs).turn = s.turn := by rw [mputs_eq]

/-- A read after bytes are written. -/
theorem mget_mputs (a x : Nat) (bs : List Byte) (h : Memory.wf s.mem = true) :
    mget (mputs s a bs) x = if a ≤ x ∧ x < a + bs.length then bs.getD (x - a) 0 else mget s x := by
  induction bs generalizing s a with
  | nil =>
    simp only [mputs, List.length_nil, Nat.add_zero]
    rw [if_neg (by omega)]
  | cons b bs ih =>
    rw [mputs, ih _ _ (mput_wf s a b h), mget_mput s a x b h, List.length_cons]
    by_cases hx : x = a
    · subst hx
      rw [if_neg (by omega), if_pos rfl, if_pos (by omega), Nat.sub_self]
      rfl
    · by_cases h2 : a ≤ x ∧ x < a + (bs.length + 1)
      · rw [if_pos (by omega), if_pos h2]
        obtain ⟨n, hn⟩ : ∃ n, x - a = n + 1 := ⟨x - a - 1, by omega⟩
        rw [hn, show x - (a + 1) = n by omega]
        rfl
      · rw [if_neg (by omega), if_neg h2, if_neg hx]

/-- A byte outside those written is left alone. -/
theorem mget_mputs_outside (a x : Nat) (bs : List Byte) (h : Memory.wf s.mem = true)
    (hx : x < a ∨ a + bs.length ≤ x) : mget (mputs s a bs) x = mget s x := by
  rw [mget_mputs s a x bs h, if_neg (by omega)]

/-- A little-endian number written in physical memory keeps memory canonical. -/
theorem paPut_wf (pa n x : Nat) (h : Memory.wf s.mem = true) : Memory.wf (paPut s pa n x).mem = true :=
  mputs_wf s _ _ h

@[simp] theorem length_toBytes (n x : Nat) : (toBytes n x).length = n := by
  induction n generalizing x with
  | zero => rfl
  | succ n ih => simp [toBytes, ih]

/-- R4: a number is read back from its little-endian bytes. -/
theorem ofBytes_toBytes (n x : Nat) : ofBytes (toBytes n x) = x % 2 ^ (8 * n) := by
  induction n generalizing x with
  | zero => simp [toBytes, ofBytes, Nat.mod_one]
  | succ n ih =>
    rw [toBytes, ofBytes, ih, BitVec.toNat_ofNat, show 8 * (n + 1) = 8 + 8 * n by omega, Nat.pow_add]
    exact (Nat.mod_mul).symm

end Sys2Proof.Machine
end

