-- ==== Sys2Proof/Laws/Ops.lean ====
section
/-!
SUPPORT. What the shared operations can do, said once: finding a page and appending to a ring, queueing a result, a store to the gate, and
taking a trap. Each lemma says which fields the operation leaves alone, and that it keeps memory canonical.
-/

namespace Sys2Proof.Machine

variable (s : State)

/-! ### Finding a page -/

/-- From s to t only what finding a page, serving it and writing its tables touches may have changed: memory and the reservations on it,
control registers, translation caches, requests to system software, pages to wait for, and the counters of the model. -/
structure Paging (s t : State) : Prop where
  cyc : t.cyc = s.cyc
  ctxs : t.ctxs = s.ctxs
  cores : t.cores = s.cores
  pkg : t.pkg = s.pkg
  at_ : t.at_ = s.at_
  subj : t.subj = s.subj
  iss : t.iss = s.iss
  reqs : t.reqs = s.reqs
  l1 : t.l1 = s.l1
  pageIns : t.pageIns = s.pageIns
  moved : t.moved = s.moved
  owed : t.owed = s.owed
  fenced : t.fenced = s.fenced
  nrg : t.nrg = s.nrg
  joules : t.joules = s.joules
  slices : t.slices = s.slices
  frames : t.frames = s.frames
  notices : t.notices = s.notices
  groups : t.groups = s.groups
  saved : t.saved = s.saved
  graphs : t.graphs = s.graphs
  conns : t.conns = s.conns
  chunks : t.chunks = s.chunks
  launches : t.launches = s.launches
  teams : t.teams = s.teams
  transit : t.transit = s.transit
  quarters : t.quarters = s.quarters
  boot : t.boot = s.boot
  parked : t.parked = s.parked
  shoots : t.shoots = s.shoots
  timers : t.timers = s.timers
  ready : t.ready = s.ready
  schedule : t.schedule = s.schedule
  turn : t.turn = s.turn
  wf : Memory.wf s.mem = true → Memory.wf t.mem = true

theorem Paging.refl (s : State) : Paging s s := by constructor <;> first | rfl | exact id

theorem Paging.trans {s t u : State} (h : Paging s t) (g : Paging t u) : Paging s u :=
  { cyc := g.cyc.trans h.cyc, ctxs := g.ctxs.trans h.ctxs, cores := g.cores.trans h.cores, pkg := g.pkg.trans h.pkg, at_ := g.at_.trans h.at_, subj := g.subj.trans h.subj, iss := g.iss.trans h.iss, reqs := g.reqs.trans h.reqs, l1 := g.l1.trans h.l1, pageIns := g.pageIns.trans h.pageIns, moved := g.moved.trans h.moved, owed := g.owed.trans h.owed, fenced := g.fenced.trans h.fenced, nrg := g.nrg.trans h.nrg, joules := g.joules.trans h.joules, slices := g.slices.trans h.slices, frames := g.frames.trans h.frames, notices := g.notices.trans h.notices, groups := g.groups.trans h.groups, saved := g.saved.trans h.saved, graphs := g.graphs.trans h.graphs, conns := g.conns.trans h.conns, chunks := g.chunks.trans h.chunks, launches := g.launches.trans h.launches, teams := g.teams.trans h.teams, transit := g.transit.trans h.transit, quarters := g.quarters.trans h.quarters, boot := g.boot.trans h.boot, parked := g.parked.trans h.parked, shoots := g.shoots.trans h.shoots, timers := g.timers.trans h.timers, ready := g.ready.trans h.ready, schedule := g.schedule.trans h.schedule, turn := g.turn.trans h.turn,
    wf := fun x => g.wf (h.wf x) }

theorem paging_mput (a : Nat) (b : Byte) : Paging s (mput s a b) := by
  constructor
  case wf => exact mput_wf s a b
  all_goals simp only [mput_cyc, mput_ctxs, mput_cores, mput_pkg, mput_at, mput_subj, mput_iss, mput_reqs, mput_l1, mput_pageIns, mput_moved, mput_owed, mput_fenced, mput_nrg, mput_joules, mput_slices, mput_frames, mput_notices, mput_groups, mput_saved, mput_graphs, mput_conns, mput_chunks, mput_launches, mput_teams, mput_transit, mput_quarters, mput_boot, mput_parked, mput_shoots, mput_timers, mput_ready, mput_schedule, mput_turn]

theorem paging_setCreg (q : Nat) (b : CtlBlock) (o v : Nat) : Paging s (setCreg s q b o v) := by
  constructor
  case wf => rw [setCreg_mem]; exact id
  all_goals simp only [setCreg_cyc, setCreg_ctxs, setCreg_cores, setCreg_pkg, setCreg_at, setCreg_subj, setCreg_iss, setCreg_reqs, setCreg_l1, setCreg_pageIns, setCreg_moved, setCreg_owed, setCreg_fenced, setCreg_nrg, setCreg_joules, setCreg_slices, setCreg_frames, setCreg_notices, setCreg_groups, setCreg_saved, setCreg_graphs, setCreg_conns, setCreg_chunks, setCreg_launches, setCreg_teams, setCreg_transit, setCreg_quarters, setCreg_boot, setCreg_parked, setCreg_shoots, setCreg_timers, setCreg_ready, setCreg_schedule, setCreg_turn]

theorem paging_tlb (l : List TlbEntry) : Paging s { s with tlb := l } := by constructor <;> first | rfl | exact id

theorem paging_fresh (n : Nat) : Paging s { s with fresh := n } := by constructor <;> first | rfl | exact id

theorem paging_xreqs (l : List XReq) : Paging s { s with xreqs := l } := by constructor <;> first | rfl | exact id

theorem paging_asks (l : List PageAsk) : Paging s { s with asks := l } := by constructor <;> first | rfl | exact id

theorem paging_asked (n : Nat) (l : List XReq) : Paging s { s with nextId := n, xreqs := l } := by constructor <;> first | rfl | exact id

theorem paging_mputs (a : Nat) (bs : List Byte) : Paging s (mputs s a bs) := by
  induction bs generalizing s a with
  | nil => exact .refl s
  | cons b bs ih => exact (paging_mput s a b).trans (ih _ _)

theorem paging_paPut (pa n x : Nat) : Paging s (paPut s pa n x) := paging_mputs s (paAddr pa) (toBytes n x)

/-- R393: setting a bit of an entry writes that entry alone. -/
theorem paging_pteSet (entry e bit : Nat) : Paging s (pteSet s entry e bit).1 := by
  unfold pteSet; split
  · exact paging_paPut s entry 8 _
  · exact .refl s

/-- R385: a pop changes the stack's count alone. -/
theorem paging_popFrame {q g : Nat} {hbm : Bool} {t : State} (h : popFrame s q hbm = some (g, t)) : Paging s t := by
  unfold popFrame at h
  generalize (if hbm = true then (0x020, 0x030) else (0x028, 0x034) : Nat × Nat) = bo at h
  obtain ⟨b, o⟩ := bo
  dsimp only at h
  split at h
  · exact absurd h (by simp)
  · simp only [Option.some.injEq, Prod.mk.injEq] at h
    obtain ⟨-, rfl⟩ := h
    exact paging_setCreg ..

theorem paging_pushFrame (q pfn : Nat) : Paging s (pushFrame s q pfn) := by
  unfold pushFrame; split
  all_goals exact (paging_paPut s _ 8 pfn).trans (paging_setCreg ..)

theorem paging_setFrameCount (q pfn n : Nat) : Paging s (setFrameCount s q pfn n) := paging_paPut s _ 2 n

theorem paging_dropFrame (q pfn : Nat) : Paging s (dropFrame s q pfn) := by
  unfold dropFrame; dsimp only; split
  · exact (paging_setFrameCount s q pfn _).trans (paging_pushFrame _ q pfn)
  · exact paging_setFrameCount s q pfn _

theorem paging_foldl {α : Type} (at_ : α → Nat) (byte : α → Byte) (l : List α) :
    Paging s (l.foldl (fun s x => mput s (at_ x) (byte x)) s) := by
  induction l generalizing s with
  | nil => exact .refl s
  | cons x l ih => exact (paging_mput s _ _).trans (ih _)

theorem paging_zeroFrame (b : Nat) : Paging s (zeroFrame s b) := by
  unfold zeroFrame
  constructor
  case wf => exact filter_wf s.mem _
  all_goals rfl

theorem paging_copyFrame (a b : Nat) : Paging s (copyFrame s a b) :=
  (paging_zeroFrame s b).trans
    (paging_foldl (zeroFrame s b) (fun x : Host.Cell => paAddr (b * 2 ^ 16) + x.1) (fun x => x.2) (frameBytes s.mem a))

/-- R390, R391: a leaf changes in its table and in every cached copy. -/
theorem paging_leafPut (q page entry e : Nat) : Paging s (leafPut s q page entry e) := by
  unfold leafPut; dsimp only; split
  · exact paging_tlb ..
  · exact (paging_paPut s entry 8 e).trans (paging_tlb ..)

/-- R394, R395: the service of a leaf changes tables, caches, frames and their stacks alone. -/
theorem paging_serveLeaf (q page entry e : Nat) (huge write : Bool) : Paging s (serveLeaf s q page entry e huge write).1 := by
  unfold serveLeaf
  split
  · split
    · exact .refl s
    · split
      · exact .refl s
      · split
        · exact .refl s
        · dsimp only; split
          · exact .refl s
          · split
            · exact paging_leafPut ..
            · split
              · exact .refl s
              · rename_i hp
                exact (paging_popFrame s hp).trans ((paging_copyFrame _ _ _).trans ((paging_setFrameCount _ _ _ _).trans
                ((paging_leafPut ..).trans (paging_dropFrame _ q _))))
  · exact .refl s

theorem paging_serveZero (q page entry e : Nat) : Paging s (serveZero s q page entry e).1 := by
  unfold serveZero; split
  · exact .refl s
  · rename_i hp
    exact (paging_popFrame s hp).trans ((paging_zeroFrame _ _).trans ((paging_setFrameCount _ _ _ _).trans (paging_leafPut ..)))

theorem paging_leafBits (q entry e : Nat) (dirty : Bool) : Paging s (leafBits s q entry e dirty).1 := by
  unfold leafBits
  have h : Paging s (if modeBit s q 1 then (s, e) else pteSet s entry e 5).1 := by
    split
    · exact .refl s
    · exact paging_pteSet ..
  generalize (if modeBit s q 1 then (s, e) else pteSet s entry e 5) = r at h ⊢
  obtain ⟨t, x⟩ := r
  dsimp only at h ⊢
  split
  · exact h.trans (paging_pteSet ..)
  · exact h

theorem paging_leafFound (q asn ia : Nat) (write dirty : Bool) (entry : Nat) (huge : Bool) (r : State × Option Nat × PageEnd) :
    Paging r.1 (leafFound q asn ia write dirty entry huge r).1 := by
  obtain ⟨t, o, p⟩ := r
  cases o with
  | none => exact .refl t
  | some e =>
    dsimp only [leafFound]
    have h := paging_leafBits t q entry e dirty
    generalize leafBits t q entry e dirty = b at h ⊢
    repeat' split
    all_goals first
      | exact .refl t
      | exact h
      | exact h.trans (paging_tlb ..)

/-- R394 to R396: a page whose walk has ended at its home. -/
theorem paging_resolveFrom (q asn ia : Nat) (write dirty : Bool) (w : WalkEnd) : Paging s (resolveFrom s q asn ia write dirty w).1 := by
  unfold resolveFrom
  split
  · exact .refl s
  · exact .refl s
  · exact (paging_serveZero ..).trans (paging_leafFound ..)
  · exact (paging_serveLeaf ..).trans (paging_leafFound ..)

/-! ### Rings and requests to system software -/

/-- R441: bytes written to a page that has been found, or to none. -/
theorem paging_putFound (bs : List Byte) (r : State × PageEnd) : Paging r.1 (putFound bs r).1 := by
  obtain ⟨t, p⟩ := r
  cases p with
  | ok pa l => exact paging_mputs t _ bs
  | _ => exact .refl t

/-- R408: the end of a record's write. -/
theorem paging_ringEnd (q : Nat) (r : RingRegs) (p : State × Bool) : Paging p.1 (ringEnd q r p) := by
  obtain ⟨t, _ | _⟩ := p <;> exact paging_setCreg ..

theorem paging_newAsk (q ev cause acc asn ia : Nat) : Paging s (newAsk s q ev cause acc asn ia) := paging_asked ..

theorem paging_ringPage (q ia : Nat) : Paging s (ringPage s q ia).1 := by
  unfold ringPage
  dsimp only
  generalize (if unheld s q 0 ia then walk s q 0 ia else pageWalk s q 0 ia) = w
  split
  · exact .refl s
  · exact paging_resolveFrom ..

theorem paging_postHeld (q : Nat) : Paging s (postHeld s q) := by
  unfold postHeld
  generalize s.xreqs.find? (fun x => x.quarter == q && !x.posted) = o
  cases o with
  | none => exact .refl s
  | some x =>
    dsimp only; split
    · have h := paging_ringPage (s := s) (leadOf s q) (ringNext s q xlateRing 32)
      generalize ringPage s (leadOf s q) (ringNext s q xlateRing 32) = r at h ⊢
      obtain ⟨t, p⟩ := r
      cases p with
      | wait => exact .refl s
      | _ =>
        refine (h.trans ?_).trans (paging_xreqs ..)
        exact (paging_putFound (xreqRecord x) _).trans (paging_ringEnd q xlateRing _)
    · exact .refl s

/-- R398: system software is asked for a page. -/
theorem paging_askSoftware (q ev cause acc asn ia : Nat) : Paging s (askSoftware s q ev cause acc asn ia).1 := by
  unfold askSoftware
  generalize s.xreqs.find? (fun x => x.quarter == q && x.page == ia / 2 ^ 16) = o
  cases o with
  | some x =>
    dsimp only
    split
    · exact .refl s
    · exact (paging_xreqs s _).trans (paging_postHeld _ q)
  | none =>
    dsimp only
    have h := paging_newAsk s q ev cause acc asn ia
    generalize newAsk s q ev cause acc asn ia = t at h ⊢
    generalize (creg t q .xlate 0x07C + 1) % 2 ^ 32 = v
    split
    · exact h.trans (paging_postHeld _ q)
    · exact h.trans (paging_setCreg ..)

theorem paging_serveOr (q asn ia acc : Nat) (write dirty : Bool) (w : WalkEnd) : Paging s (serveOr s q asn ia acc write dirty w).1 := by
  unfold serveOr
  repeat' split
  all_goals first
    | exact .refl s
    | exact paging_askSoftware ..
    | exact paging_resolveFrom ..

theorem paging_walkPage (q asn ia acc : Nat) (write dirty : Bool) : Paging s (walkPage s q asn ia acc write dirty).1 := by
  unfold walkPage; split
  · exact paging_askSoftware ..
  · exact paging_serveOr ..

theorem paging_throughLeaf (q asn ia acc : Nat) (write dirty : Bool) (t : TlbEntry) :
    Paging s (throughLeaf s q asn ia acc write dirty t).1 := by
  unfold throughLeaf
  repeat' split
  all_goals first
    | exact .refl s
    | exact paging_askSoftware ..
    | exact paging_serveOr ..
    | exact paging_walkPage ..

/-- R391, R394, R398: the page of an access. -/
theorem paging_resolveAcc (q asn ia acc : Nat) (write dirty : Bool) : Paging s (resolveAcc s q asn ia acc write dirty).1 := by
  unfold resolveAcc
  dsimp only
  have f := paging_fresh s (s.fresh + 1)
  repeat' split
  all_goals first
    | exact f
    | exact f.trans (paging_throughLeaf ..)
    | exact f.trans (paging_walkPage ..)

theorem paging_resolveAs (q asn ia : Nat) (write dirty : Bool) : Paging s (resolveAs s q asn ia write dirty).1 :=
  paging_resolveAcc s q asn ia write.toNat write dirty

theorem paging_resolvePage (q asn ia : Nat) (write : Bool) : Paging s (resolvePage s q asn ia write).1 :=
  paging_resolveAs s q asn ia write write

/-- R398, R441: a page that a step needs, or must wait for. -/
theorem paging_needPage (q asn ia : Nat) (write : Bool) : Paging s (needPage s q asn ia write).1 := by
  unfold needPage
  have h := paging_resolvePage s q asn ia write
  generalize resolvePage s q asn ia write = r at h ⊢
  obtain ⟨t, p⟩ := r
  cases p with
  | wait => exact paging_asks ..
  | _ => exact h

/-- R441: a page of the system address space. -/
theorem paging_sysResolve (q ia : Nat) (write : Bool) : Paging s (sysResolve s q ia write).1 := paging_needPage ..

/-- R441: bytes written through the system address space. -/
theorem paging_sysWrite (q ia : Nat) (bs : List Byte) : Paging s (sysWrite s q ia bs).1 :=
  (paging_sysResolve s q ia true).trans (paging_putFound bs _)

/-- R408, R429: a record appended to a ring, or dropped and counted. -/
theorem paging_ringAppend (q : Nat) (r : RingRegs) (rec : List Byte) : Paging s (ringAppend s q r rec) := by
  unfold ringAppend
  refine Paging.trans ?_ (paging_ringEnd q r _)
  split
  · exact paging_sysWrite ..
  · exact .refl s


@[simp] theorem resolvePage_cyc (q asn ia : Nat) (w : Bool) : (resolvePage s q asn ia w).1.cyc = s.cyc := (paging_resolvePage s q asn ia w).cyc
@[simp] theorem resolvePage_ctxs (q asn ia : Nat) (w : Bool) : (resolvePage s q asn ia w).1.ctxs = s.ctxs := (paging_resolvePage s q asn ia w).ctxs
@[simp] theorem resolvePage_cores (q asn ia : Nat) (w : Bool) : (resolvePage s q asn ia w).1.cores = s.cores := (paging_resolvePage s q asn ia w).cores
@[simp] theorem resolvePage_pkg (q asn ia : Nat) (w : Bool) : (resolvePage s q asn ia w).1.pkg = s.pkg := (paging_resolvePage s q asn ia w).pkg
@[simp] theorem resolvePage_at (q asn ia : Nat) (w : Bool) : (resolvePage s q asn ia w).1.at_ = s.at_ := (paging_resolvePage s q asn ia w).at_
@[simp] theorem resolvePage_subj (q asn ia : Nat) (w : Bool) : (resolvePage s q asn ia w).1.subj = s.subj := (paging_resolvePage s q asn ia w).subj
@[simp] theorem resolvePage_iss (q asn ia : Nat) (w : Bool) : (resolvePage s q asn ia w).1.iss = s.iss := (paging_resolvePage s q asn ia w).iss
@[simp] theorem resolvePage_reqs (q asn ia : Nat) (w : Bool) : (resolvePage s q asn ia w).1.reqs = s.reqs := (paging_resolvePage s q asn ia w).reqs
@[simp] theorem resolvePage_l1 (q asn ia : Nat) (w : Bool) : (resolvePage s q asn ia w).1.l1 = s.l1 := (paging_resolvePage s q asn ia w).l1
@[simp] theorem resolvePage_pageIns (q asn ia : Nat) (w : Bool) : (resolvePage s q asn ia w).1.pageIns = s.pageIns := (paging_resolvePage s q asn ia w).pageIns
@[simp] theorem resolvePage_moved (q asn ia : Nat) (w : Bool) : (resolvePage s q asn ia w).1.moved = s.moved := (paging_resolvePage s q asn ia w).moved
@[simp] theorem resolvePage_owed (q asn ia : Nat) (w : Bool) : (resolvePage s q asn ia w).1.owed = s.owed := (paging_resolvePage s q asn ia w).owed
@[simp] theorem resolvePage_fenced (q asn ia : Nat) (w : Bool) : (resolvePage s q asn ia w).1.fenced = s.fenced := (paging_resolvePage s q asn ia w).fenced
@[simp] theorem resolvePage_nrg (q asn ia : Nat) (w : Bool) : (resolvePage s q asn ia w).1.nrg = s.nrg := (paging_resolvePage s q asn ia w).nrg
@[simp] theorem resolvePage_joules (q asn ia : Nat) (w : Bool) : (resolvePage s q asn ia w).1.joules = s.joules := (paging_resolvePage s q asn ia w).joules
@[simp] theorem resolvePage_slices (q asn ia : Nat) (w : Bool) : (resolvePage s q asn ia w).1.slices = s.slices := (paging_resolvePage s q asn ia w).slices
@[simp] theorem resolvePage_frames (q asn ia : Nat) (w : Bool) : (resolvePage s q asn ia w).1.frames = s.frames := (paging_resolvePage s q asn ia w).frames
@[simp] theorem resolvePage_notices (q asn ia : Nat) (w : Bool) : (resolvePage s q asn ia w).1.notices = s.notices := (paging_resolvePage s q asn ia w).notices
@[simp] theorem resolvePage_groups (q asn ia : Nat) (w : Bool) : (resolvePage s q asn ia w).1.groups = s.groups := (paging_resolvePage s q asn ia w).groups
@[simp] theorem resolvePage_saved (q asn ia : Nat) (w : Bool) : (resolvePage s q asn ia w).1.saved = s.saved := (paging_resolvePage s q asn ia w).saved
@[simp] theorem resolvePage_graphs (q asn ia : Nat) (w : Bool) : (resolvePage s q asn ia w).1.graphs = s.graphs := (paging_resolvePage s q asn ia w).graphs
@[simp] theorem resolvePage_conns (q asn ia : Nat) (w : Bool) : (resolvePage s q asn ia w).1.conns = s.conns := (paging_resolvePage s q asn ia w).conns
@[simp] theorem resolvePage_chunks (q asn ia : Nat) (w : Bool) : (resolvePage s q asn ia w).1.chunks = s.chunks := (paging_resolvePage s q asn ia w).chunks
@[simp] theorem resolvePage_launches (q asn ia : Nat) (w : Bool) : (resolvePage s q asn ia w).1.launches = s.launches := (paging_resolvePage s q asn ia w).launches
@[simp] theorem resolvePage_teams (q asn ia : Nat) (w : Bool) : (resolvePage s q asn ia w).1.teams = s.teams := (paging_resolvePage s q asn ia w).teams
@[simp] theorem resolvePage_transit (q asn ia : Nat) (w : Bool) : (resolvePage s q asn ia w).1.transit = s.transit := (paging_resolvePage s q asn ia w).transit
@[simp] theorem resolvePage_quarters (q asn ia : Nat) (w : Bool) : (resolvePage s q asn ia w).1.quarters = s.quarters := (paging_resolvePage s q asn ia w).quarters
@[simp] theorem resolvePage_boot (q asn ia : Nat) (w : Bool) : (resolvePage s q asn ia w).1.boot = s.boot := (paging_resolvePage s q asn ia w).boot
@[simp] theorem resolvePage_parked (q asn ia : Nat) (w : Bool) : (resolvePage s q asn ia w).1.parked = s.parked := (paging_resolvePage s q asn ia w).parked
@[simp] theorem resolvePage_shoots (q asn ia : Nat) (w : Bool) : (resolvePage s q asn ia w).1.shoots = s.shoots := (paging_resolvePage s q asn ia w).shoots
@[simp] theorem resolvePage_timers (q asn ia : Nat) (w : Bool) : (resolvePage s q asn ia w).1.timers = s.timers := (paging_resolvePage s q asn ia w).timers
@[simp] theorem resolvePage_ready (q asn ia : Nat) (w : Bool) : (resolvePage s q asn ia w).1.ready = s.ready := (paging_resolvePage s q asn ia w).ready
@[simp] theorem resolvePage_schedule (q asn ia : Nat) (w : Bool) : (resolvePage s q asn ia w).1.schedule = s.schedule := (paging_resolvePage s q asn ia w).schedule
@[simp] theorem resolvePage_turn (q asn ia : Nat) (w : Bool) : (resolvePage s q asn ia w).1.turn = s.turn := (paging_resolvePage s q asn ia w).turn

@[simp] theorem ringAppend_cyc (q : Nat) (r : RingRegs) (rec : List Byte) : (ringAppend s q r rec).cyc = s.cyc := (paging_ringAppend s q r rec).cyc
@[simp] theorem ringAppend_ctxs (q : Nat) (r : RingRegs) (rec : List Byte) : (ringAppend s q r rec).ctxs = s.ctxs := (paging_ringAppend s q r rec).ctxs
@[simp] theorem ringAppend_cores (q : Nat) (r : RingRegs) (rec : List Byte) : (ringAppend s q r rec).cores = s.cores := (paging_ringAppend s q r rec).cores
@[simp] theorem ringAppend_pkg (q : Nat) (r : RingRegs) (rec : List Byte) : (ringAppend s q r rec).pkg = s.pkg := (paging_ringAppend s q r rec).pkg
@[simp] theorem ringAppend_at (q : Nat) (r : RingRegs) (rec : List Byte) : (ringAppend s q r rec).at_ = s.at_ := (paging_ringAppend s q r rec).at_
@[simp] theorem ringAppend_subj (q : Nat) (r : RingRegs) (rec : List Byte) : (ringAppend s q r rec).subj = s.subj := (paging_ringAppend s q r rec).subj
@[simp] theorem ringAppend_iss (q : Nat) (r : RingRegs) (rec : List Byte) : (ringAppend s q r rec).iss = s.iss := (paging_ringAppend s q r rec).iss
@[simp] theorem ringAppend_reqs (q : Nat) (r : RingRegs) (rec : List Byte) : (ringAppend s q r rec).reqs = s.reqs := (paging_ringAppend s q r rec).reqs
@[simp] theorem ringAppend_l1 (q : Nat) (r : RingRegs) (rec : List Byte) : (ringAppend s q r rec).l1 = s.l1 := (paging_ringAppend s q r rec).l1
@[simp] theorem ringAppend_pageIns (q : Nat) (r : RingRegs) (rec : List Byte) : (ringAppend s q r rec).pageIns = s.pageIns := (paging_ringAppend s q r rec).pageIns
@[simp] theorem ringAppend_moved (q : Nat) (r : RingRegs) (rec : List Byte) : (ringAppend s q r rec).moved = s.moved := (paging_ringAppend s q r rec).moved
@[simp] theorem ringAppend_owed (q : Nat) (r : RingRegs) (rec : List Byte) : (ringAppend s q r rec).owed = s.owed := (paging_ringAppend s q r rec).owed
@[simp] theorem ringAppend_fenced (q : Nat) (r : RingRegs) (rec : List Byte) : (ringAppend s q r rec).fenced = s.fenced := (paging_ringAppend s q r rec).fenced
@[simp] theorem ringAppend_nrg (q : Nat) (r : RingRegs) (rec : List Byte) : (ringAppend s q r rec).nrg = s.nrg := (paging_ringAppend s q r rec).nrg
@[simp] theorem ringAppend_joules (q : Nat) (r : RingRegs) (rec : List Byte) : (ringAppend s q r rec).joules = s.joules := (paging_ringAppend s q r rec).joules
@[simp] theorem ringAppend_slices (q : Nat) (r : RingRegs) (rec : List Byte) : (ringAppend s q r rec).slices = s.slices := (paging_ringAppend s q r rec).slices
@[simp] theorem ringAppend_frames (q : Nat) (r : RingRegs) (rec : List Byte) : (ringAppend s q r rec).frames = s.frames := (paging_ringAppend s q r rec).frames
@[simp] theorem ringAppend_notices (q : Nat) (r : RingRegs) (rec : List Byte) : (ringAppend s q r rec).notices = s.notices := (paging_ringAppend s q r rec).notices
@[simp] theorem ringAppend_groups (q : Nat) (r : RingRegs) (rec : List Byte) : (ringAppend s q r rec).groups = s.groups := (paging_ringAppend s q r rec).groups
@[simp] theorem ringAppend_saved (q : Nat) (r : RingRegs) (rec : List Byte) : (ringAppend s q r rec).saved = s.saved := (paging_ringAppend s q r rec).saved
@[simp] theorem ringAppend_graphs (q : Nat) (r : RingRegs) (rec : List Byte) : (ringAppend s q r rec).graphs = s.graphs := (paging_ringAppend s q r rec).graphs
@[simp] theorem ringAppend_conns (q : Nat) (r : RingRegs) (rec : List Byte) : (ringAppend s q r rec).conns = s.conns := (paging_ringAppend s q r rec).conns
@[simp] theorem ringAppend_chunks (q : Nat) (r : RingRegs) (rec : List Byte) : (ringAppend s q r rec).chunks = s.chunks := (paging_ringAppend s q r rec).chunks
@[simp] theorem ringAppend_launches (q : Nat) (r : RingRegs) (rec : List Byte) : (ringAppend s q r rec).launches = s.launches := (paging_ringAppend s q r rec).launches
@[simp] theorem ringAppend_teams (q : Nat) (r : RingRegs) (rec : List Byte) : (ringAppend s q r rec).teams = s.teams := (paging_ringAppend s q r rec).teams
@[simp] theorem ringAppend_transit (q : Nat) (r : RingRegs) (rec : List Byte) : (ringAppend s q r rec).transit = s.transit := (paging_ringAppend s q r rec).transit
@[simp] theorem ringAppend_quarters (q : Nat) (r : RingRegs) (rec : List Byte) : (ringAppend s q r rec).quarters = s.quarters := (paging_ringAppend s q r rec).quarters
@[simp] theorem ringAppend_boot (q : Nat) (r : RingRegs) (rec : List Byte) : (ringAppend s q r rec).boot = s.boot := (paging_ringAppend s q r rec).boot
@[simp] theorem ringAppend_parked (q : Nat) (r : RingRegs) (rec : List Byte) : (ringAppend s q r rec).parked = s.parked := (paging_ringAppend s q r rec).parked
@[simp] theorem ringAppend_shoots (q : Nat) (r : RingRegs) (rec : List Byte) : (ringAppend s q r rec).shoots = s.shoots := (paging_ringAppend s q r rec).shoots
@[simp] theorem ringAppend_timers (q : Nat) (r : RingRegs) (rec : List Byte) : (ringAppend s q r rec).timers = s.timers := (paging_ringAppend s q r rec).timers
@[simp] theorem ringAppend_ready (q : Nat) (r : RingRegs) (rec : List Byte) : (ringAppend s q r rec).ready = s.ready := (paging_ringAppend s q r rec).ready
@[simp] theorem ringAppend_schedule (q : Nat) (r : RingRegs) (rec : List Byte) : (ringAppend s q r rec).schedule = s.schedule := (paging_ringAppend s q r rec).schedule
@[simp] theorem ringAppend_turn (q : Nat) (r : RingRegs) (rec : List Byte) : (ringAppend s q r rec).turn = s.turn := (paging_ringAppend s q r rec).turn

/-! ### Results and the gate -/

@[simp] theorem me_numbered (n : Nat) : me { s with nextId := n } = me s := rfl

@[simp] theorem ctxOf_numbered (n k : Nat) : ctxOf { s with nextId := n } k = ctxOf s k := rfl

@[simp] theorem me_addTimer (d : Nat) (e : Event) : me (addTimer s d e) = me s := rfl

@[simp] theorem ctxOf_addTimer (d : Nat) (e : Event) (k : Nat) : ctxOf (addTimer s d e) k = ctxOf s k := rfl

/-- R112, R113: the acting context after a result is queued holds the same registers; results in flight alone change. -/
theorem me_queue (dsts : List Reg) (src : FlightSrc) (fixed : Bool) (bound : Nat) :
    ∃ fs, me (queue s dsts src fixed bound) = { me s with flights := fs } := by
  unfold queue
  dsimp only
  split
  · exact ⟨(me s).flights, rfl⟩
  · split
    all_goals simp only [me_addTimer, me_numbered, me_updMe]; exact ⟨_, rfl⟩

/-- R112, R113: no other context is touched. -/
theorem ctxOf_queue {k : Nat} (dsts : List Reg) (src : FlightSrc) (fixed : Bool) (bound : Nat) (h : k ≠ s.at_) :
    ctxOf (queue s dsts src fixed bound) k = ctxOf s k := by
  unfold queue
  dsimp only
  split
  · rfl
  · split
    all_goals simp only [ctxOf_addTimer, ctxOf_numbered, ctxOf_updMe_other s _ h]

@[simp] theorem queue_cyc (dsts : List Reg) (src : FlightSrc) (fixed : Bool) (bound : Nat) : (queue s dsts src fixed bound).cyc = s.cyc := by
  unfold queue; dsimp only; split
  · rfl
  · split <;> rfl
@[simp] theorem queue_fresh (dsts : List Reg) (src : FlightSrc) (fixed : Bool) (bound : Nat) : (queue s dsts src fixed bound).fresh = s.fresh := by
  unfold queue; dsimp only; split
  · rfl
  · split <;> rfl
@[simp] theorem queue_mem (dsts : List Reg) (src : FlightSrc) (fixed : Bool) (bound : Nat) : (queue s dsts src fixed bound).mem = s.mem := by
  unfold queue; dsimp only; split
  · rfl
  · split <;> rfl
@[simp] theorem queue_cores (dsts : List Reg) (src : FlightSrc) (fixed : Bool) (bound : Nat) : (queue s dsts src fixed bound).cores = s.cores := by
  unfold queue; dsimp only; split
  · rfl
  · split <;> rfl
@[simp] theorem queue_ctl (dsts : List Reg) (src : FlightSrc) (fixed : Bool) (bound : Nat) : (queue s dsts src fixed bound).ctl = s.ctl := by
  unfold queue; dsimp only; split
  · rfl
  · split <;> rfl
@[simp] theorem queue_pkg (dsts : List Reg) (src : FlightSrc) (fixed : Bool) (bound : Nat) : (queue s dsts src fixed bound).pkg = s.pkg := by
  unfold queue; dsimp only; split
  · rfl
  · split <;> rfl
@[simp] theorem queue_at (dsts : List Reg) (src : FlightSrc) (fixed : Bool) (bound : Nat) : (queue s dsts src fixed bound).at_ = s.at_ := by
  unfold queue; dsimp only; split
  · rfl
  · split <;> rfl
@[simp] theorem queue_subj (dsts : List Reg) (src : FlightSrc) (fixed : Bool) (bound : Nat) : (queue s dsts src fixed bound).subj = s.subj := by
  unfold queue; dsimp only; split
  · rfl
  · split <;> rfl
@[simp] theorem queue_iss (dsts : List Reg) (src : FlightSrc) (fixed : Bool) (bound : Nat) : (queue s dsts src fixed bound).iss = s.iss := by
  unfold queue; dsimp only; split
  · rfl
  · split <;> rfl
@[simp] theorem queue_reqs (dsts : List Reg) (src : FlightSrc) (fixed : Bool) (bound : Nat) : (queue s dsts src fixed bound).reqs = s.reqs := by
  unfold queue; dsimp only; split
  · rfl
  · split <;> rfl
@[simp] theorem queue_tlb (dsts : List Reg) (src : FlightSrc) (fixed : Bool) (bound : Nat) : (queue s dsts src fixed bound).tlb = s.tlb := by
  unfold queue; dsimp only; split
  · rfl
  · split <;> rfl
@[simp] theorem queue_l1 (dsts : List Reg) (src : FlightSrc) (fixed : Bool) (bound : Nat) : (queue s dsts src fixed bound).l1 = s.l1 := by
  unfold queue; dsimp only; split
  · rfl
  · split <;> rfl
@[simp] theorem queue_xreqs (dsts : List Reg) (src : FlightSrc) (fixed : Bool) (bound : Nat) : (queue s dsts src fixed bound).xreqs = s.xreqs := by
  unfold queue; dsimp only; split
  · rfl
  · split <;> rfl
@[simp] theorem queue_asks (dsts : List Reg) (src : FlightSrc) (fixed : Bool) (bound : Nat) : (queue s dsts src fixed bound).asks = s.asks := by
  unfold queue; dsimp only; split
  · rfl
  · split <;> rfl
@[simp] theorem queue_pageIns (dsts : List Reg) (src : FlightSrc) (fixed : Bool) (bound : Nat) : (queue s dsts src fixed bound).pageIns = s.pageIns := by
  unfold queue; dsimp only; split
  · rfl
  · split <;> rfl
@[simp] theorem queue_moved (dsts : List Reg) (src : FlightSrc) (fixed : Bool) (bound : Nat) : (queue s dsts src fixed bound).moved = s.moved := by
  unfold queue; dsimp only; split
  · rfl
  · split <;> rfl
@[simp] theorem queue_owed (dsts : List Reg) (src : FlightSrc) (fixed : Bool) (bound : Nat) : (queue s dsts src fixed bound).owed = s.owed := by
  unfold queue; dsimp only; split
  · rfl
  · split <;> rfl
@[simp] theorem queue_fenced (dsts : List Reg) (src : FlightSrc) (fixed : Bool) (bound : Nat) : (queue s dsts src fixed bound).fenced = s.fenced := by
  unfold queue; dsimp only; split
  · rfl
  · split <;> rfl
@[simp] theorem queue_nrg (dsts : List Reg) (src : FlightSrc) (fixed : Bool) (bound : Nat) : (queue s dsts src fixed bound).nrg = s.nrg := by
  unfold queue; dsimp only; split
  · rfl
  · split <;> rfl
@[simp] theorem queue_joules (dsts : List Reg) (src : FlightSrc) (fixed : Bool) (bound : Nat) : (queue s dsts src fixed bound).joules = s.joules := by
  unfold queue; dsimp only; split
  · rfl
  · split <;> rfl
@[simp] theorem queue_slices (dsts : List Reg) (src : FlightSrc) (fixed : Bool) (bound : Nat) : (queue s dsts src fixed bound).slices = s.slices := by
  unfold queue; dsimp only; split
  · rfl
  · split <;> rfl
@[simp] theorem queue_frames (dsts : List Reg) (src : FlightSrc) (fixed : Bool) (bound : Nat) : (queue s dsts src fixed bound).frames = s.frames := by
  unfold queue; dsimp only; split
  · rfl
  · split <;> rfl
@[simp] theorem queue_resv (dsts : List Reg) (src : FlightSrc) (fixed : Bool) (bound : Nat) : (queue s dsts src fixed bound).resv = s.resv := by
  unfold queue; dsimp only; split
  · rfl
  · split <;> rfl
@[simp] theorem queue_notices (dsts : List Reg) (src : FlightSrc) (fixed : Bool) (bound : Nat) : (queue s dsts src fixed bound).notices = s.notices := by
  unfold queue; dsimp only; split
  · rfl
  · split <;> rfl
@[simp] theorem queue_groups (dsts : List Reg) (src : FlightSrc) (fixed : Bool) (bound : Nat) : (queue s dsts src fixed bound).groups = s.groups := by
  unfold queue; dsimp only; split
  · rfl
  · split <;> rfl
@[simp] theorem queue_saved (dsts : List Reg) (src : FlightSrc) (fixed : Bool) (bound : Nat) : (queue s dsts src fixed bound).saved = s.saved := by
  unfold queue; dsimp only; split
  · rfl
  · split <;> rfl
@[simp] theorem queue_graphs (dsts : List Reg) (src : FlightSrc) (fixed : Bool) (bound : Nat) : (queue s dsts src fixed bound).graphs = s.graphs := by
  unfold queue; dsimp only; split
  · rfl
  · split <;> rfl
@[simp] theorem queue_conns (dsts : List Reg) (src : FlightSrc) (fixed : Bool) (bound : Nat) : (queue s dsts src fixed bound).conns = s.conns := by
  unfold queue; dsimp only; split
  · rfl
  · split <;> rfl
@[simp] theorem queue_chunks (dsts : List Reg) (src : FlightSrc) (fixed : Bool) (bound : Nat) : (queue s dsts src fixed bound).chunks = s.chunks := by
  unfold queue; dsimp only; split
  · rfl
  · split <;> rfl
@[simp] theorem queue_launches (dsts : List Reg) (src : FlightSrc) (fixed : Bool) (bound : Nat) : (queue s dsts src fixed bound).launches = s.launches := by
  unfold queue; dsimp only; split
  · rfl
  · split <;> rfl
@[simp] theorem queue_teams (dsts : List Reg) (src : FlightSrc) (fixed : Bool) (bound : Nat) : (queue s dsts src fixed bound).teams = s.teams := by
  unfold queue; dsimp only; split
  · rfl
  · split <;> rfl
@[simp] theorem queue_transit (dsts : List Reg) (src : FlightSrc) (fixed : Bool) (bound : Nat) : (queue s dsts src fixed bound).transit = s.transit := by
  unfold queue; dsimp only; split
  · rfl
  · split <;> rfl
@[simp] theorem queue_quarters (dsts : List Reg) (src : FlightSrc) (fixed : Bool) (bound : Nat) : (queue s dsts src fixed bound).quarters = s.quarters := by
  unfold queue; dsimp only; split
  · rfl
  · split <;> rfl
@[simp] theorem queue_boot (dsts : List Reg) (src : FlightSrc) (fixed : Bool) (bound : Nat) : (queue s dsts src fixed bound).boot = s.boot := by
  unfold queue; dsimp only; split
  · rfl
  · split <;> rfl
@[simp] theorem queue_parked (dsts : List Reg) (src : FlightSrc) (fixed : Bool) (bound : Nat) : (queue s dsts src fixed bound).parked = s.parked := by
  unfold queue; dsimp only; split
  · rfl
  · split <;> rfl
@[simp] theorem queue_shoots (dsts : List Reg) (src : FlightSrc) (fixed : Bool) (bound : Nat) : (queue s dsts src fixed bound).shoots = s.shoots := by
  unfold queue; dsimp only; split
  · rfl
  · split <;> rfl
@[simp] theorem queue_ready (dsts : List Reg) (src : FlightSrc) (fixed : Bool) (bound : Nat) : (queue s dsts src fixed bound).ready = s.ready := by
  unfold queue; dsimp only; split
  · rfl
  · split <;> rfl
@[simp] theorem queue_schedule (dsts : List Reg) (src : FlightSrc) (fixed : Bool) (bound : Nat) : (queue s dsts src fixed bound).schedule = s.schedule := by
  unfold queue; dsimp only; split
  · rfl
  · split <;> rfl
@[simp] theorem queue_turn (dsts : List Reg) (src : FlightSrc) (fixed : Bool) (bound : Nat) : (queue s dsts src fixed bound).turn = s.turn := by
  unfold queue; dsimp only; split
  · rfl
  · split <;> rfl

/-- R88, R204, R402: one scratchpad byte written: memory changes at that byte alone. -/
theorem mget_spStoreIn (seq off x : Nat) (b : Byte) (h : Memory.wf s.mem = true) :
    mget (spStoreIn s seq off b) x = if x = spAddr (myCore s) off then b else mget s x := by
  unfold spStoreIn
  dsimp only
  have e : ∀ (t : State) (l : List Req), t.mem = s.mem →
      mget (mput { t with reqs := l } (spAddr (myCore s) off) b) x = if x = spAddr (myCore s) off then b else mget s x := by
    intro t l ht
    rw [mget_mput { t with reqs := l } (spAddr (myCore s) off) x b (by rw [show ({ t with reqs := l } : State).mem = s.mem from ht]; exact h)]
    simp only [mget, ht]
  apply e
  refine (updCore_mem ..).trans ?_
  rw [apply_ite State.mem]
  simp only [updMe_mem, ite_self]

theorem spStoreIn_wf (seq off : Nat) (b : Byte) (h : Memory.wf s.mem = true) : Memory.wf (spStoreIn s seq off b).mem = true := by
  unfold spStoreIn
  dsimp only
  refine mput_wf _ _ _ ?_
  have g : ∀ (t : State) (l : List Req), t.mem = s.mem → Memory.wf ({ t with reqs := l } : State).mem = true :=
    fun t l e => (congrArg Memory.wf e).trans h
  apply g
  refine (updCore_mem ..).trans ?_
  rw [apply_ite State.mem]
  simp only [updMe_mem, ite_self]

/-- R89: a store that enters the gate leaves memory as it is. -/
@[simp] theorem gateStore_mem (va : Nat) (bs : List (Nat × Byte)) : (gateStore s va bs).mem = s.mem := rfl

/-- R89: and every register. -/
theorem me_gateStore (va : Nat) (bs : List (Nat × Byte)) : (me (gateStore s va bs)).regs = (me s).regs := by
  unfold gateStore
  simp only [me_numbered, me_updMe, updRegion]
  split <;> rfl

/-! ### Traps -/

/-- From s to t only what a rollback and the delivery of a trap touch may have changed: what finding a page touches, contexts, cores,
requests, the steps enabled, and the bundle being issued. -/
structure Trapping (s t : State) : Prop where
  cyc : t.cyc = s.cyc
  pkg : t.pkg = s.pkg
  at_ : t.at_ = s.at_
  subj : t.subj = s.subj
  l1 : t.l1 = s.l1
  pageIns : t.pageIns = s.pageIns
  moved : t.moved = s.moved
  owed : t.owed = s.owed
  fenced : t.fenced = s.fenced
  nrg : t.nrg = s.nrg
  joules : t.joules = s.joules
  slices : t.slices = s.slices
  frames : t.frames = s.frames
  notices : t.notices = s.notices
  groups : t.groups = s.groups
  saved : t.saved = s.saved
  graphs : t.graphs = s.graphs
  conns : t.conns = s.conns
  chunks : t.chunks = s.chunks
  launches : t.launches = s.launches
  teams : t.teams = s.teams
  transit : t.transit = s.transit
  quarters : t.quarters = s.quarters
  boot : t.boot = s.boot
  parked : t.parked = s.parked
  shoots : t.shoots = s.shoots
  schedule : t.schedule = s.schedule
  turn : t.turn = s.turn
  wf : Memory.wf s.mem = true → Memory.wf t.mem = true

theorem Trapping.refl (s : State) : Trapping s s := by constructor <;> first | rfl | exact id

theorem Trapping.trans {s t u : State} (h : Trapping s t) (g : Trapping t u) : Trapping s u :=
  { cyc := g.cyc.trans h.cyc, pkg := g.pkg.trans h.pkg, at_ := g.at_.trans h.at_, subj := g.subj.trans h.subj, l1 := g.l1.trans h.l1, pageIns := g.pageIns.trans h.pageIns, moved := g.moved.trans h.moved, owed := g.owed.trans h.owed, fenced := g.fenced.trans h.fenced, nrg := g.nrg.trans h.nrg, joules := g.joules.trans h.joules, slices := g.slices.trans h.slices, frames := g.frames.trans h.frames, notices := g.notices.trans h.notices, groups := g.groups.trans h.groups, saved := g.saved.trans h.saved, graphs := g.graphs.trans h.graphs, conns := g.conns.trans h.conns, chunks := g.chunks.trans h.chunks, launches := g.launches.trans h.launches, teams := g.teams.trans h.teams, transit := g.transit.trans h.transit, quarters := g.quarters.trans h.quarters, boot := g.boot.trans h.boot, parked := g.parked.trans h.parked, shoots := g.shoots.trans h.shoots, schedule := g.schedule.trans h.schedule, turn := g.turn.trans h.turn,
    wf := fun x => g.wf (h.wf x) }

theorem Paging.trapping {s t : State} (h : Paging s t) : Trapping s t :=
  { cyc := h.cyc, pkg := h.pkg, at_ := h.at_, subj := h.subj, l1 := h.l1, pageIns := h.pageIns, moved := h.moved, owed := h.owed, fenced := h.fenced, nrg := h.nrg, joules := h.joules, slices := h.slices, frames := h.frames, notices := h.notices, groups := h.groups, saved := h.saved, graphs := h.graphs, conns := h.conns, chunks := h.chunks, launches := h.launches, teams := h.teams, transit := h.transit, quarters := h.quarters, boot := h.boot, parked := h.parked, shoots := h.shoots, schedule := h.schedule, turn := h.turn, wf := h.wf }

theorem trapping_updCtx (k : Nat) (f : Ctx → Ctx) : Trapping s (updCtx s k f) := by
  constructor
  case wf => rw [updCtx_mem]; exact id
  all_goals simp only [updCtx_cyc, updCtx_pkg, updCtx_at, updCtx_subj, updCtx_l1, updCtx_pageIns, updCtx_moved, updCtx_owed, updCtx_fenced, updCtx_nrg, updCtx_joules, updCtx_slices, updCtx_frames, updCtx_notices, updCtx_groups, updCtx_saved, updCtx_graphs, updCtx_conns, updCtx_chunks, updCtx_launches, updCtx_teams, updCtx_transit, updCtx_quarters, updCtx_boot, updCtx_parked, updCtx_shoots, updCtx_schedule, updCtx_turn]

theorem trapping_putCtx (k : Nat) (c : Ctx) : Trapping s (putCtx s k c) := by
  constructor
  case wf => rw [putCtx_mem]; exact id
  all_goals simp only [putCtx_cyc, putCtx_pkg, putCtx_at, putCtx_subj, putCtx_l1, putCtx_pageIns, putCtx_moved, putCtx_owed, putCtx_fenced, putCtx_nrg, putCtx_joules, putCtx_slices, putCtx_frames, putCtx_notices, putCtx_groups, putCtx_saved, putCtx_graphs, putCtx_conns, putCtx_chunks, putCtx_launches, putCtx_teams, putCtx_transit, putCtx_quarters, putCtx_boot, putCtx_parked, putCtx_shoots, putCtx_schedule, putCtx_turn]

theorem trapping_updCore (n : Nat) (f : CoreSt → CoreSt) : Trapping s (updCore s n f) := by
  constructor
  case wf => rw [updCore_mem]; exact id
  all_goals simp only [updCore_cyc, updCore_pkg, updCore_at, updCore_subj, updCore_l1, updCore_pageIns, updCore_moved, updCore_owed, updCore_fenced, updCore_nrg, updCore_joules, updCore_slices, updCore_frames, updCore_notices, updCore_groups, updCore_saved, updCore_graphs, updCore_conns, updCore_chunks, updCore_launches, updCore_teams, updCore_transit, updCore_quarters, updCore_boot, updCore_parked, updCore_shoots, updCore_schedule, updCore_turn]

theorem trapping_addReady (e : Event) : Trapping s (addReady s e) := by
  constructor
  case wf => rw [addReady_mem]; exact id
  all_goals simp only [addReady_cyc, addReady_pkg, addReady_at, addReady_subj, addReady_l1, addReady_pageIns, addReady_moved, addReady_owed, addReady_fenced, addReady_nrg, addReady_joules, addReady_slices, addReady_frames, addReady_notices, addReady_groups, addReady_saved, addReady_graphs, addReady_conns, addReady_chunks, addReady_launches, addReady_teams, addReady_transit, addReady_quarters, addReady_boot, addReady_parked, addReady_shoots, addReady_schedule, addReady_turn]

theorem trapping_reqs (l : List Req) : Trapping s { s with reqs := l } := by constructor <;> first | rfl | exact id

theorem trapping_iss (i : Iss) : Trapping s { s with iss := i } := by constructor <;> first | rfl | exact id

theorem trapping_undoJournal (core : Nat) (js : List JournalItem) : Trapping s (undoJournal core js s) := by
  induction js with
  | nil => exact .refl s
  | cons j js ih =>
    cases j with
    | byte o b => exact ih.trans (paging_mput ..).trapping
    | bank n c => exact ih.trans (trapping_updCore ..)

@[simp] theorem undoJournal_ctxs (core : Nat) (js : List JournalItem) : (undoJournal core js s).ctxs = s.ctxs := by
  induction js with
  | nil => rfl
  | cons j js ih => cases j <;> exact ih

theorem trapping_kickUnit (core : Nat) : Trapping s (kickUnit s core) := by
  unfold kickUnit; dsimp only; split
  · exact .refl s
  · exact trapping_addReady ..

@[simp] theorem kickUnit_ctxs (core : Nat) : (kickUnit s core).ctxs = s.ctxs := by unfold kickUnit; dsimp only; split <;> rfl

/-- R404: a rollback. -/
theorem trapping_rollback (k : Nat) : Trapping s (rollback s k) := by
  unfold rollback
  dsimp only
  refine Trapping.trans ?_ (trapping_putCtx ..)
  refine Trapping.trans ?_ (trapping_reqs ..)
  refine Trapping.trans ?_ (trapping_undoJournal ..)
  refine Trapping.trans ?_ (trapping_undoJournal ..)
  split
  · exact trapping_updCore ..
  · exact (trapping_updCore ..).trans (trapping_kickUnit ..)

/-- R404: a rollback touches no other context. -/
theorem ctxOf_rollback {k j : Nat} (h : j ≠ k) : ctxOf (rollback s k) j = ctxOf s j := by
  unfold rollback
  dsimp only
  rw [ctxOf_putCtx_other _ _ h]
  have hk : ∀ (b : Bool) (x : State) (n : Nat), (if b = true then x else kickUnit x n).ctxs = x.ctxs := by
    intro b x n; cases b <;> simp
  simp only [ctxOf, undoJournal_ctxs]
  refine congrArg (fun m : Sparse Ctx => sget {} m j) ?_
  exact (hk _ _ _).trans (updCore_ctxs ..)

theorem paging_quarHeader (q asn ia : Nat) : Paging s (quarHeader s q asn ia) := by
  unfold quarHeader; split
  · exact paging_mput ..
  · exact .refl s

theorem paging_quarEntry (q asn ia : Nat) : Paging s (quarEntry s q asn ia) := by
  unfold quarEntry; split
  · exact paging_leafPut ..
  · exact .refl s

theorem paging_quarantine (q asn ia : Nat) : Paging s (quarantine s q asn ia) :=
  (paging_quarHeader s q asn ia).trans (paging_quarEntry _ q asn ia)

/-- R413: a write to a window of registers is a step to come. -/
theorem trapping_regWrite (j : Subject) : Trapping s (regWrite s j) := by
  unfold regWrite; split
  · constructor <;> first | rfl | exact id
  · exact trapping_addReady ..

@[simp] theorem regWrite_ctxs (j : Subject) : (regWrite s j).ctxs = s.ctxs := by unfold regWrite; split <;> rfl

theorem trapping_writeTrec (k : Nat) (rec : List Byte) : Trapping s (writeTrec s k rec) := by
  unfold writeTrec
  dsimp only
  split
  · exact .refl s
  · rename_i ia _
    have g := ((paging_needPage s (leadCore s (k / 4)) (ctxOf s k).asn ia true).trans (paging_putFound rec _)).trapping
    repeat' split
    all_goals first
      | exact .refl s
      | exact (paging_mputs ..).trapping
      | exact trapping_regWrite ..
      | exact g

theorem writeTrec_ctxs (k : Nat) (rec : List Byte) : (writeTrec s k rec).ctxs = s.ctxs := by
  unfold writeTrec
  dsimp only
  split
  · rfl
  · rename_i ia _
    have g := ((paging_needPage s (leadCore s (k / 4)) (ctxOf s k).asn ia true).trans (paging_putFound rec _)).ctxs
    repeat' split
    all_goals first
      | rfl
      | exact (paging_mputs ..).ctxs
      | exact regWrite_ctxs ..
      | exact g

theorem trapping_selectNext (core : Nat) : Trapping s (selectNext s core) := by
  unfold selectNext; split
  · exact trapping_updCore ..
  · exact .refl s

@[simp] theorem selectNext_ctxs (core : Nat) : (selectNext s core).ctxs = s.ctxs := by
  unfold selectNext; split <;> rfl

theorem trapping_moveSelector (core : Nat) : Trapping s (moveSelector s core) := by
  unfold moveSelector
  dsimp only
  repeat' split
  all_goals first
    | exact .refl s
    | exact trapping_selectNext ..
    | exact trapping_updCore ..

@[simp] theorem moveSelector_ctxs (core : Nat) : (moveSelector s core).ctxs = s.ctxs := by
  unfold moveSelector
  dsimp only
  repeat' split
  all_goals simp

@[simp] theorem moveSelector_ctxOf (core k : Nat) : ctxOf (moveSelector s core) k = ctxOf s k := by simp [ctxOf]

/-- R406, R407: the delivery of a trap. -/
theorem trapping_deliver (k : Nat) (t : Trap) : Trapping s (deliver s k t) := by
  unfold deliver
  dsimp only
  have h : ∀ u : State, Trapping s u → Trapping s
      (if (ctxOf u k).inService then
        addReady (moveSelector (updCtx (ringAppend u (quarterOf (k / 4)) trapRing (trapRecord u k { t with code := 0x20 })) k
          fun c => { c with st := .stopping, why := .halt, wt := false, wdc := 0 }) (k / 4)) ⟨.contextSaveComplete, subjOf k⟩
      else if (ctxOf u k).tvec ≠ 0 then
        updCtx (writeTrec u k (trapRecord u k t)) k
          fun c => { c with xepc := c.pc, xepl := c.pl, pl := max c.pl 1, pc := c.tvec, inService := true, wdc := 0 }
      else
        addReady (moveSelector (updCtx (ringAppend u (quarterOf (k / 4)) trapRing (trapRecord u k t)) k
          fun c => { c with st := .stopping, why := .fault, wdc := 0 }) (k / 4)) ⟨.taskComplete, { subjOf k with flag := true }⟩) := by
    intro u hu
    refine hu.trans ?_
    split
    · exact (((paging_ringAppend ..).trapping.trans (trapping_updCtx ..)).trans (trapping_moveSelector ..)).trans (trapping_addReady ..)
    · split
      · exact (trapping_writeTrec ..).trans (trapping_updCtx ..)
      · exact (((paging_ringAppend ..).trapping.trans (trapping_updCtx ..)).trans (trapping_moveSelector ..)).trans (trapping_addReady ..)
  split
  · exact h _ (paging_quarantine ..).trapping
  · exact h _ (.refl s)

/-- R406, R407: a delivery touches no other context. -/
theorem ctxOf_deliver {k j : Nat} (t : Trap) (h : j ≠ k) : ctxOf (deliver s k t) j = ctxOf s j := by
  have ha : ∀ (u : State) (e : Event), ctxOf (addReady u e) j = ctxOf u j := fun _ _ => rfl
  have hr : ∀ u k rec, (writeTrec u k rec).ctxs = u.ctxs := writeTrec_ctxs
  unfold deliver
  dsimp only
  split
  · rename_i ia _
    have g := (paging_quarantine s (leadCore s (k / 4)) (ctxOf s k).asn ia).ctxs
    generalize quarantine s (leadCore s (k / 4)) (ctxOf s k).asn ia = u at g ⊢
    split
    · rw [ha, moveSelector_ctxOf, ctxOf_updCtx_other _ _ h]; simp only [ctxOf, ringAppend_ctxs, g]
    · split
      · rw [ctxOf_updCtx_other _ _ h]; simp only [ctxOf, hr, g]
      · rw [ha, moveSelector_ctxOf, ctxOf_updCtx_other _ _ h]; simp only [ctxOf, ringAppend_ctxs, g]
  · split
    · rw [ha, moveSelector_ctxOf, ctxOf_updCtx_other _ _ h]; simp only [ctxOf, ringAppend_ctxs]
    · split
      · rw [ctxOf_updCtx_other _ _ h]; simp only [ctxOf, hr]
      · rw [ha, moveSelector_ctxOf, ctxOf_updCtx_other _ _ h]; simp only [ctxOf, ringAppend_ctxs]

/-- R14, R15: a context becomes ready. -/
theorem trapping_makeReady (k : Nat) : Trapping s (makeReady s k) := by
  unfold makeReady
  dsimp only
  split
  · exact (trapping_updCtx ..).trans (trapping_updCore ..)
  · exact (trapping_updCtx ..).trans (trapping_moveSelector ..)

theorem ctxOf_makeReady {k j : Nat} (h : j ≠ k) : ctxOf (makeReady s k) j = ctxOf s j := by
  have hu : ∀ (u : State) n f, ctxOf (updCore u n f) j = ctxOf u j := fun _ _ _ => rfl
  unfold makeReady
  dsimp only
  split
  · rw [hu, ctxOf_updCtx_other _ _ h]
  · rw [moveSelector_ctxOf, ctxOf_updCtx_other _ _ h]

theorem trapping_readyAgain (k : Nat) (was : CtxSt) : Trapping s (readyAgain s k was) := by
  unfold readyAgain; split
  · exact trapping_updCtx ..
  · exact trapping_makeReady ..

theorem ctxOf_readyAgain {k j : Nat} (was : CtxSt) (h : j ≠ k) : ctxOf (readyAgain s k was) j = ctxOf s j := by
  unfold readyAgain; split
  · exact ctxOf_updCtx_other _ _ h
  · exact ctxOf_makeReady _ h

theorem trapping_stopAgain (k : Nat) (was : Ctx) : Trapping s (stopAgain s k was) := by
  unfold stopAgain; split
  · exact ((trapping_updCtx ..).trans (trapping_moveSelector ..)).trans (trapping_addReady ..)
  · exact .refl s

theorem ctxOf_stopAgain {k j : Nat} (was : Ctx) (h : j ≠ k) : ctxOf (stopAgain s k was) j = ctxOf s j := by
  have ha : ∀ (u : State) (e : Event), ctxOf (addReady u e) j = ctxOf u j := fun _ _ => rfl
  unfold stopAgain; split
  · rw [ha, moveSelector_ctxOf, ctxOf_updCtx_other _ _ h]
  · rfl

/-- R400 to R407: TAKING A TRAP. -/
theorem trapping_takeTrap (k : Nat) (t : Trap) (seq : Nat) : Trapping s (takeTrap s k t seq) := by
  unfold takeTrap
  dsimp only
  have h := trapping_iss s { s.iss with cut := true, work := [], stores := [] }
  generalize ({ s with iss := { s.iss with cut := true, work := [], stores := [] } } : State) = u at h ⊢
  refine h.trans ?_
  split
  · exact (trapping_updCtx ..).trans (trapping_moveSelector ..)
  · split
    · exact (((trapping_rollback ..).trans (trapping_updCtx ..)).trans (trapping_moveSelector ..)).trans (trapping_addReady ..)
    · exact ((((trapping_rollback ..).trans (trapping_updCtx ..)).trans (trapping_readyAgain ..)).trans (trapping_deliver ..)).trans
        (trapping_stopAgain ..)

/-- R404, R406: taking a trap touches no other context. -/
theorem ctxOf_takeTrap {k j : Nat} (t : Trap) (seq : Nat) (h : j ≠ k) : ctxOf (takeTrap s k t seq) j = ctxOf s j := by
  have ha : ∀ (u : State) (e : Event), ctxOf (addReady u e) j = ctxOf u j := fun _ _ => rfl
  unfold takeTrap
  dsimp only
  have g : ctxOf ({ s with iss := { s.iss with cut := true, work := [], stores := [] } } : State) j = ctxOf s j := rfl
  generalize ({ s with iss := { s.iss with cut := true, work := [], stores := [] } } : State) = u at g ⊢
  rw [← g]
  split
  · rw [moveSelector_ctxOf, ctxOf_updCtx_other _ _ h]
  · split
    · rw [ha, moveSelector_ctxOf, ctxOf_updCtx_other _ _ h, ctxOf_rollback _ h]
    · rw [ctxOf_stopAgain _ _ h, ctxOf_deliver _ t h, ctxOf_readyAgain _ _ h, ctxOf_updCtx_other _ _ h, ctxOf_rollback _ h]

@[simp] theorem takeTrap_cyc (k : Nat) (t : Trap) (seq : Nat) : (takeTrap s k t seq).cyc = s.cyc := (trapping_takeTrap s k t seq).cyc
@[simp] theorem takeTrap_pkg (k : Nat) (t : Trap) (seq : Nat) : (takeTrap s k t seq).pkg = s.pkg := (trapping_takeTrap s k t seq).pkg
@[simp] theorem takeTrap_at (k : Nat) (t : Trap) (seq : Nat) : (takeTrap s k t seq).at_ = s.at_ := (trapping_takeTrap s k t seq).at_
@[simp] theorem takeTrap_subj (k : Nat) (t : Trap) (seq : Nat) : (takeTrap s k t seq).subj = s.subj := (trapping_takeTrap s k t seq).subj
@[simp] theorem takeTrap_l1 (k : Nat) (t : Trap) (seq : Nat) : (takeTrap s k t seq).l1 = s.l1 := (trapping_takeTrap s k t seq).l1
@[simp] theorem takeTrap_pageIns (k : Nat) (t : Trap) (seq : Nat) : (takeTrap s k t seq).pageIns = s.pageIns := (trapping_takeTrap s k t seq).pageIns
@[simp] theorem takeTrap_moved (k : Nat) (t : Trap) (seq : Nat) : (takeTrap s k t seq).moved = s.moved := (trapping_takeTrap s k t seq).moved
@[simp] theorem takeTrap_owed (k : Nat) (t : Trap) (seq : Nat) : (takeTrap s k t seq).owed = s.owed := (trapping_takeTrap s k t seq).owed
@[simp] theorem takeTrap_fenced (k : Nat) (t : Trap) (seq : Nat) : (takeTrap s k t seq).fenced = s.fenced := (trapping_takeTrap s k t seq).fenced
@[simp] theorem takeTrap_nrg (k : Nat) (t : Trap) (seq : Nat) : (takeTrap s k t seq).nrg = s.nrg := (trapping_takeTrap s k t seq).nrg
@[simp] theorem takeTrap_joules (k : Nat) (t : Trap) (seq : Nat) : (takeTrap s k t seq).joules = s.joules := (trapping_takeTrap s k t seq).joules
@[simp] theorem takeTrap_slices (k : Nat) (t : Trap) (seq : Nat) : (takeTrap s k t seq).slices = s.slices := (trapping_takeTrap s k t seq).slices
@[simp] theorem takeTrap_frames (k : Nat) (t : Trap) (seq : Nat) : (takeTrap s k t seq).frames = s.frames := (trapping_takeTrap s k t seq).frames
@[simp] theorem takeTrap_notices (k : Nat) (t : Trap) (seq : Nat) : (takeTrap s k t seq).notices = s.notices := (trapping_takeTrap s k t seq).notices
@[simp] theorem takeTrap_groups (k : Nat) (t : Trap) (seq : Nat) : (takeTrap s k t seq).groups = s.groups := (trapping_takeTrap s k t seq).groups
@[simp] theorem takeTrap_saved (k : Nat) (t : Trap) (seq : Nat) : (takeTrap s k t seq).saved = s.saved := (trapping_takeTrap s k t seq).saved
@[simp] theorem takeTrap_graphs (k : Nat) (t : Trap) (seq : Nat) : (takeTrap s k t seq).graphs = s.graphs := (trapping_takeTrap s k t seq).graphs
@[simp] theorem takeTrap_conns (k : Nat) (t : Trap) (seq : Nat) : (takeTrap s k t seq).conns = s.conns := (trapping_takeTrap s k t seq).conns
@[simp] theorem takeTrap_chunks (k : Nat) (t : Trap) (seq : Nat) : (takeTrap s k t seq).chunks = s.chunks := (trapping_takeTrap s k t seq).chunks
@[simp] theorem takeTrap_launches (k : Nat) (t : Trap) (seq : Nat) : (takeTrap s k t seq).launches = s.launches := (trapping_takeTrap s k t seq).launches
@[simp] theorem takeTrap_teams (k : Nat) (t : Trap) (seq : Nat) : (takeTrap s k t seq).teams = s.teams := (trapping_takeTrap s k t seq).teams
@[simp] theorem takeTrap_transit (k : Nat) (t : Trap) (seq : Nat) : (takeTrap s k t seq).transit = s.transit := (trapping_takeTrap s k t seq).transit
@[simp] theorem takeTrap_quarters (k : Nat) (t : Trap) (seq : Nat) : (takeTrap s k t seq).quarters = s.quarters := (trapping_takeTrap s k t seq).quarters
@[simp] theorem takeTrap_boot (k : Nat) (t : Trap) (seq : Nat) : (takeTrap s k t seq).boot = s.boot := (trapping_takeTrap s k t seq).boot
@[simp] theorem takeTrap_parked (k : Nat) (t : Trap) (seq : Nat) : (takeTrap s k t seq).parked = s.parked := (trapping_takeTrap s k t seq).parked
@[simp] theorem takeTrap_shoots (k : Nat) (t : Trap) (seq : Nat) : (takeTrap s k t seq).shoots = s.shoots := (trapping_takeTrap s k t seq).shoots
@[simp] theorem takeTrap_schedule (k : Nat) (t : Trap) (seq : Nat) : (takeTrap s k t seq).schedule = s.schedule := (trapping_takeTrap s k t seq).schedule
@[simp] theorem takeTrap_turn (k : Nat) (t : Trap) (seq : Nat) : (takeTrap s k t seq).turn = s.turn := (trapping_takeTrap s k t seq).turn

/-- R400: the executing instruction's trap is a next state, and which one. -/
theorem trap_next (code : Nat) : trap s code = .next (takeTrap s s.at_ (trapOf s code) (curSeq s)) := rfl

theorem trapAddr_next (code va ia : Nat) : trapAddr s code va ia = .next (takeTrap s s.at_ (addrTrap s code va ia) (curSeq s)) := rfl

/-- R356: a return changes the acting context, and where its bundle ends. -/
theorem trapping_trapReturn : Trapping s (trapReturn s) := by
  unfold trapReturn updMe setMe
  exact (trapping_putCtx s s.at_ _).trans (trapping_iss ..)

end Sys2Proof.Machine
end

