-- ==== Sys2Proof/Tests/Slice0.lean ====
section
/-!
SUPPORT. Tests of single steps, decoding and well-formedness, with expected values from the spec, and states that meet the hypotheses of
the statements.
-/

namespace Sys2Proof.Machine.Tests

open Sys2Proof Sys2Proof.Machine

set_option Elab.async false

/-! ### Decoding and well-formedness -/

/-- The slot value decodes to this instruction, always executed. -/
def reads (k : SlotKind) (p : BitVec 64 × Instr) : Bool := decodeSlot k p.1 == some ⟨0, false, p.2, 0⟩

/-- R105, R106: words of slot kind C laid out from the forms. -/
theorem test_decode_control_1 :
    [(0x01000025EB478000, .br 0x97ad1e),
      (0x020120697AD1C000, .brr 9 0x1a5eb47),
      (0x0307C03A5EB44000, .call 62 0xe97ad1),
      (0x040439074BD68000, .callr 33 50 0x1d2f5a),
      (0x0504E00000000000, .ret 39),
      (0x0600B57874BD4000, .btab 5 42 0x1e1d2f5),
      (0x08037F52F5A3C000, .beq 27 62 0x14bd68f),
      (0x0904393A5EB44000, .bne 33 50 0xe97ad1),
      (0x0A04E2874BD68000, .blt 39 5 0x1d2f5a),
      (0x0B012DF0E97AC000, .bge 9 27 0x1c3a5eb),
      (0x0C0250A5EB478000, .bltu 18 33 0x97ad1e)].all (reads .c) = true := by decide

/-- R105, R106: words of slot kind C laid out from the forms. -/
theorem test_decode_control_2 :
    [(0x0D01D3F4BD68C000, .bgeu 14 39 0x1d2f5a3),
      (0x1002200000000000, .loopn 1 1),
      (0x1106000000000000, .loopx 3),
      (0x18001F254BD60000, .waitG 62 18 0x14bd6),
      (0x18001901D2F50100, .waitT 50 0x1d2f5),
      (0x190000005A3C0000, .waitr 0x5a3c),
      (0x1A00000000000000, .waits),
      (0x2000000000000000, .yield),
      (0x2100000000000000, .ychk),
      (0x2200000000000000, .mark),
      (0x2300B500C3A5EB47, .xabort 5 42 0xc3a5eb47)].all (reads .c) = true := by decide

/-- R105, R106: words of slot kind C laid out from the forms. -/
theorem test_decode_control_3 :
    [(0x24000D80F0E97AD1, .trap 27 0xf0e97ad1),
      (0x2500000000000000, .done),
      (0x2600000000000000, .isync),
      (0xE000000000000000, .pret),
      (0xE102508000010000, .rngr 18 33 true),
      (0xE200074E28000000, .rngw 14 39 5),
      (0xE300150000000000, .ppwset 42),
      (0xE40004B7D68F0000, .ctxsave 9 27 0x1d68f),
      (0xE50009437AD10100, .ctxload 18 33 0x17ad1 true),
      (0xE600138A00010000, .shoot 39 5 0 true),
      (0xE700000000000000, .halt)].all (reads .c) = true := by decide

/-- R105, R106: words of slot kind C laid out from the forms. -/
theorem test_decode_control_4 :
    [(0xE8000D811D2F5A3C, .wdset 27 .yd 0x1d2f5a3c)].all (reads .c) = true := by decide

/-- R105, R106: words of slot kind S laid out from the forms. -/
theorem test_decode_scalar_1 :
    [(0x0104391C00000000, .add 33 50 14),
      (0x0204E2D400000000, .sub 39 5 42),
      (0x03012DFC00000000, .and 9 27 62),
      (0x040250E400000000, .or 18 33 50),
      (0x0501D38A00000000, .xor 14 39 5),
      (0x060544B600000000, .andn 42 9 27),
      (0x0707C94200000000, .shl 62 18 33),
      (0x0806474E00000000, .shr 50 14 39),
      (0x0900B51200000000, .sra 5 42 9),
      (0x0A037F2400000000, .rol 27 62 18),
      (0x0B04391C00000000, .ror 33 50 14)].all (reads .s) = true := by decide

/-- R105, R106: words of slot kind S laid out from the forms. -/
theorem test_decode_scalar_2 :
    [(0x0C04E2D400000000, .min 39 5 42),
      (0x0D012DFC00000000, .max 9 27 62),
      (0x0E0250E400000000, .minu 18 33 50),
      (0x0F01D38A00000000, .maxu 14 39 5),
      (0x1005448000000000, .clz 42 9),
      (0x11037F0000000000, .ctz 27 62),
      (0x1202508000000000, .popc 18 33),
      (0x1306470000000000, .bswap 50 14),
      (0x1404E280002A0000, .sext 39 5 42),
      (0x15012D80003E0000, .zext 9 27 62),
      (0x160250E400010000, .bfx 18 33 50 true)].all (reads .s) = true := by decide

/-- R105, R106: words of slot kind S laid out from the forms. -/
theorem test_decode_scalar_3 :
    [(0x1704E2D448000000, .bfi 39 5 42 9),
      (0x1801FF2400040000, .cmp 15 62 18 .ltu),
      (0x1906474E18000000, .sel 50 14 39 3),
      (0x1A0544B6003E0000, .lea 42 9 27 62),
      (0x1B00639800010000, .fland 3 7 12 true),
      (0x1C01218E00010000, .flor 9 3 7 true),
      (0x1D01E48600010000, .flxor 15 9 3 true),
      (0x20064700C3A5EB47, .addi 50 14 0xc3a5eb47),
      (0x2100B500F874BD68, .andi 5 42 0xf874bd68),
      (0x22037F00BF0E97AD, .ori 27 62 0xbf0e97ad),
      (0x23043900B7E1D2F5, .xori 33 50 0xb7e1d2f5)].all (reads .s) = true := by decide

/-- R105, R106: words of slot kind S laid out from the forms. -/
theorem test_decode_scalar_4 :
    [(0x2404E2800000002D, .shli 39 5 0x2d),
      (0x25012D800000003D, .shri 9 27 0x3d),
      (0x260250800000003F, .srai 18 33 0x3f),
      (0x2701F386B7E1D2F5, .cmpi 15 39 .tst 0xb7e1d2f5),
      (0x280135BF0E97AD1E, .movi 9 0x15bf0e97ad1e),
      (0x2907CD6FC3A5EB47, .movhi 62 0xd6fc3a5eb47),
      (0x3004391C00000000, .mul 33 50 14),
      (0x3104E2D400000000, .mulh 39 5 42),
      (0x32012DFC00000000, .mulhu 9 27 62),
      (0x3802410000000000, .rdsp 18 .cyc),
      (0x3906418000000000, .lcrd 50 3)].all (reads .s) = true := by decide

/-- R105, R106: words of slot kind S laid out from the forms. -/
theorem test_decode_scalar_5 :
    [(0x3A00A28000000000, .lcwr 5 5),
      (0x3B05408000010000, .nrd 42 1 1),
      (0x3C00690000010000, .nwr 3 18 1),
      (0x4006474E00010000, .fadd 50 14 39 .b32),
      (0x410544B600010000, .fsub 42 9 27 .b32),
      (0x420250E400010000, .fmul 18 33 50 .b32),
      (0x4604E2D400010000, .fmin 39 5 42 .b32),
      (0x47037F2400010000, .fmax 27 62 18 .b32),
      (0x4A06474E00010000, .fcpys 50 14 39 .b32),
      (0x430544B7F0010000, .fma 42 9 27 62 .b32),
      (0x4404391D38010000, .fms 33 50 14 39 .b32)].all (reads .s) = true := by decide

/-- R105, R106: words of slot kind S laid out from the forms. -/
theorem test_decode_scalar_6 :
    [(0x450544B7F0010000, .fnma 42 9 27 62 .b32),
      (0x4804390000010000, .fabs 33 50 .b32),
      (0x4904E28000010000, .fneg 39 5 .b32),
      (0x4C012D8000010000, .fclass 9 27 .b32),
      (0x5002508000010000, .fsqrt 18 33 .b32),
      (0x5101D38000010000, .frcp 14 39 .b32),
      (0x5205448000010000, .frsq 42 9 .b32),
      (0x4B01294200410000, .fcmp 9 18 33 .ne .b32),
      (0x4D04E28000230000, .fcvt 39 5 .b32 .b16),
      (0x4E037F0000150000, .ftoi 27 62 true .rz .b32),
      (0x4F01D38000110000, .itof 14 39 true .b32)].all (reads .s) = true := by decide

/-- R105, R106: words of slot kind S laid out from the forms. -/
theorem test_decode_scalar_7 :
    [(0x53012D80000D0000, .frnd 9 27 .up .b32),
      (0xE004200000100000, .sysr 33 .pkg),
      (0xE100070000020000, .sysw 14 .xepc)].all (reads .s) = true := by decide

/-- R105, R106: words of slot kind V laid out from the forms. -/
theorem test_decode_vector_1 :
    [(0x0100B51202010000, .vadd 5 42 9 2 .i16),
      (0x020250E402020000, .vsub 18 33 50 2 .i8),
      (0x0300B51202010000, .vmul 5 42 9 2 .i16),
      (0x040250E402050000, .vmulh 18 33 50 2 true .i16),
      (0x050544B606020000, .vand 42 9 27 6 .i8),
      (0x0604391C06010000, .vor 33 50 14 6 .i16),
      (0x070544B606020000, .vxor 42 9 27 6 .i8),
      (0x0804391C06010000, .vshl 33 50 14 6 .i16),
      (0x090544B606020000, .vshr 42 9 27 6 .i8),
      (0x0A04391C06010000, .vsra 33 50 14 6 .i16),
      (0x0B0544B606020000, .vmin 42 9 27 6 .i8)].all (reads .v) = true := by decide

/-- R105, R106: words of slot kind V laid out from the forms. -/
theorem test_decode_vector_2 :
    [(0x0C04391C06010000, .vmax 33 50 14 6 .i16),
      (0x0D0544B606020000, .vminu 42 9 27 6 .i8),
      (0x0E04391C06010000, .vmaxu 33 50 14 6 .i16),
      (0x0F05448002010000, .vabs 42 9 2 .i16),
      (0x100250E402050000, .vadds 18 33 50 2 true .i16),
      (0x110544B606050000, .vsubs 42 9 27 6 true .i16),
      (0x18064761E1D2F5A3, .vaddi 50 14 6 .i16 0xe1d2f5a3),
      (0x19012DE200000007, .vshli 9 27 6 .i8 7),
      (0x1A06476100000005, .vshri 50 14 6 .i16 5),
      (0x1B012DE200000006, .vsrai 9 27 6 .i8 6),
      (0x1C064022DF874BD6, .vmovi 50 2 .i8 0xdf874bd6)].all (reads .v) = true := by decide

/-- R105, R106: words of slot kind V laid out from the forms. -/
theorem test_decode_vector_3 :
    [(0x1D05448002010000, .vbcast 42 9 2 .i16),
      (0x200250E402000000, .vfadd 18 33 50 2),
      (0x2104E2D407000000, .vfsub 39 5 42 7),
      (0x22037F2405000000, .vfmul 27 62 18 5),
      (0x2506474E03000000, .vfmin 50 14 39 3),
      (0x260544B606000000, .vfmax 42 9 27 6),
      (0x230250E476000000, .vfma 18 33 50 14 6),
      (0x2400B512DE000000, .vfms 5 42 9 27 6),
      (0x2702508007000000, .vfabs 18 33 7),
      (0x2801D38003000000, .vfneg 14 39 3),
      (0x2905448002000000, .vfrcp 42 9 2)].all (reads .v) = true := by decide

/-- R105, R106: words of slot kind V laid out from the forms. -/
theorem test_decode_vector_4 :
    [(0x2A07C90005000000, .vfrsq 62 18 5),
      (0x2B06470006000000, .vfexp 50 14 6),
      (0x3000B50007960000, .vcvt 5 42 7 .t8 .i16),
      (0x3102508007AA0000, .vpack 18 33 7 true 2 .t6),
      (0x3205448002390000, .vunpk 42 9 2 3 .t8),
      (0x3800B91C06020000, .vcmp 5 50 14 6 .lt),
      (0x3900A4B606040000, .vfcmp 5 9 27 6 .ne),
      (0x3A00B90002020000, .vnf 5 50 2 .inf),
      (0x3B00751202060000, .vnfq 3 42 9 2 true .inf),
      (0x4000A38400010000, .mand 5 7 2 true),
      (0x4100628E00010000, .mor 3 5 7 true)].all (reads .v) = true := by decide

/-- R105, R106: words of slot kind V laid out from the forms. -/
theorem test_decode_vector_5 :
    [(0x4200C18A00010000, .mxor 6 3 5 true),
      (0x4300430000000000, .mnot 2 6),
      (0x4400A28007000000, .mpop 5 5 7),
      (0x4501E30003010000, .many 15 6 3 true),
      (0x4806474E03000000, .vperm 50 14 39 3),
      (0x490544B606030000, .vshuf 42 9 27 6 .odd),
      (0x4A04391C06010000, .vrot 33 50 14 6 true),
      (0x4B0544B633000000, .vsel 42 9 27 6 3),
      (0x4C04391C00010000, .vext 33 50 14 true),
      (0x4D00B51200000000, .vins 5 42 9),
      (0x50037F0003060000, .vradd 27 62 3 true .i8)].all (reads .v) = true := by decide

/-- R105, R106: words of slot kind V laid out from the forms. -/
theorem test_decode_vector_6 :
    [(0x5101D38003050000, .vrmin 14 39 3 true .i16),
      (0x52037F0003060000, .vrmax 27 62 3 true .i8),
      (0x5301D38003010000, .vrfadd 14 39 3 true),
      (0x54012D8006000000, .vrfmin 9 27 6),
      (0x5502508007000000, .vrfmax 18 33 7)].all (reads .v) = true := by decide

/-- R105, R106: words of slot kind M laid out from the forms. -/
theorem test_decode_matrix_1 :
    [(0x01014E2D44A7C700, .mma 2 39 5 42 9 .bf16 62 true true true),
      (0x0200538000000000, .scx 2 39),
      (0x0300035448390000, .mdrn 6 42 9 true true .t8),
      (0x0404271D38350000, .mdrnb 33 14 14 39 true true .i8),
      (0x0500400000010000, .mzero 2 true),
      (0x0600C50000010000, .mmov 6 10 true),
      (0x0700460000010000, .mtrn 2 12 true),
      (0x08014480020F0000, .mwrv 10 9 2 15),
      (0x0902450007080000, .mrdv 18 10 7 8),
      (0x0A00138000000000, .mpset 39),
      (0x0B00028000000000, .mcset 5)].all (reads .m) = true := by decide

/-- R105, R106: words of slot kind M laid out from the forms. -/
theorem test_decode_matrix_2 :
    [(0x0C00150000000000, .mrpwr 42),
      (0x0D01210000000000, .msrd 9 .mrp),
      (0x0E00060000000000, .mqwait 12 false)].all (reads .m) = true := by decide

/-- R105, R106: words of slot kind L laid out from the forms. -/
theorem test_decode_memory_1 :
    [(0x010439060FE1D2F5, .ld 33 50 .d true 0x7e1d2f5),
      (0x020544B6000C0000, .ldx 42 9 27 true .s8),
      (0x030439060F0E97AD, .st 33 50 3 true 0x70e97ad),
      (0x040544B6000A0000, .stx 42 9 27 true 2),
      (0x05043905F874BD68, .sti 33 50 true 1 0xf874bd68),
      (0x080544A00FC3A5EB, .vld 42 9 2 true 0x7c3a5eb),
      (0x090439200BA5EB47, .vst 33 50 2 true 0x3a5eb47),
      (0x0A0544B606010000, .vlds 42 9 27 6 true),
      (0x0B04391C06010000, .vsts 33 50 14 6 true),
      (0x0C0544B606050000, .vgth 42 9 27 6 true 1),
      (0x0D06474E03050000, .vsct 50 14 39 3 true 1)].all (reads .l) = true := by decide

/-- R105, R106: words of slot kind L laid out from the forms. -/
theorem test_decode_memory_2 :
    [(0x0E037F3208E97AD1, .vldb 27 62 3 .u16 true 0xe97ad1),
      (0x100182820F874BD6, .qld 12 5 true true 0x7874bd6),
      (0x110189020F4BD68F, .qst 12 18 true true 0x74bd68f),
      (0x1804E2D418F80000, .amo 39 5 42 .die .ar 3 .maxu),
      (0x1904391D38630000, .cas 33 50 14 39 .acq 2 .die),
      (0x1A037F2417D70000, .vamo 27 62 18 .clu 7 .ar true .minu),
      (0x1B05448551D2F5A3, .ald 42 9 .u32 .pod .acq 0x1d2f5a3),
      (0x20064702061D2F5A, .xlat 50 14 true 0x61d2f5a),
      (0x2100000080000000, .drain .clu),
      (0x22012DE0052F5A3C, .mcast 9 27 6 0x52f5a3c),
      (0x2500108FC3A5EB47, .bfmt 33 0xf 0xc3a5eb47)].all (reads .l) = true := by decide

/-- R105, R106: words of slot kind L laid out from the forms. -/
theorem test_decode_memory_3 :
    [(0x2604E284C61D2F5A, .ldt 39 5 .u32 12 0x61d2f5a),
      (0x2707C950C52F5A3C, .vldt 62 18 5 12 0x52f5a3c)].all (reads .l) = true := by decide

/-- R105, R106: words of slot kind X laid out from the forms. -/
theorem test_decode_exchange_1 :
    [(0x01001381D68F0100, .note 39 0x1d68f true),
      (0x020004B6BD680100, .pull 9 27 0xbd68 true),
      (0x0200004297AD0200, .pullRank 33 0x97ad),
      (0x0300074FD2F50100, .pulladd 14 39 0x1d2f5 true),
      (0x0400001200000000, .decl 9),
      (0x0500003600000000, .wdraw 27),
      (0x0807C90000010000, .nbrd 62 18 1),
      (0x0906400000010000, .nbcnt 50 .off),
      (0x0A04E28000010000, .nbfind 39 5 0 true),
      (0x0B000DFC00000000, .pwinSet 27 62),
      (0x0B00000000010000, .pwinReset)].all (reads .x) = true := by decide

/-- R105, R106: words of slot kind X laid out from the forms. -/
theorem test_decode_exchange_2 :
    [(0x0C00090000000000, .rkset 18),
      (0x0D04391C00000000, .ngrpNew 33 50 14),
      (0x0D04E28000010000, .ngrpFree 39 5),
      (0x1000151297AD0000, .rcont 42 9 0x97ad),
      (0x11001F25D2F50000, .rroot 62 18 0x1d2f5),
      (0x1800191DD68F0000, .agload 50 14 0x1d68f),
      (0x1900028000000000, .agrel 5),
      (0x1A001512BD680000, .agrun 42 9 0xbd68),
      (0x1B00007C00000000, .agwait 62),
      (0x200250E5A5EB0000, .rget 18 33 50 0x1a5eb),
      (0x2104E2D5D68F0100, .rput 39 5 42 0x1d68f true)].all (reads .x) = true := by decide

/-- R105, R106: words of slot kind X laid out from the forms. -/
theorem test_decode_exchange_3 :
    [(0x2200007D7AD10000, .rflush 62 0x17ad1),
      (0x2804200000040000, .xstat 33 .miss),
      (0xE000074F4BD60000, .ckey 14 39 0x14bd6)].all (reads .x) = true := by decide

/-- R105, R106: words of slot kind A laid out from the forms. -/
theorem test_decode_engine_1 :
    [(0x010015135A3C0D00, .copy 42 9 0x15a3c true true 1),
      (0x0200191CBD680700, .copyc 50 14 0xbd68 true 3),
      (0x08012DFC00000100, .spawn 9 27 62 true),
      (0x0904390000000000, .fref 33 50),
      (0x0A01D38000000000, .fdrop 14 39),
      (0x0C00B50000000000, .fset 5 42),
      (0x0F012D8000000000, .fstat 9 27),
      (0x0B07C90038000000, .fawait 62 18 7),
      (0x0D00000000000000, .fpin),
      (0x0E00000000000000, .funpin),
      (0x1006474E00000000, .ssnap 50 14 39)].all (reads .a) = true := by decide

/-- R105, R106: words of slot kind A laid out from the forms. -/
theorem test_decode_engine_2 :
    [(0x1100B51200000000, .sroll 5 42 9),
      (0x12037F2400000000, .sfork 27 62 18),
      (0x1304391D4BD60000, .sld 33 50 14 0x14bd6),
      (0x1400B513AD1E0000, .sst 5 42 9 0x1ad1e),
      (0x1507C90000000100, .sdrop 62 18 0 true),
      (0x1801D3812F5A0000, .kvst 14 39 0x12f5a),
      (0x1905401200000000, .kvnx 42 9),
      (0x1903607C00000100, .kvnxEnd 27 62),
      (0x1A0250E5EB470300, .hmsg 18 33 50 0x1eb47 3),
      (0x2000B5132F5A0100, .swset 5 42 9 0x12f5a true),
      (0x21000943D2F50000, .swadd 18 33 0x1d2f5)].all (reads .a) = true := by decide

/-- R105, R106: words of slot kind A laid out from the forms. -/
theorem test_decode_engine_3 :
    [(0x2201D381D68F0100, .swrd 14 39 0x1d68f true),
      (0x23010D8000000000, .rtwr 8 27),
      (0x2407C40000000000, .rtrd 62 8),
      (0x2500108000000000, .rtarm 33),
      (0xE000191C00000000, .qmap 50 14),
      (0xE100004E00000000, .qunmap 39),
      (0xE200000A00000000, .qkick 5)].all (reads .a) = true := by decide

/-- R107, R108: a register, count or selector past its class or limit is ill-formed. -/
theorem test_wf_refuses_1 :
    [.brr 64 0x1a5eb47, .call 64 0xe97ad1, .callr 33 64 0x1d2f5a, .ret 64, .btab 5 64 0x1e1d2f5, .beq 27 64 0x14bd68f,
      .bne 33 64 0xe97ad1, .blt 39 64 0x1d2f5a, .bge 9 64 0x1c3a5eb, .bltu 18 64 0x97ad1e, .bgeu 14 64 0x1d2f5a3, .loopn 1 16,
      .loopx 4, .waitG 62 64 0x14bd6, .waitT 64 0x1d2f5, .xabort 5 64 0xc3a5eb47, .trap 64 0xf0e97ad1, .rngr 18 64 true,
      .rngw 14 39 64, .ppwset 64, .ctxsave 9 64 0x1d68f, .ctxload 18 64 0x17ad1 true, .shoot 39 5 64 true, .wdset 64 .yd 0x1d2f5a3c,
      .add 33 50 64, .sub 39 5 64, .and 9 27 64, .or 18 33 64, .xor 14 39 64, .andn 42 9 64,
      .shl 62 18 64, .shr 50 14 64, .sra 5 42 64, .rol 27 62 64, .ror 33 50 64, .min 39 5 64,
      .max 9 27 64, .minu 18 33 64, .maxu 14 39 64, .clz 42 64].all (fun i => wf i == false) = true := by decide

/-- R107, R108: a register, count or selector past its class or limit is ill-formed. -/
theorem test_wf_refuses_2 :
    [.ctz 27 64, .popc 18 64, .bswap 50 64, .sext 39 5 63, .zext 9 27 63, .bfx 18 33 64 true,
      .bfi 39 5 42 64, .cmp 15 62 64 .ltu, .sel 50 14 39 16, .lea 42 9 27 64, .fland 3 7 16 true, .flor 9 3 16 true,
      .flxor 15 9 16 true, .addi 50 64 0xc3a5eb47, .andi 5 64 0xf874bd68, .ori 27 64 0xbf0e97ad, .xori 33 64 0xb7e1d2f5, .shli 39 64 0x2d,
      .shri 9 64 0x3d, .srai 18 64 0x3f, .cmpi 15 64 .tst 0xb7e1d2f5, .movi 64 0x15bf0e97ad1e, .movhi 64 0xd6fc3a5eb47, .mul 33 50 64,
      .mulh 39 5 64, .mulhu 9 27 64, .rdsp 64 .cyc, .lcrd 50 6, .lcwr 5 64, .nrd 42 1 16,
      .nwr 3 18 16, .fadd 50 14 64 .b32, .fsub 42 9 64 .b32, .fmul 18 33 64 .b32, .fmin 39 5 64 .b32, .fmax 27 62 64 .b32,
      .fcpys 50 14 64 .b32, .fma 42 9 27 64 .b32, .fms 33 50 14 64 .b32, .fnma 42 9 27 64 .b32].all (fun i => wf i == false) = true := by decide

/-- R107, R108: a register, count or selector past its class or limit is ill-formed. -/
theorem test_wf_refuses_3 :
    [.fabs 33 64 .b32, .fneg 39 64 .b32, .fclass 9 64 .b32, .fsqrt 18 64 .b32, .frcp 14 64 .b32, .frsq 42 64 .b32,
      .fcmp 9 18 64 .ne .b32, .fcvt 39 64 .b32 .b16, .ftoi 27 64 true .rz .b32, .itof 14 64 true .b32, .frnd 9 64 .up .b32, .sysr 64 .pkg,
      .sysw 64 .xepc, .vadd 5 42 9 8 .i16, .vsub 18 33 50 8 .i8, .vmul 5 42 9 8 .i16, .vmulh 18 33 50 8 true .i16, .vand 42 9 27 8 .i8,
      .vor 33 50 14 8 .i16, .vxor 42 9 27 8 .i8, .vshl 33 50 14 8 .i16, .vshr 42 9 27 8 .i8, .vsra 33 50 14 8 .i16, .vmin 42 9 27 8 .i8,
      .vmax 33 50 14 8 .i16, .vminu 42 9 27 8 .i8, .vmaxu 33 50 14 8 .i16, .vabs 42 9 8 .i16, .vadds 18 33 50 8 true .i16, .vsubs 42 9 27 8 true .i16,
      .vaddi 50 14 8 .i16 0xe1d2f5a3, .vshli 9 27 8 .i8 7, .vshri 50 14 8 .i16 5, .vsrai 9 27 8 .i8 6, .vmovi 50 8 .i8 0xdf874bd6, .vbcast 42 9 8 .i16,
      .vfadd 18 33 50 8, .vfsub 39 5 42 8, .vfmul 27 62 18 8, .vfmin 50 14 39 8].all (fun i => wf i == false) = true := by decide

/-- R107, R108: a register, count or selector past its class or limit is ill-formed. -/
theorem test_wf_refuses_4 :
    [.vfmax 42 9 27 8, .vfma 18 33 50 14 8, .vfms 5 42 9 27 8, .vfabs 18 33 8, .vfneg 14 39 8, .vfrcp 42 9 8,
      .vfrsq 62 18 8, .vfexp 50 14 8, .vcvt 5 42 8 .t8 .i16, .vpack 18 33 7 true 4 .t6, .vunpk 42 9 2 4 .t8, .vcmp 5 50 14 8 .lt,
      .vfcmp 5 9 27 8 .ne, .vnf 5 50 8 .inf, .vnfq 3 42 9 8 true .inf, .mand 5 7 8 true, .mor 3 5 8 true, .mxor 6 3 8 true,
      .mnot 2 8, .mpop 5 5 8, .many 15 6 8 true, .vperm 50 14 39 8, .vshuf 42 9 27 8 .odd, .vrot 33 50 14 8 true,
      .vsel 42 9 27 6 8, .vext 33 50 64 true, .vins 5 42 64, .vradd 27 62 8 true .i8, .vrmin 14 39 8 true .i16, .vrmax 27 62 8 true .i8,
      .vrfadd 14 39 8 true, .vrfmin 9 27 8, .vrfmax 18 33 8, .mma 2 39 5 42 9 .bf16 64 true true true, .scx 2 64, .mdrn 6 42 64 true true .t8,
      .mdrnb 33 14 14 64 true true .i8, .mzero 16 true, .mmov 6 16 true, .mtrn 2 16 true].all (fun i => wf i == false) = true := by decide

/-- R107, R108: a register, count or selector past its class or limit is ill-formed. -/
theorem test_wf_refuses_5 :
    [.mwrv 10 9 2 16, .mrdv 18 10 7 16, .mpset 64, .mcset 64, .mrpwr 64, .msrd 64 .mrp,
      .mqwait 16 false, .ld 33 64 .d true 0x7e1d2f5, .ldx 42 9 64 true .s8, .st 33 50 4 true 0x70e97ad, .stx 42 9 27 true 4, .sti 33 50 true 4 0xf874bd68,
      .vld 42 9 8 true 0x7c3a5eb, .vst 33 50 8 true 0x3a5eb47, .vlds 42 9 27 8 true, .vsts 33 50 14 8 true, .vgth 42 9 27 6 true 4, .vsct 50 14 39 3 true 4,
      .vldb 27 62 8 .u16 true 0xe97ad1, .qld 12 64 true true 0x7874bd6, .qst 12 64 true true 0x74bd68f, .amo 39 5 42 .die .ar 4 .maxu, .cas 33 50 14 39 .acq 4 .die, .vamo 27 62 18 .clu 8 .ar true .minu,
      .ald 42 64 .u32 .pod .acq 0x1d2f5a3, .xlat 50 64 true 0x61d2f5a, .mcast 9 27 8 0x52f5a3c, .bfmt 64 0xf 0xc3a5eb47, .ldt 39 5 .u32 16 0x61d2f5a, .vldt 62 18 5 16 0x52f5a3c,
      .note 64 0x1d68f true, .pull 9 64 0xbd68 true, .pullRank 64 0x97ad, .pulladd 14 64 0x1d2f5 true, .decl 64, .wdraw 64,
      .nbrd 62 18 5, .nbcnt 64 .off, .nbfind 39 5 64 true, .pwinSet 27 64].all (fun i => wf i == false) = true := by decide

/-- R107, R108: a register, count or selector past its class or limit is ill-formed. -/
theorem test_wf_refuses_6 :
    [.rkset 64, .ngrpNew 33 50 64, .ngrpFree 39 64, .rcont 42 64 0x97ad, .rroot 62 64 0x1d2f5, .agload 50 64 0x1d68f,
      .agrel 64, .agrun 42 64 0xbd68, .agwait 64, .rget 18 33 64 0x1a5eb, .rput 39 5 64 0x1d68f true, .rflush 64 0x17ad1,
      .xstat 64 .miss, .ckey 14 64 0x14bd6, .copy 42 9 0x15a3c true true 4, .copyc 50 14 0xbd68 true 4, .spawn 9 27 64 true, .fref 33 64,
      .fdrop 14 64, .fset 5 64, .fstat 9 64, .fawait 62 18 16, .ssnap 50 14 64, .sroll 5 42 64,
      .sfork 27 62 64, .sld 33 50 64 0x14bd6, .sst 5 42 64 0x1ad1e, .sdrop 62 18 64 true, .kvst 14 64 0x12f5a, .kvnx 42 64,
      .kvnxEnd 27 64, .hmsg 18 33 64 0x1eb47 3, .swset 5 42 64 0x12f5a true, .swadd 18 64 0x1d2f5, .swrd 14 64 0x1d68f true, .rtwr 8 64,
      .rtrd 62 16, .rtarm 64, .qmap 50 64, .qunmap 64].all (fun i => wf i == false) = true := by decide

/-- R107, R108: a register, count or selector past its class or limit is ill-formed. -/
theorem test_wf_refuses_7 :
    [.qkick 64].all (fun i => wf i == false) = true := by decide

/-- The limits that instructions' descriptions add. -/
theorem test_wf_refuses_operands :
    [.shli 1 2 64, .shri 1 2 64, .srai 1 2 64, .vshli 1 2 0 .i8 8, .vshri 1 2 0 .i16 16, .vsrai 1 2 0 .i32 32,
      .fcvt 1 2 .raw .b32, .fcvt 1 2 .bx8 .b32, .vcvt 1 2 0 .b64 .b32, .vpack 1 2 0 false 2 .b16, .vpack 1 2 0 false 0 .b32, .vunpk 1 2 0 2 .i16,
      .vshuf 1 2 3 0 .rev, .mma 1 2 3 4 5 .b64 1 false false false, .mma 0 2 3 4 5 .i8 1 false false false, .mdrn 0 1 2 false false .bx8, .mdrnb 1 0 1 2 false false .bx8, .mdrn 1 2 3 true false .b32,
      .mzero 1 true, .mmov 1 2 true, .mmov 2 1 true, .mtrn 3 2 true, .mqwait 1 true, .vldb 1 2 0 .d false 0,
      .vldb 1 2 0 .s32 false 0, .qld 1 2 true false 0, .qst 3 2 true false 0, .amo 1 2 3 .pkg .rlx 1 .fadd, .vamo 1 2 3 .pkg 0 .rlx false .add, .ald 1 2 .d .pkg .rel 0,
      .spawn 1 2 3 false, .swset 1 2 3 0 false].all (fun i => wf i == false) = true := by decide

/-- R109, R233: NOP, a hint and the prefetches, which are no constructor with operands. -/
theorem test_decode_no_effect :
    (decodeSlot .c 0 = some ⟨0, false, .nop, 0⟩ ∧ decodeSlot .x 0x00F0000000000000 = some ⟨15, false, .nop, 0⟩ ∧ decodeSlot .s 1 = none) ∧
    decodeSlot .m 0xF300000000000001 = some ⟨0, false, .hint, 3 * 2 ^ 51 + 1⟩ ∧
    decodeSlot .l 0x2300028000000040 = some ⟨0, false, .pref, 0x28000000040⟩ ∧
    decodeSlot .l 0x2400028000000040 = some ⟨0, false, .prefw, 0x28000000040⟩ := by decide +kernel

/-- The words of a bundle lie in ascending slot order (R104). -/
theorem test_table_word_finds_its_slot :
    decodeTableWord 512 (0x2000A20000000040 * 2 ^ 64) = some (.addi 5 4 64) ∧
    decodeTableWord 512 (0x2100001200200000 * 2 ^ 448) = some (.swadd 0 9 0x20) ∧ decodeTableWord 64 0x0900C07FFFFFC000 = some (.bne 6 0 (-1)) := by
  decide +kernel

/-! ### States -/

/-- Context 0 ready in a task at level 2, its bundle at offset 0 of the scratchpad of core 0. -/
def base : State := placeBundle State.reset 0

/-- base with these scalar registers. -/
def withS (l : List (Nat × Word)) : State :=
  updCtx base 0 fun c => { c with regs := { c.regs with s := l.foldl (fun m e => sins m e.1 e.2) [] } }

/-- base with its context changed. -/
def withC (f : Ctx → Ctx) : State := updCtx base 0 f

/-- base with core 0 changed. -/
def withU (f : CoreSt → CoreSt) : State := updCore base 0 f

/-! ### Witnesses: encoding, reset, scalar and control statements -/

theorem witness_DecodeInvertsEncode :
    slotWf ⟨3, true, .bne 6 0 (-1), 0⟩ = true ∧ encodeSlot ⟨3, true, .bne 6 0 (-1), 0⟩ = some (.c, 0x0938C07FFFFFC000) ∧
    decodeSlot .c 0x0938C07FFFFFC000 = some ⟨3, true, .bne 6 0 (-1), 0⟩ ∧ isSlot .reissue = false := by decide +kernel

theorem witness_DecodeTraps_slots :
    (privOpcode (slotKind 0) (slotWord 0xE700000000000000 0) = true ∧ (ctxOf (withC fun c => { c with pl := 0 }) 0).pl = 0) ∧
    (privOpcode (slotKind 1) (slotWord (0x5400000000000000 * 2 ^ 64) 1) = false ∧ decodeSlot (slotKind 1) (slotWord (0x5400000000000000 * 2 ^ 64) 1) = none) ∧
    (decodeSlot (slotKind 3) (slotWord (0x2006608400000000 * 2 ^ 192) 3) = some ⟨0, false, .vfadd 51 1 2 0, 0⟩ ∧
      fitsPartition (vregCount (coreAt base 0).vreg) (tileCount (coreAt base 0).tile) (.vfadd 51 1 2 0) = false) := by decide +kernel

/-- The operations of a bundle whose slots 1 and 2 hold ADD and MUL to sd. -/
def twice (d i : Nat) : SlotOp := if i = 1 then ⟨0, false, .add d 4 0, 0⟩ else if i = 2 then ⟨0, false, .mul d 4 0, 0⟩ else ⟨0, false, .nop, 0⟩

/-- Every slot of the bundle holds the operation, fits its partition and is not privileged. -/
def holdsOps (b : Nat) (o : Nat → SlotOp) : Bool :=
  (List.range 8).all fun i => decodeSlot (slotKind i) (slotWord b i) == some (o i) &&
    fitsPartition (vregCount (coreAt base 0).vreg) (tileCount (coreAt base 0).tile) (o i).ins && !privOpcode (slotKind i) (slotWord b i)

theorem witness_DecodeTraps_bundle :
    holdsOps ((0x0100A20000000000 + 0x3000A20000000000 * 2 ^ 64) * 2 ^ 64) (twice 5) = true ∧
    (Reg.s 5 ∈ writesOf (twice 5 1).ins ∧ Reg.s 5 ∈ writesOf (twice 5 2).ins ∧ writesOf (twice 5 0).ins = []) ∧
    (fetch (placeBundle State.reset 1) 0).2 = .ok 1 ∧ decodeBundle (fetch (placeBundle State.reset 1) 0).1 0 1 = .inl (0x01, 0) := by decide +kernel

theorem witness_StepRunsDecodedBundle :
    base.schedule = [] ∧ base.ready = [] ∧ base.timers = [] ∧ base.turn = [0] ∧ (coreAt base 0).gated = false ∧ quarterHeld base (quarterOf 0) = false ∧
    (coreAt base 0).selAt ≤ base.cyc ∧ (ctxOf base (4 * 0 + (coreAt base 0).sel)).st = .ready ∧ (ctxOf base 0).async = [] ∧
    (fetch base 0).2 = .ok 0 ∧
    (match decodeBundle base 0 0 with
      | .inr os => bundleHeld base (workOf base 0 os) == none && !capacityShort base os && (workOf base 0 os).length == 8
      | .inl _ => false) = true := by decide +kernel

theorem witness_StepRunsDecodedBundle_timer :
    isSlot .reissue = false ∧ issues .reissue = false ∧ (∃ (d : Nat), d ≤ base.cyc) := ⟨by decide, by decide, 0, by decide +kernel⟩

theorem witness_StepKeepsMemoryCanonical :
    Memory.wf base.mem = true ∧ (match step base with | .next t => Memory.wf t.mem && (ctxOf t 0).pc == 0x10040 | _ => false) = true := by decide +kernel

theorem witness_RegisterOnlyFrame : registerOnly (.add 1 2 3) = true ∧ registerOnly (.vfexp 1 2 0) = true ∧ registerOnly (.st 1 2 3 false 0) = false := by decide

theorem witness_HardwiredRegisters :
    holdsOps ((0x0100020000000000 + 0x3000020000000000 * 2 ^ 64) * 2 ^ 64) (twice 0) = true ∧
    bundleReserve ((List.range 8).map (twice 0)) = (0, 0) ∧ ((List.range 8).all fun i => (writesOf (twice 0 i).ins).all (· == .s 0)) = true := by
  decide +kernel

theorem witness_ScalarIntegerResults :
    ((63#32).toNat ≤ 63 ∧ (0x0B, Instr.ror).1 = 0x0B ∧ 63 < 64) ∧ wf (.sext 1 2 62) = true ∧ (ctxOf base 0).task = some {} := by decide +kernel

theorem witness_RootsAndRoundingsAreExact : (0 < 1 ∧ 1 < 2 ^ 64) ∧ (0 < 2 ^ 64 - 1 ∧ 2 ^ 64 - 1 < 2 ^ 64) ∧ (-2 ^ 63 : Int) ≤ 2 ^ 63 - 1 := by decide

theorem witness_ScalarFloatResults_signs :
    decodeNum .b64 ((readS (withS [(3, 0x7FF0000000000001)]) 3).toNat % 2 ^ 64) = .nan ∧
    decodeNum .b32 ((readS (withS [(3, 0x3F800000)]) 3).toNat % 2 ^ 32) ≠ .nan := by decide +kernel

theorem witness_DecodedValuesEncodeBack :
    0x7F80 < 2 ^ fmtBits .bf16 ∧ decodeNum .bf16 0x7F80 ≠ .nan ∧ decodeNum .b64 1 ≠ .nan ∧ (0x7F ≠ 0x80 ∧ 0x7F < 2 ^ 8) ∧ 0x3F ≠ 0x20 ∧ 0x3F < 2 ^ 6 := by
  decide +kernel

/-- A context in an active loop of one pass whose body ends at base's bundle. -/
def looped : State :=
  withC fun c => { c with regs := { c.regs with loop := { active := true, nest := 2, body := 0x10000, endPc := 0x10040, desc := List.replicate 16 0x100000001 } } }

theorem witness_TransfersAndBundleOrder :
    ((readS (withS [(3, 0x10040)]) 3).toNat % 64 = 0 ∧ (readS (withS [(3, 0x10001)]) 3).toNat % 64 ≠ 0) ∧
    (readS base 3 = readS base 4 ∧ readS (withS [(3, 1)]) 3 ≠ readS (withS [(3, 1)]) 4) ∧
    (base.iss.loopn = none ∧ base.iss.loopTo = none ∧ { base.iss with target := some (0x40 : Word) }.target = some 0x40 ∧ base.iss.target = none) ∧
    (me base).regs.loop.active = false ∧ (me looped).regs.loop.active = true ∧ (0x10000 : Word) + 64 = (me looped).regs.loop.endPc := by
  decide +kernel

/-- base with every word of nest register 2 as given. -/
def nested (l : List (Nat × Word)) : State := withC fun c => { c with regs := { c.regs with n := l } }

theorem witness_NestLoops :
    ((me looped).regs.loop.active = true ∧ (me looped).regs.loop.nest = 2) ∧
    nestMalformed ((List.range 16).map fun w => readN (nested [(35, 0x40)]) 2 w) = true ∧
    nestMalformed ((List.range 16).map fun w => readN base 2 w) = false ∧ nestCount ((List.range 16).map fun w => readN base 2 w) 0 = 0 ∧
    (nestMalformed ((List.range 16).map fun w => readN (nested [(32, 0x100000001), (33, 0x100000001), (34, 0x100000001)]) 2 w) = false ∧
      (List.range 6).all (fun d => nestCount ((List.range 16).map fun w => readN (nested [(32, 0x100000001), (33, 0x100000001), (34, 0x100000001)]) 2 w) d == 1)
        = true) ∧
    ([0, 1, 2, 0, 0, 0].length = 6 ∧ (List.range 6).all (fun d => decide ([0, 1, 2, 0, 0, 0].getD d 0 < 3)) = true) := by decide +kernel

theorem witness_WaitsAndBoundaries :
    ((readS (withS [(3, 8)]) 3 + BitVec.ofNat 64 (16 * (1#17).toNat)).toNat % 16 ≠ 0) ∧
    ((readS (withS [(3, 0x200000)]) 3 + BitVec.ofNat 64 (16 * (1#17).toNat)).toNat % 16 = 0 ∧
      mySp base ≤ (readS (withS [(3, 0x200000)]) 3 + BitVec.ofNat 64 (16 * (1#17).toNat)).toNat) ∧
    ((readS base 3 + BitVec.ofNat 64 (16 * (1#17).toNat)).toNat % 16 = 0 ∧ (readS base 3 + BitVec.ofNat 64 (16 * (1#17).toNat)).toNat < mySp base) ∧
    (me looped).regs.loop.active = true ∧ (me base).regs.loop.active = false := by decide +kernel

/-- base with a pending reclaim. -/
def reclaimed : State := withC fun c => { c with reclaim := true }

theorem witness_AbortsTrapsAndPhases :
    ((readS (withS [(3, 1)]) 3).toNat % 64 ≠ 0 ∧ (readS base 3).toNat % 64 = 0 ∧ (me base).reclaim = false) ∧
    ((me reclaimed).reclaim = true ∧ (me reclaimed).mark.regs.pin = 0 ∧ (readS reclaimed 3).toNat % 64 = 0) ∧
    ({ task := some {} : Ctx }.task = some {} ∧ ({ record := { trip := 2, itr := 3 }, phase := .kernel, iter := 0 } : TaskRun).iter + 1 < 2) := by
  decide +kernel

/-! ### Witnesses: vectors and matrix -/

theorem witness_VectorElementResults : ((7#32).toNat < ElemWidth.i8.bits) ∧ ((31#32).toNat < ElemWidth.i32.bits) ∧ 0 < 2048 / ElemWidth.i8.bits := by decide

theorem witness_VectorFloatAndExponential :
    (-149 : Int) ≤ -149 ∧ (-149 : Int) ≤ 127 ∧ (if true then -((596 : Nat) : Int) else 596) = (-149) * 2 ^ 2 ∧ (if false then -((254 : Nat) : Int) else 254) = 127 * 2 ^ 1 := by
  decide

/-- base with vector register 1 as given, bits of lane 0 first. -/
def withV (v : VecImage) : State := withC fun c => { c with regs := { c.regs with v := [(1, v)] } }

theorem witness_MaskAndPermuteResults :
    ((List.range 64).all fun i => !((elOf 32 (readV base 1) i) &&& 0x7F800000 == 0x7F800000)) = true ∧
    ((readM base 0).getLsbD 0 = true ∧ (elOf 32 (readV (withV 0x7F800001) 1) 0) &&& 0x7F800000 = 0x7F800000) ∧
    (63 < 64 ∧ 7 < 8) := by decide +kernel

theorem witness_ConversionAndPackResults :
    (fmtBits .t6 ≤ 32 ∧ fmtBits .b32 ≤ 32) ∧ (.t6 ∈ [Fmt.b16, .bf16, .i8, .i16, .t8, .t6, .bx8] ∧ 3 < 256 / (64 * ((fmtBits .t6 + 7) / 8))) ∧
    (.b16 ∈ [Fmt.b16, .bf16, .i8, .i16, .t8, .t6] ∧ 1 < 256 / (64 * ((fmtBits .b16 + 7) / 8))) := by decide

/-- base with mask 3 selecting no lane. -/
def noLanes : State := base

theorem witness_ReductionResults :
    ((List.range 64).filter (readM noLanes 3).getLsbD = [] ∧ (List.range 64).filter (readM noLanes 0).getLsbD ≠ []) ∧
    (decodeNum .b32 (elOf 32 (readV (withV 0x7F800001) 1) 0).toNat = .nan ∧ (readM (withV 1) 0).getLsbD 0 = true) ∧
    ((List.range 64).all fun j => !(decodeNum .b32 (elOf 32 (readV base 1) j).toNat == .nan)) = true := by decide +kernel

/-- A pass of context 0 on core 0 into tile 2, taper-8, one K-block of scratchpad operands. -/
def pass0 : Pass :=
  { id := 7, q := 2, fmt := .t8, kb := 1, aBase := 0x1000, aStride := 32, bBase := 0x2000, bStride := 32, wa := true, wb := true, z := false, mcfg := 0, mpat := 0 }

/-- base with that pass in a state. -/
def passed (st : PassSt) (fc : Nat) : State :=
  { withU fun u => { u with passes := [{ pass0 with st, susp := { fc } }] } with subj := { id := 7 } }

theorem witness_TilesAndMatrixRegisters :
    (readS base 3 &&& 0xFFFFFFFFFFE0E0FC = 0 ∧ readS (withS [(3, 4)]) 3 &&& 0xFFFFFFFFFFE0E0FC ≠ 0) ∧
    ((readS (withS [(3, 0x400000)]) 3).toNat / 2 ^ 22 ≠ 0 ∧ (readS base 3).toNat / 2 ^ 22 = 0 ∧ suspendedPass base base.at_ = none) ∧
    ((readS (withS [(3, 1)]) 3).getLsbD 0 = true ∧ (readS base 3).getLsbD 0 = false) ∧
    (suspendedPass (passed .suspended 1) 0).isSome = true ∧ (2 = pass0.q ∧ 0 < pass0.kb ∧ 3 ≠ pass0.q) := by decide +kernel

/-- base with strides and bases of a scratchpad operand pair, and of a drain, in s3 to s6. -/
def operands : State := withS [(3, 0x1000), (4, 32), (5, 0x4000), (6, 0x100)]

theorem witness_MatrixPassesRun_mma :
    (misplaced .b16 (readS (withS [(3, 1)]) 3) (readS operands 4) = true) ∧
    (misplaced .t8 (readS operands 3) (readS operands 4) = false ∧ misplaced .t8 (readS operands 5) (readS operands 4) = false ∧
      resolveFmt operands .t8 ⟨true, (readS operands 3).toNat⟩ = .t8 ∧
      checkRows operands true .read (operandRows false 0 (readS operands 3) (readS operands 4) .t8 1) = none ∧
      checkRows operands true .read (operandRows true 0 (readS operands 5) (readS operands 4) .t8 1) = none ∧
      banksConflict false .t8 (rowBanks operands true (operandRows false 0 (readS operands 3) (readS operands 4) .t8 1) ++
        rowBanks operands true (operandRows true 0 (readS operands 5) (readS operands 4) .t8 1)) = false) := by decide +kernel

theorem witness_MatrixPassesRun_unit :
    ((coreAt (passed .waiting 0) 0).passes.any Pass.runs = false ∧
      (coreAt (passed .waiting 0) 0).passes.find? (Pass.starts (coreAt (passed .waiting 0) 0).passes) = some pass0) ∧
    (passOf (passed .running 0) 0 7 = some { pass0 with st := .running } ∧ { pass0 with st := .running }.runs = true ∧ pass0.stop = false ∧
      pass0.kbn = 0 ∧ pass0.due ≤ base.cyc ∧ pass0.fmt ∈ [Fmt.t8, .t6, .b16, .bf16]) ∧
    (passOf (passed .suspended 3) 0 7 = some { pass0 with st := .suspended, susp := { fc := 3 } }) := by decide +kernel

/-- base with the partial sums of pass0's K-block on the port. -/
def onPort : State :=
  { withU fun u => { u with passes := [pass0], sums := [{ id := 9, ctx := 0, pass := 7, at_ := 0, kb := 0, bytesA := [], bytesB := [] }] } with subj := { id := 9 } }

theorem witness_FoldAddsTheExactSum :
    ((coreAt onPort 0).sums.find? fun x => x.id == onPort.subj.id) = some { id := 9, ctx := 0, pass := 7, at_ := 0, kb := 0, bytesA := [], bytesB := [] } ∧
    passOf (updCore onPort 0 fun u => { u with sums := u.sums.filter fun x => x.id != 9 }) 0 7 = some pass0 ∧
    pass0.fmt ∈ [Fmt.t8, .t6, .b16, .bf16] ∧ pass0.mpat = 0 ∧ pass0.pair = false := by decide +kernel

theorem witness_DrainResults_scratch :
    misplaced .t8 (readS operands 5) (readS operands 4) = false ∧
    checkRows operands true .write (drainRows (me operands).regs.mcfg (readS operands 5) (readS operands 4) .t8) = none ∧
    banksConflict false .t8 (rowBanks operands true (drainRows (me operands).regs.mcfg (readS operands 5) (readS operands 4) .t8)) = false := by
  decide +kernel

/-- base with a page table of address space 0: its page at intermediate address 2^48 lies in frame 6, writable and memory-side, and range
register 1 maps virtual address 2^32 to it. -/
def paged : State :=
  let s := setCreg (setCreg (withC fun c => { c with rregs := [(0, ⟨0x1000F, 0x1F⟩), (1, ⟨0x10000000F, 0x100000000000000⟩)] }) 0 .xlate 0 0x10000) 0 .xlate 8 1
  paPut (paPut (paPut (paPut s 0x10000 8 0x20001) 0x20200 8 0x40001) 0x40000 8 0x50001) 0x50000 8 0x60047

/-- paged with these scalar registers. -/
def pagedS (l : List (Nat × Word)) : State :=
  updCtx paged 0 fun c => { c with regs := { c.regs with s := l.foldl (fun m e => sins m e.1 e.2) [] } }

theorem test_walk_finds_the_leaf : walk paged 0 0 0x1000000000000 = .leaf 0x50000 0x60047 false ∧
    rangeCheck (me paged) 0x100000040 64 .write = .ok 0x1000000000040 ∧ windowOf 0 0x1000000000040 = .memory := by decide +kernel

/-- Operands of a drain to the page, with a chunk record at its start, in s3 to s6. -/
def chunked : State := pagedS [(3, 0x100000000), (4, 32), (5, 0x100001000)]

theorem witness_DrainResults_chunk :
    drainsToScratch operands 5 4 .t8 = false ∧ drainsToScratch (withS [(4, 32), (5, 0x11000)]) 5 4 .t8 = true ∧
    (readS chunked 3).toNat % 64 = 0 ∧ misplaced .t8 (readS chunked 5) (readS chunked 4) = false ∧
    rangeCheck (me chunked) (readS chunked 3).toNat 64 .write = .ok 0x1000000000000 ∧ memorySide chunked 0x1000000000000 = true ∧
    checkRows chunked false .write (drainRows 0 (readS chunked 5) (readS chunked 4) .t8) = none ∧
    banksConflict false .t8 (rowBanks chunked false (drainRows 0 (readS chunked 5) (readS chunked 4) .t8)) = false ∧
    (rangeFind (me chunked) (readS chunked 5).toNat).isSome = true := by decide +kernel

theorem witness_DrainResults_chunk_places :
    (drainRows 0 (readS chunked 5) (readS chunked 4) .t8).all (fun r => (List.range (r.2 + 1)).all fun o => placeScratch chunked ⟨false, r.1 + o⟩ == none) = true := by
  decide +kernel

/-! ### Witnesses: memory and atomics -/

theorem witness_LoadResults_scalar :
    ((readS base 3 + BitVec.ofInt 64 (0x40#27).toInt).toNat + sizeBytes .d ≤ mySp base) ∧
    (mySp base < (readS (withS [(3, 0x200000)]) 3 + BitVec.ofInt 64 (-8 : BitVec 27).toInt).toNat + 0x200000) ∧
    (mySp base < (readS (withS [(3, 0x1FFFFF)]) 3).toNat + sizeBytes .d) ∧
    rangeCheck (me base) 0x8000 8 .read = .trap 0x09 0x8000 0 ∧
    rangeCheck (me base) 0x10040 8 .read = .ok 0x40 ∧ mayReach base false 0x40 = true ∧ mayReach base false 0x47 = true ∧
    ((List.range 8).all fun j => ownOffset base (0x40 + j) == some (0x40 + j)) = true := by decide +kernel

theorem witness_LoadResults_far :
    rangeCheck (me paged) 0x100000040 8 .read = .ok 0x1000000000040 ∧ mayReach paged false 0x1000000000040 = true ∧
    mayReach paged false 0x1000000000047 = true ∧ ownOffset paged 0x1000000000040 = none := by decide +kernel

/-- Range register 0 of a user's context maps virtual address 2^16 to the partition block. -/
def walled : State := withC fun c => { c with pl := 0, rregs := [(0, ⟨0x1000F, 0xD0000000000⟩)] }

/-- Two pages of which only the first lies in a core's scratchpad: the last window bytes below the multicast window. -/
def edged : State := withC fun c => { c with rregs := [(0, ⟨0x1000F, 0x1E000000⟩)] }

theorem witness_LoadResults_window :
    rangeCheck (me walled) 0x10000 8 .read = .ok 0xD00000000 ∧ mayReach walled false 0xD00000000 = false ∧
    (∃ ia, rangeCheck (me edged) 0x17FFC 8 .read = .ok ia ∧ mayReach edged false ia = true ∧ mayReach edged false (ia + 7) = false) := by
  refine ⟨by decide +kernel, by decide +kernel, 0x1E7FFC, ?_⟩
  decide +kernel

theorem witness_LoadResults_vector :
    ((List.range 64).all fun j => decide ((readS base 3 + BitVec.ofNat 64 (4 * j)).toNat + 4 ≤ mySp base)) = true ∧
    ((readM base 0).getLsbD 63 = true ∧ mySp base < (readS (withS [(3, 0x1FFFFF)]) 3 + BitVec.ofNat 64 (4 * 63)).toNat + 4) ∧
    checkSpans base false false .read ((List.range 64).map fun j => (0x10000 + 4 * j, 4)) = .ok 0x10000 0 ∧
    checkSpans base false false .read ((List.range 64).map fun j => (0x8000 + 4 * j, 4)) = .trap 0x09 0x8000 0 ∧
    readM base 0 ≠ 0 ∧ checkSpans base false false .read [(0x10000, 2)] = .ok 0x10000 0 := by decide +kernel

theorem witness_TileTransfers :
    8 % 16 ≠ 0 ∧ 0x10000 % 16 = 0 ∧ checkSpans base false false .read [(0x10000, 8192)] = .ok 0x10000 0 ∧
    checkSpans base true false .write [(0, 4096)] = .ok 0 0 ∧ checkSpans base false false .write [(0x8000, 4096)] = .trap 0x09 0x8000 0 ∧
    0x1000 + 4096 ≤ mySp base := by decide +kernel

theorem witness_StoresWaitForTheirBundle :
    checkSpans base true false .write [(0x40, 8)] = .ok 0 0 ∧ checkSpans paged false false .write [(0x100000040, 8)] = .ok 0x100000040 0x1000000000040 ∧
    checkSpans base false false .write [(0x8000, 4)] = .trap 0x09 0x8000 0 ∧
    checkSpans base true false .write ((List.range 64).map fun j => (4 * j, 4)) = .ok 0 0 := by decide +kernel

theorem witness_StoresPerform :
    Memory.wf paged.mem = true ∧ (regionOf (me base) (curSeq base)).journal = [] ∧
    windowOf (0 / 4) 0x100000040 = .scratch 0 0x40 ∧ windowOf (0 / 4) 0x400000040 = .mcast 0 0x40 ∧ windowOf (0 / 4) 0x1000000000040 = .memory := by
  decide +kernel

theorem witness_StoresPerform_page :
    (match resolvePage paged 0 0 0x1000000000040 true with | (u, .ok pa _) => pa == 0x60040 && Memory.wf u.mem | _ => false) = true := by
  unfold resolvePage resolveAs resolveAcc cachedLeaf
  generalize Config.tlbHolds paged.fresh 0x1000000000040 = b
  cases b <;> decide +kernel

theorem witness_AtomicsPerform : 3 ≤ 3 ∧ Memory.wf base.mem = true ∧
    atomNew (.cas 1 2 3 4 .rlx 3 .pkg) 5 (5 + 7 * 2 ^ 64) = some 7 ∧ atomNew (.cas 1 2 3 4 .rlx 3 .pkg) 6 (5 + 7 * 2 ^ 64) = none := by decide +kernel

theorem witness_AtomicsIssue :
    4 % 8 ≠ 0 ∧ 0x10040 % 8 = 0 ∧ checkSpans base false false .both [(0x10040, 8)] = .ok 0x10040 0x40 ∧ ownOffset base 0x40 = some 0x40 ∧
    base.iss.stores = [] ∧ checkSpans base false false .both [(0x8000, 8)] = .trap 0x09 0x8000 0 ∧
    checkSpans paged false false .both [(0x100000040, 8)] = .ok 0x100000040 0x1000000000040 ∧ ownOffset paged 0x1000000000040 = none := by decide +kernel

theorem witness_AtomicsIssue_vector :
    ((List.range 64).filter (readM noLanes 3).getLsbD).drop 0 = [] ∧ ((List.range 64).filter (readM base 0).getLsbD).drop 0 ≠ [] ∧
    (readS (withS [(3, 2)]) 3 + BitVec.ofNat 64 (4 * 5)).toNat % 4 ≠ 0 ∧
    checkSpans paged false false .both ((List.range 64).map fun j => (0x100000000 + 4 * j, 4)) = .ok 0x100000000 0x1000000000000 := by decide +kernel

/-- A level-2 context whose range registers map virtual addresses 2^17, 2^18 and 2^19 to the multicast, a control and a notify window. -/
def windows : State :=
  withC fun c => { c with rregs := [(0, ⟨0x1000F, 0⟩), (1, ⟨0x2000F, 0x40000000000⟩), (2, ⟨0x4000F, 0xD0000000000⟩), (3, ⟨0x8000F, 0xA0000000000⟩)] }

theorem witness_TolerantLoadsAndXlat :
    rangeFind (me base) 0x8000 = none ∧ (rangeFind (me base) 0x10000).isSome = true ∧
    (windowOk walled 0 0 (windowOf 0 0xD00000000) = false) ∧ windowOk base 0 2 (windowOf 0 0x40) = true ∧
    windowOk windows 0 2 (windowOf 0 0xD00000000) = true ∧ windowOf 0 0xD00000000 = .ctl .part 0 0 ∧
    windowOk paged 0 2 (windowOf 0 0x1000000000000) = true ∧ windowOf 0 0x1000000000000 = .memory := by decide +kernel

theorem witness_MulticastsAndLandings_mcast :
    checkSpans windows false true .write ((List.range 64).map fun j => (0x20000 + 4 * j, 4)) = .ok 0x20000 0x400000000 ∧
    mcastRoom windows 0x400000000 = true ∧
    checkSpans windows false true .write [(0x2FFFC, 4)] = .ok 0x2FFFC 0x40000FFFC ∧ mcastRoom base 0x40 = false := by decide +kernel

theorem witness_MulticastsAndLandings_bfmt :
    spBanks (coreAt base 0).vreg (coreAt base 0).tile ≤ 200 ∧ 11 < (15#4).toNat ∧ 0 < spBanks (coreAt base 0).vreg (coreAt base 0).tile ∧ (9#4).toNat ≤ 11 := by
  decide +kernel

/-- A result in flight of the base context. -/
def flight0 (src : FlightSrc) : Flight := { id := 3, dsts := [.s 5], src, fixed := false, bound := 0, exec := 0, issued := 0, bseq := 1 }

/-- paged with that result in flight, and the step of its landing. -/
def flying (src : FlightSrc) : State := { (updCtx paged 0 fun c => { c with flights := [flight0 src] }) with subj := { id := 3 } }

/-- The bytes of a doubleword of the page. -/
def pageBytes : List LoadByte := (List.range 8).map fun j => ⟨j, 0x1000000000040 + j, none⟩

theorem witness_MulticastsAndLandings_land :
    flightOf (ctxOf (flying (.bits [])) 0) 3 = some (flight0 (.bits [])) ∧ (flight0 (.bits [])).dead = [] ∧
    readsBefore (ctxOf (flying (.load (.s 5) (.scalar .d) 0x100000040 pageBytes)) 0) (flight0 (.load (.s 5) (.scalar .d) 0x100000040 pageBytes)) pageBytes = false ∧
    awayPages paged 0 pageBytes = [] := by decide +kernel

theorem witness_MulticastsAndLandings_bind :
    (match (bindBytes 0 0 [⟨0, 0x1000000000040, none⟩, ⟨1, 0x1000000000041, some 7⟩] paged).2 with | .ok r => r.length == 2 | _ => false) = true := by
  unfold bindBytes readIa resolvePage resolveAs resolveAcc cachedLeaf
  generalize Config.tlbHolds paged.fresh 0x1000000000040 = b
  cases b <;> decide +kernel

theorem witness_MulticastsAndLandings_fault :
    (match (bindBytes 0 0 [⟨0, 0x1000000010000, none⟩] paged).2 with | .fail c _ => c == 0x0C | _ => false) = true := by
  unfold bindBytes readIa resolvePage resolveAs resolveAcc cachedLeaf
  generalize Config.tlbHolds paged.fresh 0x1000000010000 = b
  cases b <;> decide +kernel

theorem witness_MulticastsAndLandings_away : awayPages (paPut paged 0x50000 8 0x60447) 0 pageBytes = [0x1000000000000] := by decide +kernel

/-! ### Witnesses: the exchange and the engines -/

/-- A request of context 0. -/
def ask (i : Instr) (args : List Nat) (job : Job) (accepted : Bool) : Req := { id := 7, key := 0, ins := i, args, job, accepted }

/-- base with that request, and a step about it. -/
def asked (i : Instr) (args : List Nat) (job : Job) (accepted : Bool) : State :=
  { base with reqs := [ask i args job accepted], subj := { id := 7 } }

theorem witness_RequestsGoOut :
    reqOf (asked (.decl 0) [0] .none true) 7 = some (ask (.decl 0) [0] .none true) ∧ (ask (.decl 0) [0] .none true).accepted = true ∧
    reqOf (asked (.decl 0) [0] .none false) 7 = some (ask (.decl 0) [0] .none false) ∧ (ask (.decl 0) [0] .none false).accepted = false := by decide +kernel

/-- A notice image: tag 5, a block of 64 bytes at 2^12, one consumer, core 1. -/
def img1 : Nat := 5 + 64 * 2 ^ 32 + 0x1000 * 2 ^ 64 + 2 ^ 152 + 2 ^ 160

/-- base with that image at offset 0x40, where s3 points. -/
def noting : State := mputs (withS [(3, 0x40)]) (spAddr 0 0x40) (toBytes 32 img1)

/-- A group handle 0 with members 0 and 1, its root's descriptor in s4 and its result offset in s3. -/
def grouped : State := { withS [(3, 0x40), (4, 0x800000000)] with groups := [(0, { live := true, members := [0, 1] })] }

theorem witness_ExchangeRequests :
    noteCheck noting 4 false = .trap 0x18 0 0 ∧ noteCheck noting 3 false = .ok [img1 + spAddr 0 0 * 2 ^ 64, 1] ∧
    (0x40 % 32 = 0 ∧ 0x60 ≤ mySp noting ∧ spNum noting 0 0x40 32 = img1 ∧ imgMalformed noting 0 img1 = false ∧
      0x1000 + imgSize img1 ≤ mySp noting ∧ imgTag img1 ∉ outboxTags noting 0) ∧
    rrootCheck base 0 0 = .trap 0x04 0 0 ∧ rrootCheck grouped 3 4 = .ok [0, 0, 8, 0, 0, 0x40, 0, 1] ∧
    (modeBit base 0 4 = false ∧ 0x40 < mySp base ∧ coreReached base 0 1 = true ∧ dieOf 1 = dieOf 0) ∧
    (let s := { base with conns := [(9, { opened := true })] }
     (connOf s (9 % 4096)).opened = true ∧ (connOf s 9).asn = (me s).asn ∧ (connOf base 9).opened = false) := by decide +kernel

/-- The notice of that image, published by context 0, waiting for core 1. -/
def note1 : Notice := { id := 9, img := img1, key := 0, members := [1] }

/-- base with that notice offered in entry 2 of the board of core 0, s3 pointing at the entry and s4 at its tag. -/
def board1 : State := { withU fun u => { u with board := [(2, { st := 1, seq := 3, notice := 9 })] } with notices := [note1] }

theorem witness_ExchangeRegisters :
    ((boardAt base 0 0).st = 0 ∧ (boardAt board1 0 2).st ≠ 0 ∧ noticeOf board1 9 = some note1) ∧
    (imgTag note1.img = 5 ∧ (coreAt board1 0).board = [] ++ (2, { st := 1, seq := 3, notice := 9 }) :: []) ∧
    (64 % 64 = 0 ∧ 64 + 64 ≤ mySp base ∧ windowBusy base 0 = false) ∧
    (windowBusy { base with reqs := [ask (.pull 0 0 0 true) [] (.pull { assigned := true }) true] } 0 = true) ∧
    ((List.range 5).map fun i => fld 0x4688 (3 * i + 2) (3 * i)).Perm (List.range 5) ∧
    (groupAt grouped 0 0).gen < 16 ∧ groupMembers grouped 0 0 = some [0, 1] ∧ groupMembers grouped 0 0x1000 = none ∧
    (newGroup base 0 [3, 4]).2 = some 0 := by decide +kernel

/-- base with the notice live, its offer to core 1 or its timeout to come. -/
def live1 : State := { base with notices := [note1], subj := { core := 1, id := 9 } }

theorem witness_NoticesReachBoards :
    (note1 ∈ live1.notices ∧ awaits note1 1 = true ∧ (boardAt live1 1 0).st = 0) ∧
    (∀ n ∈ board1.notices, awaits n board1.subj.core = false) ∧
    (noticeOf base 9 = none ∧ noticeOf live1 9 = some note1 ∧ note1.released = false ∧ note1.chunk = none ∧ note1.posted = false) ∧
    (taskLive (withdraw live1 note1) 0 0 = true ∧ taskLive (withdraw { live1 with ctxs := [] } note1) 0 0 = false) := by decide +kernel

/-- base with a credit, a window of 4 KiB at 2^14, and that notice offered. -/
def admitting : State :=
  { withU fun u => { u with board := [(2, { st := 1, notice := 9 })], winBase := 0x4000, winLen := 0x1000, winAlloc := 0x4000
                            credits := [{ key := 0, word := 0x20, swo := 2, fut := 0 }] } with notices := [note1], cyc := 1 }

theorem witness_RankedAdmissionTakesTheBest :
    mayAdmit base 0 = false ∧ eligible base 0 = [] ∧ mayAdmit admitting 0 = true ∧
    eligible admitting 0 = [(2, { st := 1, notice := 9 }, note1)] ∧
    (match pullJob admitting 0 note1 2 0 0 (imgSize note1.img) 0x4000 false true with
      | .inr p => p.n == 64 && p.dst == 0x4000 && p.ia == 0x1000 | .inl _ => false) = true := by decide +kernel

/-- A raw pull of 64 bytes from offset 2^12 of core 0 to 2^13, over link l. -/
def pull1 (l asked : Nat) : PullJob := { ia := 0x1000, n := 64, dst := 0x2000, link := l, asked }

/-- base with that pull, and its flit under way. -/
def pulling (l asked : Nat) : State :=
  { withU fun u => { u with flits := [{ pull := 7, off := 0, len := 64, link := l }] } with
    reqs := [ask (.pull 0 0 0 true) [] (.pull (pull1 l asked)) true], subj := { id := 7, val := l } }

theorem witness_PullsArePaced :
    ((ask (.pull 0 0 0 true) [] (.pull (pull1 1 0)) true, pull1 1 0) ∈ pullsOf (pulling 1 0) ∧
      nextAsk (pulling 1 0) 0 (ask (.pull 0 0 0 true) [] (.pull (pull1 1 0)) true) (pull1 1 0) = some 64) ∧
    pullsOf base = [] ∧ (coreAt base 0).flits = [] ∧
    (coreAt (pulling 0 64) 0).flits.find? (fun f => f.link == 0) = some { pull := 7, off := 0, len := 64, link := 0 } ∧
    (pullsOf (pulling 0 64)).find? (fun q => q.1.id == 7) = some (ask (.pull 0 0 0 true) [] (.pull (pull1 0 64)) true, pull1 0 64) ∧
    (match readBlock 0 0 64 0x1000 (pulling 0 64) with | (_, .inl bs) => bs.length == 64 | _ => false) = true := by decide +kernel

/-- A tree of cores 0 and 1 over 8 bytes. -/
def tree1 (closed : Bool) (leaves : Sparse (List Byte)) : TreeJob := { root := 0, len := 8, dst := 0x40, members := [0, 1], leaves, closed }

/-- base with that tree (request 8) and a contribution of core 0 (request 7), and a step about request id. -/
def treed (closed : Bool) (leaves : Sparse (List Byte)) (id : Nat) : State :=
  { base with
    reqs := [{ ask (.rroot 0 0 0) [0, 0] (.tree (tree1 closed leaves)) true with id := 8 }, ask (.rcont 0 0 0) [0, 0x800000000, 0, 8] .none true]
    subj := { id } }

theorem witness_TreesCombine :
    (reqOf (treed false [] 7) 7 = some (ask (.rcont 0 0 0) [0, 0x800000000, 0, 8] .none true) ∧
      ((treesOf (treed false [] 7)).find? fun p => p.1.id == 8).map Prod.snd = some (tree1 false [])) ∧
    ([0, 1].findIdx (· == 0) < 2 ∧ fld 0x800000000 43 32 = 8 ∧ fld 0x800000000 47 44 = 0) ∧
    ((treesOf (asked (.rcont 0 0 0) [0, 0, 0, 8] .none true)).find? fun p => p.1.id == 8) = none ∧
    (((treesOf (treed true [] 8)).find? fun p => p.1.id == 8).map fun p => (p.2.closed, missingMask p.2)) = some (true, 3) ∧
    missingMask (tree1 true [(0, []), (1, [])]) = 0 := by decide +kernel

/-- A graph of one node that synchronises, and base with it loaded in slot 0 and a run of it. -/
def graph1 : Graph := { asn := 0, loaded := true, nodes := [2] }

/-- base with that graph loaded in slot 0 and a run of it, and a step of its node. -/
def running : State :=
  { asked (.agrun 0 0 0) [0] (.run { graph := 0, counters := [0], moved := [0] }) true with graphs := [(0, graph1)], subj := { id := 7 } }

/-- base with a graph image of one node that synchronises at offset 0x400, or one with a bad header word, or too many nodes. -/
def loading (h : Nat) : State :=
  mputs (mputs (asked (.agload 0 0 0) [0x10400, 0] .none true) (spAddr 0 0x400) (toBytes 64 h)) (spAddr 0 0x440) (toBytes 32 2)

/-- That load, with the range registers of its context. -/
def loadReq : Req := { ask (.agload 0 0 0) [0x10400, 0] .none true with maps := (me base).rregs, pl := 2 }

theorem witness_GraphsLoadAndRun_load :
    ([1, 1 + 2 ^ 32].all fun h => match readVa (loading h) loadReq 0x10400 64 with
      | (u, .inl hs) => ofBytes hs == h && (match readVa u loadReq 0x10440 32 with | (_, .inl bs) => ofBytes bs == 2 | _ => false)
      | _ => false) = true ∧
    graphMalformed 1 [2] [] = false ∧ graphMalformed (1 + 2 ^ 32) [2] [] = true ∧ nodesUsed (loading 1) 0 + 1 ≤ 4096 ∧
    4096 < nodesUsed { base with graphs := [(1, { asn := 0, nodes := List.replicate 4096 2 })] } 0 + 1 := by decide +kernel

theorem witness_GraphsLoadAndRun_run :
    reqOf running 7 = some (ask (.agrun 0 0 0) [0] (.run { graph := 0, counters := [0], moved := [0] }) true) ∧ graphOf running 0 = some graph1 ∧
    ((runsIn running 0).head?.map fun p => p.1.id) = some 7 ∧ chunkBytes 2 0 = 0 ∧ 0 ∉ ([] : List Nat) ∧ 0 < graph1.nodes.length ∧
    moveChunk running (ask (.agrun 0 0 0) [] .none true) {} 0 0 4096 = ((running, ask (.agrun 0 0 0) [] .none true), some false) := by decide +kernel

/-- paged with a barker chunk record in the page: target 1, count 1, armed or not, and its notice image. -/
def chunk1 (armed : Nat) (img : Nat) : State :=
  { paPut (paPut paged 0x60000 8 (1 + 2 ^ 16 + armed * 2 ^ 32)) 0x60020 32 img with
    chunks := [{ ia := 0x1000000000000, key := 0, asn := 0 }], subj := { id := 0x1000000000000 } }

/-- With nothing held by the translation caches, hardware walks in force and nothing asked of system software, a page is found by the walker. -/
theorem resolve_plain (s : State) (q asn ia : Nat) (w : Bool) (h : tlbFind s q asn ia = none) (h1 : modeBit s q 1 = false)
    (h2 : Sys2Proof.Machine.asked s q ia = false) (h3 : asnAbsent s q asn = false) :
    resolvePage s q asn ia w =
      serveOr { s with fresh := s.fresh + 1 } q asn ia w.toNat w w (walk { s with fresh := s.fresh + 1 } q asn ia) := by
  have h1' : modeBit { s with fresh := s.fresh + 1 } q 1 = false := h1
  have h2' : Sys2Proof.Machine.asked { s with fresh := s.fresh + 1 } q ia = false := h2
  have h3' : asnAbsent { s with fresh := s.fresh + 1 } q asn = false := h3
  simp [resolvePage, resolveAs, resolveAcc, cachedLeaf, walkPage, h, h1', h2', h3']

theorem witness_BarkerPublishes_pa (a img : Nat) (h : (a, img) ∈ [(0, 0), (1, 7 * 2 ^ 152), (1, img1), (1, img1 + 0xF000 * 2 ^ 64)]) :
    (match chunkPa (chunk1 a img) { ia := 0x1000000000000, key := 0, asn := 0 } with
      | (u, .ok pa _) => paNum u pa 8 == 1 + 2 ^ 16 + a * 2 ^ 32 && paNum u (pa + 32) 32 == img
      | _ => false) = true := by
  simp only [List.mem_cons, Prod.mk.injEq, List.not_mem_nil, or_false] at h
  rw [chunkPa, resolve_plain]
  all_goals (rcases h with ⟨rfl, rfl⟩ | ⟨rfl, rfl⟩ | ⟨rfl, rfl⟩ | ⟨rfl, rfl⟩ <;> decide +kernel)

theorem witness_BarkerPublishes :
    imgMalformed base 0 (7 * 2 ^ 152) = true ∧ imgMalformed base 0 img1 = false ∧
    rangeCheck (me base) 0x1000 64 .read = .trap 0x09 0x1000 0 ∧ rangeCheck (me base) 0x10000 64 .read = .ok 0 := by decide +kernel

/-- base with nest 0 a shape of one run of 16 bytes, and s3, s4 two scratchpad offsets. -/
def shaped (c0 : Nat) : State :=
  updCtx (withS [(3, 0x1000), (4, 0x2000)]) 0 fun c =>
    { c with regs := { c.regs with n := [(0, BitVec.ofNat 64 c0 + 0x100000000), (1, 0x100000001), (2, 0x100000001)] } }

/-- base with an accepted copy of that shape. -/
def copying (c : CopyJob) : State := asked (.copy 3 4 0 true true 0) [] (.copy c) true

theorem witness_CopiesAndFills_checks :
    nestMalformed [0, 0, 0, 0xC0] = true ∧ nestMalformed (nestWords (shaped 16) 0) = false ∧
    sourceCheck (shaped 16) (nestWords (shaped 16) 0) true 0x2000 = .ok (spAddr 0 0x2000) false ∧
    destCheck (shaped 16) (nestWords (shaped 16) 0) true 0x1000 (some (spAddr 0 0x2000)) = .ok (spAddr 0 0x1000) false ∧
    destCheck (shaped 16) (nestWords (shaped 16) 0) true 0x1000 none = .ok (spAddr 0 0x1000) false ∧
    sourceCheck (shaped 16) (nestWords (shaped 16) 0) true 0x1FFFFF = .trap 0x0B 0 (spAddr 0 0x1FFFFF) ∧
    destCheck (shaped 16) (nestWords (shaped 16) 0) false 0x1000 none = .trap 0x09 0x1000 0 := by decide +kernel

theorem witness_CopiesAndFills_chunks :
    (let c : CopyJob := { desc := [16 + 0x100000000, 0x100000001, 0x100000001], dst := 0x1000, src := 0x2000, wd := true, ws := true }
     reqOf (copying c) 7 = some (ask (.copy 3 4 0 true true 0) [] (.copy c) true) ∧ nextChunk c = 16 ∧
     spots (copying c) 0 0 0x2000 16 false = (copying c, .ok [[(spAddr 0 0x2000, 16)]]) ∧
     spots (copying c) 0 0 0x1000 16 true = (copying c, .ok [[(spAddr 0 0x1000, 16)]])) ∧
    windowOf 0 (spAddr 1 0x40) = .scratch 1 (spAddr 1 0x40 - spAddr 1 0) := by decide +kernel

theorem witness_SyncWordsAndRangeTable :
    (waitWord (withS [(3, 8)]) 3 1 % 16 ≠ 0 ∧ waitWord base 0 2 = 0x20 ∧ 0x20 < mySp base ∧ mySp base ≤ waitWord base 0 0x1FFFF) ∧
    (readS base 3).toNat < 2 ^ 16 ∧ 2 ^ 16 ≤ (readS (withS [(3, 0x10000)]) 3).toNat ∧ (64 + 5 * 2 ^ 40 : Nat) < 2 ^ 128 := by decide +kernel

/-- base with connection 9 open to the partition block's scratchpads, counter 4, and a step about it. -/
def linked (sub : Subject) : State :=
  { base with conns := [(9, { opened := true, wbase := 0x100000000, wlim := 0x1FFFFFFFF, wrd := true, wwr := true, rxc := 4 })], subj := { sub with id := 9 } }

theorem witness_ConnectionsCarryFrames :
    ((connOf base 9).opened = false ∧ (connOf (linked {}) 9).opened = true) ∧
    ((linked { flag := true, val := 5 }).subj.flag = true ∧ (connOf (linked {}) 9).rxc < 5 ∧ 5 < 2 ^ 64) ∧
    (let r := { ask (.rflush 0 0) [9] (.remote { conn := 9 }) true with id := 3 }
     reqOf { linked { flag := true, val := 5, ref := 3 } with reqs := [r] } 3 = some r ∧ r.accepted = true ∧ r.args.getD 0 0 = 9) ∧
    reqOf (linked {}) 0 = none ∧
    (0x100000000 ≤ 0x100000040 ∧ 0x100000040 + 2 ≤ 0x1FFFFFFFF + 1 ∧ windowOf 0 0x100000040 = .scratch 0 0x40 ∧
      spots (linked {}) 0 0 0x100000040 2 true = (linked {}, .ok [[(spAddr 0 0x40, 2)]])) := by decide +kernel

/-! ### Witnesses: tasks and queues -/

/-- paged with the partition's tables in the page: the queue table at offset 0x2000, the future table at offset 0x1000, whose record 5 is x. -/
def futured (x : Nat) : State :=
  paPut (setCreg (setCreg (setCreg (setCreg paged 0 .sched 0x000 0x1000000002000) 0 .sched 0x008 4) 0 .sched 0x010 0x1000000001000) 0 .sched 0x018 16)
    0x610A0 32 x

/-- That state with handle 5 in s3, a held reference or none, and a request about it. -/
def about (x : Nat) (held : List Word) : State :=
  { updCtx (futured x) 0 fun c => { c with regs := { c.regs with s := [(3, 5)] }, task := some { held } } with
    reqs := [ask (.fref 4 3) [5] .none true], subj := { id := 7 } }

theorem witness_ReferenceResults :
    (fld (2 ^ 36 : Nat) 63 36 ≠ 0 ∧ futStale base 0 5 = true ∧ futStale (futured 0x200001) 0 5 = false ∧ futSt (futRead (futured 0x300001) 0 5) = 3) ∧
    ((me (withC fun c => { c with regs := { c.regs with pin := 15 } })).regs.pin = 15 ∧ (me base).regs.pin = 0) ∧
    (readS (withS [(3, 8)]) 3).toNat % 64 ≠ 0 ∧ rangeCheck (me base) 0x8000 64 .read = .trap 0x09 0x8000 0 ∧
    rangeCheck (me base) 0x10000 64 .read = .ok 0 ∧ windowOk base 0 2 (windowOf 0 63) = true := by decide +kernel

theorem witness_ReferenceResults_records :
    (futSt (futRead (about 0x500000 []) 0 5) = 5 ∧ futStale (about 0x500000 []) 0 5 = false) ∧
    (futCnt (futRead (about 0x2FFFFF []) 0 5) = 2 ^ 20 - 1 ∧ futSt (futRead (about 0x2FFFFF []) 0 5) ≠ 5) ∧
    (let r := ask (.fref 4 3) [5] .none true
     let many : List Word := (List.range 256).map fun i => BitVec.ofNat 64 (16 + i)
     (reqCtx (about 0x200001 [5]) r).task = some { held := [5] } ∧ (5 : Word) ∉ many ∧ 256 ≤ many.eraseDups.length ∧
     futStale (about 0x200001 [5]) 0 5 = false) := by decide +kernel

/-- A task record with its future and launch, starting at 0x10400. -/
def task1 (fut launch : Nat) : TaskRec := { pro := 0x10400, ker := 0x10400, epi := 0x10400, trip := 1, arg := 9, fut := BitVec.ofNat 64 fut, launch, ppw := 0x3D0 }

/-- That state with context 1 free and a task in the ready queue of its core. -/
def queued : State := { updCore (futured 0x100001) 0 fun u => { u with rq := [task1 5 0] } with subj := { core := 0, ctx := 1 } }

/-- That state with context 0 over, or faulted. -/
def ended (why : StopWhy) (flag : Bool) (n : Nat) : State :=
  { updCtx (futured 0x200001) 0 fun c => { c with st := .stopping, why, task := some { record := task1 5 0 } } with
    subj := { flag }, reqs := (List.range n).map fun _ => { ask (.fref 4 3) [5] .none true with fut := 5 } }

theorem witness_TasksStartEndAndMove_tasks :
    ((ctxOf queued 0).st ≠ .free ∧ (ctxOf queued 1).st = .free ∧ coreFenced queued 0 = false ∧ ctxClaimed queued 1 = false) ∧
    ((takeTask queued 1).map Prod.fst = some (task1 5 0) ∧ configFits queued 0 0x3D0 = true ∧ configFits queued 0 0x3D1 = false ∧ takeTask base 1 = none) ∧
    ((ctxOf (ended .fault true 0) 0).why = .fault ∧ (ctxOf base 0).st ≠ .stopping ∧ taskQuiet (ended .done false 0) 0 = true ∧
      taskQuiet (ended .done false 1) 0 = false ∧ (ctxOf (ended .done false 1) 0).async = []) := by decide +kernel

/-- A launch over clusters 0 and 1 whose teams steal, with a team resident on each, and core 0 or core 8 with tasks. -/
def sharing (ns : Bool) (sub : Subject) (asked : Option Nat) (rq : List TaskRec) : State :=
  { updCore (updCore (updCtx (futured 0x100001) 32 fun c => { c with st := .ready }) 0 fun u => { u with steal := { u.steal with launch := 4, asked } }) 8
      fun u => { u with rq } with
    launches := [{ id := 4, cset := 3, ns }], teams := [{ id := 5, launch := 4, die := 0, num := 0, cluster := some 0 }], subj := sub }

theorem witness_TasksStartEndAndMove_steals :
    (stealLaunch base 0 = none ∧ stealLaunch (updCtx (sharing false {} none []) 0 fun _ => {}) 0 = some { id := 4, cset := 3 }) ∧
    (firstThief base 8 = none ∧ firstThief (sharing false { core := 8 } (some 8) []) 8 = some 0 ∧
      (launchOf (sharing false { core := 8 } (some 8) []) 4).isSome = true) ∧
    (let s := sharing false { core := 8 } (some 8) [task1 5 4, task1 6 4]
     ownClaims s 8 = 0 ∧ takeTail 4 (coreAt s 8).rq = some (task1 6 4, [task1 5 4])) ∧
    (let s := { sharing false { core := 0 } none [] with transit := [(0, task1 5 4)] }
     s.transit.find? (fun p => p.1 == 0) = some (0, task1 5 4) ∧ futStale s 0 5 = false ∧ futSt (futRead s 0 5) ≠ 5) ∧
    (futStale (futured 0x500000) 0 5 = false ∧ futSt (futRead (futured 0x500000) 0 5) = 5) := by decide +kernel

/-- base with its context stopping for a reason, and some due limits. -/
def stopping (why : StopWhy) (f : Ctx → Ctx) : State := { withC fun c => f { c with st := .stopping, why } with cyc := 2 ^ 20 }

theorem witness_ContextsStopAndGoOn :
    ((ctxOf base 0).st ≠ .stopping ∧ (ctxOf (stopping .reclaim id) 0).why = .reclaim ∧ (ctxOf (stopping .reclaim id) 0).nextMark = none) ∧
    ([(0, ctxOf base 0)].find? fun p => p.1 == 0 && futOf p.2 == BitVec.ofNat 64 0).isSome = true ∧
    (let s := { withC fun c => { c with reclaim := true, regs := { c.regs with pin := 1 } } with cyc := 65536 }
     (ctxOf s 0).reclaimAt + (ctxOf s 0).pinLim ≤ s.cyc ∧ (ctxOf s 0).regs.pin ≠ 0 ∧ (ctxOf s 0).st ≠ .free) ∧
    (let c := ctxOf (withC fun c => { c with wdc := 400001 }) 0
     2 * c.cycLim < c.wdc ∧ c.st ≠ .free ∧ c.st ≠ .stopping) ∧
    (let c := ctxOf (withC fun c => { c with yieldReq := true, forced := true }) 0
     c.yieldAt + c.yd ≤ 250000 ∧ c.retry = false ∧ c.heldTrap = none ∧ c.async = []) ∧
    (saveDrained (stopPasses (stopping .save id) 0) 0 = true ∧ (ctxOf (stopping .save id) 0).nextMark = none ∧
      (confirmRegion (stopPasses (stopping .save id) 0) 0).2 = .ok ∧
      saveDrained (stopPasses { stopping .save id with reqs := [ask (.fref 4 3) [5] .none false] } 0) 0 = false) ∧
    ((ctxOf (stopping .save fun c => { c with saved := true }) 0).saved = true ∧ residentOf base 0 = none ∧ coreFenced base 0 = false ∧
      ctxClaimed base 0 = false) := by decide +kernel

/-- The ring of queue 1 at offset 0x800 of core 0's scratchpad, with an entry of a kind at its index 0, and slot 0 mapped to it. -/
def ringed (r w e : Nat) (q : QSlot) (mapped : Bool) (sub : Subject) : State :=
  let s := mputs (paPut (paPut (paPut (futured 0) 0x10110 8 0x20000000F) 0x10118 8 0x10000000000) 0x62040 64
    (0x200000800 + 2 ^ 69 + r * 2 ^ 128 + w * 2 ^ 160)) (spAddr 0 0x800) (toBytes 64 e)
  { (if mapped then { s with quarters := [(0, { slots := [(0, q)] })] } else s) with subj := sub }

/-- Slot 0's record of that queue. -/
def slot1 : QSlot := { queue := 1, rbase := 0x200000800 }

theorem witness_QueuesAndLaunches_slots :
    (sameQuarter base 0 0 = true ∧ slotAt base 0 = none ∧ slotAt (ringed 0 0 0 slot1 true {}) 0 = some slot1) ∧
    (let s := updCtx (ringed 0 0 0 slot1 false {}) 0 fun c => { c with regs := { c.regs with s := [(3, 0x100002040)] } }
     (readS s 3).toNat % 64 = 0 ∧ rangeCheck (me s) 0x100002040 64 .read = .ok 0x1000000002040 ∧ slotOf s 0 1 = none ∧
     queueEnabled (queueRead s 0 1) = true ∧ creg s 0 .sched 0x000 + 64 = 0x1000000002040) ∧
    (rangeCheck (me base) 0x8000 64 .read = .trap 0x09 0x8000 0 ∧ (readS (withS [(3, 8)]) 3).toNat % 64 ≠ 0) := by decide +kernel

theorem witness_QueuesAndLaunches_notify :
    (creg base 0 .sched 0x008 ≤ 1 ∧ 1 < creg (futured 0) 0 .sched 0x008) ∧
    (let s := ringed 0 0 0 slot1 true { id := 1, val := 1 }
     queueEnabled (queueRead s 0 1) = true ∧ ((1 : Int) - 0) % 2 ^ 32 ≤ 2 ^ fld (queueRead s 0 1) 67 64 ∧
     slotOf (queuePut s 0 1 20 4 1) 0 1 = some 0) ∧
    (let s := ringed 0 0 0 slot1 false { id := 1, val := 1 }
     slotOf (queuePut s 0 1 20 4 1) 0 1 = none ∧ bitAt (queueRead s 0 1) 70 = false ∧ modeBit s 0 0 = false) ∧
    queueEnabled (queueRead (futured 0) 0 1) = false := by decide +kernel

theorem witness_QueuesAndLaunches_entries :
    (fld (queueRead (ringed 0 0 0 slot1 true {}) 0 1) 159 128 = fld (queueRead (ringed 0 0 0 slot1 true {}) 0 1) 191 160) ∧
    ([0, 1, 2, 2 ^ 8, 2 ^ 6 + 5 * 2 ^ 192].all fun e =>
      let s := ringed 0 1 e slot1 true {}
      fld (queueRead s 0 1) 159 128 != fld (queueRead s 0 1) 191 160 &&
        match queueBytes s 0 0 0x200000800 64 with | (_, .inl bs) => ofBytes bs == e | _ => false) = true ∧
    (match queueBytes base 0 9 0x200000800 64 with | (_, .inr (.fail _)) => true | _ => false) = true ∧
    (entryMalformed base 0 (2 ^ 8) = true ∧ entryMalformed base 0 0 = false ∧ entryMalformed base 0 2 = false ∧ entryMalformed base 0 1 = false) ∧
    (depMet (futured 0x200001) 0 2 0 5 = false ∧ depMet base 0 0 0 0 = true ∧ entryMalformed base 0 (2 * 2 ^ 4 + 5 * 2 ^ 128) = false) := by decide +kernel

theorem witness_QueuesAndLaunches_ends :
    launchOf base 4 = none ∧ (launchOf { base with launches := [{ id := 4 }] } 4 = some { id := 4 } ∧ ({ id := 4 } : Launch).live = 0 ∧
      windowOf 0 ({ id := 4 } : Launch).csw = .scratch 0 0) ∧
    (let x : QSlot := { queue := 1, drn := true, unmap := 3 }
     slotAt (ringed 0 0 0 x true { val := 3, flag := true }) 0 = some x ∧ x.drn = true ∧ x.unmap = 3) := by decide +kernel

theorem witness_TaskNumbersAreMixedRadix : (∀ l ∈ [Level.mk 1 3 4, Level.mk 1 0 5], 0 < l.ext) ∧ 19 < ([Level.mk 1 3 4, Level.mk 1 0 5].map Level.ext).prod := by
  decide

/-- A launch over cluster 0 with a team resident there, and a waiting team of a launch of priority p. -/
def teamed (resident : Bool) (p : Nat) (waiting : Bool) : State :=
  { base with
    ctxs := [], launches := [{ id := 4, cset := 1, pri := 2, ppw := 0x3D0 }, { id := 6, cset := 1, pri := p, ppw := 0x3D0 }]
    teams := (if resident then [{ id := 5, launch := 4, die := 0, num := 0, cluster := some 0, slice := some 0 }] else []) ++
      (if waiting then [{ id := 7, launch := 6, die := 0, num := 0 }] else []), subj := { id := if resident then 5 else 0 } }

theorem witness_TeamsShareClusters :
    (waitingTeams (teamed true 3 false) 0 = [] ∧ (waitingTeams (teamed true 3 true) 0).map Team.id = [7] ∧ residentOf (teamed false 3 true) 0 = none) ∧
    (clusterFenced (teamed false 3 true) 0 = false ∧ (clusterCores 0).all (fun c => configFits (teamed false 3 true) c 0x3D0) = true) ∧
    (teamOf base 5 = none ∧ (teamOf (teamed true 3 true) 5).isSome = true ∧
      (waitingTeams (teamed true 3 true) 0).any (fun w => decide (2 ≤ (teamLaunch (teamed true 3 true) w).pri)) = true ∧
      (waitingTeams (teamed true 1 true) 0).all (fun w => decide ((teamLaunch (teamed true 1 true) w).pri < 2)) = true) := by decide +kernel

/-! ### Witnesses: the state store, chains and slices -/

/-- paged with a state store in the page: a sequence table of one slot at offset 0x3000, whose sequence 0 has two layers, the first in frame
f, with its table at 0x4000 and its ring at 0x5000, and a snapshot at position 9 there; share counts at 0x70000. -/
def stored (f n : Nat) : State :=
  let s := setCreg (setCreg (setCreg paged 0 .xlate 0x040 0x1000000003000) 0 .xlate 0x048 1) 0 .xlate 0x010 0x70000
  let s := paPut (paPut (paPut s 0x63000 8 (2 * 2 ^ 32 + 2 ^ 44)) 0x63010 8 0x1000000004000) 0x63018 8 0x1000000005000
  paPut (paPut (paPut s 0x64000 8 f) 0x65000 32 (9 + 2 ^ 48 + 0x1000000006000 * 2 ^ 192)) (0x70000 + 4 * 7) 2 n

/-- That sequence. -/
def seq0 : Seq := ⟨0x1000000003000, 2, 0x1000000004000, 0x1000000005000⟩

theorem witness_StateStoreResults_operands :
    (2 ^ 32 ≤ (readS (withS [(3, 2 ^ 40)]) 3).toNat ∧ ¬ (2 ^ 32 ≤ (readS base 3).toNat ∨ 2 ^ 48 ≤ (readS base 4).toNat)) ∧
    (fld (16 * 2 ^ 24 : Nat) 40 24 = 16 ∧ fld (16 * 2 ^ 24 : Nat) 63 41 = 0 ∧ 0 + 16 ≤ mySp base ∧ ¬ mySp base ≤ 16 * 2) := by decide +kernel

theorem witness_StateStoreResults_rings :
    (seqOf (stored 7 1) 0 0 = some seq0 ∧ seqOf (stored 7 1) 0 5 = none) ∧ (ringAt (stored 7 1) 0 seq0 9 = some 0 ∧ ringAt (stored 7 1) 0 seq0 8 = none) ∧
    (let f (x : Nat) := fld (sysNum (stored x 1) 0 (seq0.ltab + 8 * 0) 8) 35 0
     f 0 = 0 ∧ f 7 = 7 ∧ frameAway 7 = false ∧ frameCount (stored 7 1) 0 7 ≤ 1 ∧ 0 < seq0.nl ∧ seq0.nl ≤ 2) := by decide +kernel

/-- A state-store request on sequence 0 that no sequence table holds, with a job. -/
def stateReq (job : Job) (accepted : Bool) : State := asked (.sdrop 5 3 4 false) [0, 9] job accepted

theorem witness_StateStoreResults_steps :
    (reqOf (stateReq .none true) 7 = some (ask (.sdrop 5 3 4 false) [0, 9] .none true) ∧ isStateOp (.sdrop 5 3 4 false) = true) ∧
    ((⟨[7], false, 0⟩ : StateJob).pend = 7 :: [] ∧ ({} : StateJob).pend = []) ∧
    (stateBehind (stateReq .none true) (ask (.sdrop 5 3 4 false) [0, 9] .none true) = false ∧
      stateBehind { base with reqs := [ask (.sdrop 5 3 4 false) [0, 9] .none true] } { ask (.sdrop 5 3 4 false) [0, 9] .none true with acc := 1 } = true) ∧
    (match applyState (stateReq .none true) (ask (.sdrop 5 3 4 false) [0, 9] .none true) false with | .done 1 _ => true | _ => false) = true := by
  decide +kernel

/-- A state store whose pages system software is to install, so that a use of one waits for it. -/
def storeAway : State :=
  { setCreg (stored 7 1) 0 .sched 0x020 2 with reqs := [ask (.sdrop 5 3 4 false) [0, 9] .none true], subj := { id := 7 } }

theorem witness_StateStoreResults_wait :
    (match applyState storeAway (ask (.sdrop 5 3 4 false) [0, 9] .none true) false with | .wait _ => true | _ => false) = true ∧
    (findSys 0 false [seqSlot storeAway 0 0] storeAway).2 = none := by
  have h2 : (resolvePage storeAway 0 0 (seqSlot storeAway 0 0) false).2 = .wait := by decide +kernel
  obtain ⟨t, h⟩ : ∃ t, resolvePage storeAway 0 0 (seqSlot storeAway 0 0) false = (t, .wait) :=
    by generalize resolvePage storeAway 0 0 (seqSlot storeAway 0 0) false = p at h2 ⊢; exact ⟨p.1, Prod.ext rfl h2⟩
  have q : leadCore storeAway ((ask (.sdrop 5 3 4 false) [0, 9] .none true).key / 4) = 0 := by decide +kernel
  have c : creg storeAway 0 .xlate 0x048 = 1 := by decide +kernel
  have f : findSys 0 false [seqSlot storeAway 0 0] storeAway = (t, none) := by simp only [findSys, h]
  have a : (ask (.sdrop 5 3 4 false) [0, 9] .none true).args.getD 0 0 = 0 := by decide
  refine ⟨?_, congrArg Prod.snd f⟩
  simp only [applyState, withSys, q, c, a, f, Nat.one_ne_zero, if_false]

/-- An address of a page whose leaf is installed and grants writes is found, and nothing but the count of open answers changes. -/
theorem resolve_held (s : State) (ia : Nat) (w : Bool) (e : TlbEntry) (h : tlbFind s 0 0 ia = some e) (z : e.entry = noEntry)
    (c : leafCause s 0 e.leaf = none) (l : bitAt e.leaf 2 = true ∧ bitAt e.leaf 4 = true ∧ bitAt e.leaf 12 = false) (f : s.fenced = [])
    (n : asnAbsent s 0 0 = false) :
    resolvePage s 0 0 ia w = ({ s with fresh := s.fresh + 1 }, .ok (leafPa e.leaf e.huge ia) e.leaf) := by
  have t (u : State) (f : u.fenced = []) (c : leafCause u 0 e.leaf = none) :
      throughLeaf u 0 0 ia w.toNat w w e = (u, .ok (leafPa e.leaf e.huge ia) e.leaf) := by
    simp [throughLeaf, heldEnd, serviceCause, c, f, l.1, l.2.1, l.2.2]
  have g : cachedLeaf s 0 0 ia = some e := by simp [cachedLeaf, h, z, Option.filter]
  have n' : asnAbsent { s with fresh := s.fresh + 1 } 0 0 = false := n
  simp only [resolvePage, resolveAs, resolveAcc, g, n', Bool.false_eq_true, if_false]
  exact t _ f c

/-- Addresses of such a page are all found. -/
theorem find_held (w : Bool) (e : TlbEntry) : ∀ (as : List Nat) (s : State), (∀ a ∈ as, tlbFind s 0 0 a = some e) → e.entry = noEntry →
    leafCause s 0 e.leaf = none → (bitAt e.leaf 2 = true ∧ bitAt e.leaf 4 = true ∧ bitAt e.leaf 12 = false) → s.fenced = [] → asnAbsent s 0 0 = false →
    findSys 0 w as s = ({ s with fresh := s.fresh + as.length }, some true)
  | [], s, _, _, _, _, _, _ => rfl
  | a :: as, s, h, z, c, l, f, n => by
    have i := find_held w e as { s with fresh := s.fresh + 1 } (fun b m => h b (.tail _ m)) z c l f n
    simp only [findSys, resolve_held s a w e (h a (.head _)) z c l f n, i, List.length_cons, Nat.add_assoc, Nat.add_comm 1]

/-- Two uses of such addresses, one after the other, find them. -/
theorem find_twice (w : Bool) (e : TlbEntry) (as bs : List Nat) (s : State) (h : ∀ a ∈ as, tlbFind s 0 0 a = some e)
    (h' : ∀ b ∈ bs, tlbFind s 0 0 b = some e) (z : e.entry = noEntry) (c : leafCause s 0 e.leaf = none)
    (l : bitAt e.leaf 2 = true ∧ bitAt e.leaf 4 = true ∧ bitAt e.leaf 12 = false) (f : s.fenced = [])
    (n : asnAbsent s 0 0 = false) :
    let u := { s with fresh := s.fresh + as.length }
    findSys 0 w as s = (u, some true) ∧ findSys 0 true bs u = ({ u with fresh := u.fresh + bs.length }, some true) :=
  ⟨find_held w e as s h z c l f n, find_held true e bs { s with fresh := s.fresh + as.length } h' z c l f n⟩

/-- The leaf of the store's page, writable. -/
def heldAll : TlbEntry := ⟨0, 0, 0x100000000, 0x60077, noEntry, false, 0⟩

/-- The store with that leaf installed, frame f in its table and share count n, and a second ring entry that keeps a table's place. -/
def storeHeld (f n : Nat) : State := { paPut (stored f n) 0x65020 32 (0x1000000007000 * 2 ^ 192) with tlb := [heldAll] }

/-- Two uses of addresses of that page, one after the other, find them. -/
theorem find_both (f n : Nat) (h : (f, n) ∈ [(7, 1), (0, 1), (2 ^ 34, 1)]) (as bs : List Nat) (x : ∀ a ∈ as, a / 2 ^ 16 = 0x100000000)
    (y : ∀ b ∈ bs, b / 2 ^ 16 = 0x100000000) (w : Bool) :
    let u := { storeHeld f n with fresh := (storeHeld f n).fresh + as.length }
    findSys 0 w as (storeHeld f n) = (u, some true) ∧ findSys 0 true bs u = ({ u with fresh := u.fresh + bs.length }, some true) := by
  have t (s : State) (q : s.tlb = [heldAll]) (a : Nat) (e : a / 2 ^ 16 = 0x100000000) : tlbFind s 0 0 a = some heldAll := by
    simp only [tlbFind, q, List.find?_cons, heldAll, e, BEq.rfl, Bool.and_self]
  have c : leafCause (storeHeld f n) 0 heldAll.leaf = none := by
    simp only [List.mem_cons, Prod.mk.injEq, List.not_mem_nil, or_false] at h
    rcases h with ⟨rfl, rfl⟩ | ⟨rfl, rfl⟩ | ⟨rfl, rfl⟩ <;> decide +kernel
  have g : (storeHeld f n).fenced = [] := by
    simp only [List.mem_cons, Prod.mk.injEq, List.not_mem_nil, or_false] at h
    rcases h with ⟨rfl, rfl⟩ | ⟨rfl, rfl⟩ | ⟨rfl, rfl⟩ <;> decide +kernel
  have q : (storeHeld f n).tlb = [heldAll] := rfl
  have m : asnAbsent (storeHeld f n) 0 0 = false := by
    simp only [List.mem_cons, Prod.mk.injEq, List.not_mem_nil, or_false] at h
    rcases h with ⟨rfl, rfl⟩ | ⟨rfl, rfl⟩ | ⟨rfl, rfl⟩ <;> decide +kernel
  generalize storeHeld f n = s at c g q m ⊢
  exact find_twice w heldAll as bs s (fun a m => t s q a (x a m)) (fun b m => t s q b (y b m)) rfl c (by decide) g m

theorem witness_StateStoreResults_found :
    ((ends seq0.ltab 16).all (fun a => a / 2 ^ 16 == 0x100000000) = true ∧ frozenPlace (storeHeld 7 1) 0 7 seq0 (ringEntry (storeHeld 7 1) 0 seq0 1) = 0x1000000007000 ∧
      snapPlace (storeHeld 7 1) 0 seq0 = 1 ∧ (ends seq0.ring 512 ++ ends 0x1000000007000 16).all (fun a => a / 2 ^ 16 == 0x100000000) = true ∧
      (let v := { storeHeld 7 1 with fresh := 6 }
       ringAt (storeHeld 7 1) 0 seq0 8 = none ∧ bitAt (ringEntry v 0 seq0 1) 48 = false ∧ copiesFor v 0 (tableOf v 0 seq0.ltab 2) = 0)) ∧
    (ringAt (storeHeld 7 1) 0 seq0 9 = some 0 ∧ (frozenEnds (storeHeld 7 1) 0 seq0 [0]).all (fun a => a / 2 ^ 16 == 0x100000000) = true) ∧
    ((seq0.ltab + 8 * 0) / 2 ^ 16 = 0x100000000 ∧ 0 < seq0.nl ∧
      (let f (x : Nat) := fld (sysNum { storeHeld x 1 with fresh := 1 } 0 (seq0.ltab + 8 * 0) 8) 35 0
       f 0 = 0 ∧ f 7 = 7 ∧ f (2 ^ 34) = 2 ^ 34 ∧ frameAway (2 ^ 34) = true ∧ frameAway 7 = false ∧ frameCount (storeHeld 7 1) 0 7 ≤ 1)) := by decide +kernel

/-- A page that no table maps is not found. -/
theorem witness_StateStoreResults_missing : (findSys 0 true [0x2000000000000] (stored 7 1)).2 = some false := by
  have h : (resolvePage (stored 7 1) 0 0 0x2000000000000 true).2 = .pageFault := by
    rw [resolve_plain (stored 7 1) 0 0 _ true (by decide +kernel) (by decide +kernel) (by decide +kernel) (by decide +kernel)]; decide +kernel
  generalize e : resolvePage (stored 7 1) 0 0 0x2000000000000 true = p at h
  obtain ⟨u, v⟩ := p
  subst h
  simp only [findSys, e]

/-- System software serves saturated counts there, and a snapshot needs a page. -/
theorem witness_StateStoreResults_ask : modeBit (setCreg (storeHeld 7 65535) 0 .sched 0x020 64) 0 6 = true ∧
    copiesFor (storeHeld 7 65535) 0 (tableOf (storeHeld 7 65535) 0 seq0.ltab 2) = 1 ∧
    (withPages true 0 1 base fun _ _ => .done 0 base) matches .ask := by
  refine ⟨by decide +kernel, by decide +kernel, rfl⟩

/-- A chain of core 0 in slot 1, with a page found or none, at virtual address 2^32. -/
def chain1 (pages : List ChainPage) : Chain :=
  { gen := 2, live := true, start := 0x100000000, maps := [(1, ⟨0x10000000F, 0x100000000000000⟩)], pages }

/-- paged with that chain and a step of it. -/
def chained (c : Chain) : State := { updCore paged 0 fun u => { u with chains := [(1, c)] } with subj := { core := 0, id := 1, val := 2 } }

theorem witness_ChainsAreWalked_slots :
    ((readS (withS [(3, 1)]) 3).toNat % 2 ^ 16 ≠ 0 ∧ (chainAt base 0 0).live = false ∧ (chainAt (chained (chain1 [])) 0 1).live = true) ∧
    ((List.range 8).all fun i => (chainAt (updCore base 0 fun u => { u with chains := (List.range 8).map fun n => (n, chain1 []) }) 0 i).live) = true ∧
    fld 0x201 15 8 = (chainAt (chained (chain1 [])) 0 1).gen := by decide +kernel

theorem witness_ChainsAreWalked_steps :
    (serveKvnx (chained (chain1 [])) 0 1 = none ∧ nextPage (chain1 []) = some 0x100000000 ∧ nextPage (chain1 [{ st := 2 }]) = none ∧
      ¬ (5 < 1 + max 4 0)) ∧
    (serveKvnx { chained (chain1 [{ st := 2 }]) with reqs := [ask (.kvnx 5 3) [0x201] .none true] } 0 1).isSome = true ∧
    (match readHeader base 0 (chain1 []) 0x8000 with | (_, .unreadable _) => true | _ => false) = true := by decide +kernel

/-- paged with a header and with the leaf of its page installed. -/
def headed (h : Nat) : State := { paPut paged 0x60000 64 h with tlb := [heldAll] }

theorem witness_ChainsAreWalked_header (h : Nat) (m : h ∈ [0, 1, 16 * 2 ^ 192]) :
    (match (readHeader (headed h) 0 (chain1 []) 0x100000000).2 with | .ok x _ => x == h | _ => false) = true ∧
    headerMalformed 1 = true ∧ headerMalformed (16 * 2 ^ 192) = false := by
  refine ⟨?_, by decide +kernel, by decide +kernel⟩
  simp only [List.mem_cons, List.not_mem_nil, or_false] at m
  have e : rangeCheck { rregs := (chain1 []).maps } (0x100000000 : Word).toNat 64 .read = .ok 0x1000000000000 := by decide +kernel
  have g : windowOf 0 0x1000000000000 = .memory := by decide +kernel
  have l : leadCore (headed h) 0 = 0 := by rcases m with rfl | rfl | rfl <;> decide +kernel
  have r := resolve_held (headed h) 0x1000000000000 false heldAll rfl rfl (by rcases m with rfl | rfl | rfl <;> decide +kernel)
    (by decide) rfl (by rcases m with rfl | rfl | rfl <;> decide +kernel)
  let u := (requestLine { headed h with fresh := (headed h).fresh + 1 } 0 false 0x1000000000000).1
  have q : requestLine { headed h with fresh := (headed h).fresh + 1 } 0 false 0x1000000000000 = (u, false) :=
    Prod.ext rfl (by rcases m with rfl | rfl | rfl <;> decide +kernel)
  have a : askLine (headed h) 0 (some 0) false 0x1000000000000 = (u, false) := by
    simp only [askLine, l, show resolveAs (headed h) 0 0 0x1000000000000 false false = _ from r, q]
  have k : reachLines (headed h) 0 0 false false [0x1000000000000] = (takeGiven u 0, false) := by
    simp only [reachLines, askLines, Bool.false_and, Bool.false_eq_true, if_false, a]
  have p : pageWalk (headed h) 0 0 0x1000000000000 = .leaf noEntry 0x60077 false := by
    rcases m with rfl | rfl | rfl <;> decide +kernel
  have v := resolve_held (takeGiven u 0) 0x1000000000000 false heldAll (by rcases m with rfl | rfl | rfl <;> decide +kernel) rfl
    (by rcases m with rfl | rfl | rfl <;> decide +kernel) (by decide) (by rcases m with rfl | rfl | rfl <;> decide +kernel)
    (by rcases m with rfl | rfl | rfl <;> decide +kernel)
  simp only [readHeader, e, g, l, k, p, show (chain1 []).key = 0 from rfl, show (chain1 []).asn = 0 from rfl, v]
  rcases m with rfl | rfl | rfl <;> decide +kernel

/-- base with the tenant of slot 0 of slice 3 enabled: 1 KiB of code at 0, 1 KiB of data, a time limit of 64 cycles; its handlers start at
offset 0x100 with instruction i. -/
def tenant (i : Nat) : State :=
  let s := putDesc base 3 0 (1 + 2 ^ 16 + 2 ^ 32 + 64 * 2 ^ 40)
  mputs (mputs s (sliceAddr 3 0) ((List.range 32).flatMap fun _ => toBytes 4 0x100)) (sliceAddr 3 0x100) (toBytes 4 i)

/-- A trigger of a key for that tenant. -/
def trig (key : Nat) : Invoke := { id := 5, key, slot := 0, a1 := 0x1000000000000, req := 7 }

/-- That slice running an invocation with a0 = v, and a step about it. -/
def runs (i key v cyc : Nat) : State :=
  { updSlice (tenant i) 3 fun u => { u with run := some { inv := trig key, pc := 0x100, regs := [(10, BitVec.ofNat 64 v)], first := 0 } } with
    subj := { id := 3, val := 5 }, cyc, reqs := [ask (.hmsg 5 3 4 0 1) [] .none true] }

/-- What the instruction of that invocation comes to: 0 next, 1 wait, 2 ecall, 3 abort. -/
def rvKind (s : State) : Nat :=
  match (sliceOf s 3).run with
  | some r => (match rvStep s 3 r with | .next .. => 0 | .wait _ => 1 | .ecall => 2 | .abort _ => 3)
  | none => 4

theorem witness_HandlersRun_triggers :
    (rangeCheck (me base) 0x8000 1 .read = .trap 0x09 0x8000 0 ∧ rangeCheck (me paged) 0x100000000 1 .read = .ok 0x1000000000000 ∧
      windowOf 0 0x1000000000000 = .memory) ∧
    (enableRefused base 3 0 (1 + 2 ^ 16 + 2 ^ 32 + 64 * 2 ^ 40) = false ∧ enableRefused base 3 0 1 = true) ∧
    (tableEntry base 3 0 0 = 0 ∧ tableEntry (tenant 0x73) 3 0 0 = 0x100 ∧ 0x100 < (codeRegion (tenantWord (tenant 0x73) 3 0 0)).2) ∧
    ((sliceOf (tenant 0x73) 3).queue.length < 32 ∧
      32 ≤ (sliceOf (updSlice (tenant 0x73) 3 fun u => { u with queue := List.replicate 32 (trig 0) }) 3).queue.length) ∧
    ((sliceOf (tenant 0x73) 3).run = none ∧ (sliceOf (tenant 0x73) 3).queue = [] ∧
      (sliceOf (updSlice (tenant 0x73) 3 fun u => { u with queue := [trig 0] }) 3).queue = [trig 0]) := by decide +kernel

theorem witness_HandlersRun_runs :
    ([0x13, 0x73, 0].map fun i => rvKind (runs i 16 0 0)) = [0, 2, 3] ∧
    (reqOf (endInvoke (runs 0x73 16 0 0) 3 false) 7).isSome = true ∧
    ((trig 0).key = 0 ∧ (xreg { inv := trig 0, pc := 0, regs := [(10, 1)], first := 0 } 10 = 1)) ∧
    (0 + fld (tenantWord (runs 0x73 16 0 64) 3 0 0) 55 40 ≤ 64 ∧ ¬ (0 + fld (tenantWord (runs 0x73 16 0 64) 3 0 0) 55 40 ≤ 63)) := by decide +kernel

/-- That slice with a pending command on a line. -/
def commanded (addr : Nat) : State :=
  { updSlice (putDesc (putDesc (tenant 0x73) 3 2 (3 + 2 ^ 48)) 3 3 (2 ^ 48)) 3 fun u => { u with cmds := [{ id := 5, inv := 5, code := 1, addr, len := 64, slot := 0 }] } with
    subj := { id := 3, val := 5 } }

theorem witness_HandlersRun_commands :
    (cmdOf (commanded 0)).isSome = true ∧ spanRefused (commanded 0) 3 { id := 5, inv := 5, code := 1, addr := 0, len := 64, slot := 0 } = true ∧
    spanRefused (commanded 0) 3 { id := 5, inv := 5, code := 1, addr := 0x1000000000000, len := 64, slot := 0 } = false ∧
    cmdLeaf (commanded 0) 3 { id := 5, inv := 5, code := 1, addr := 0x1000000000000, len := 64, slot := 0 } = none ∧
    (leafAway 0x60047 = false ∧ leafAway 0x60447 = true ∧ bitAt 0x60447 12 = false) ∧
    cmdLeaf { setCreg (setCreg (commanded 0) 0 .xlate 0 0x10000) 0 .xlate 8 1 with mem := paged.mem } 3
      { id := 5, inv := 5, code := 1, addr := 0x1000000000000, len := 64, slot := 0 } = some 0x60047 ∧
    inRegion (dataRegion (tenantWord (commanded 0) 3 0 0)) 0x1000 32 = false ∧ imgMalformed base 0 0 = true := by decide +kernel

/-! ### Witnesses: privileged state, partitions, power and bring-up -/

theorem witness_PrivilegedResults :
    ((me base).pl = 2 ∧ (me (withC fun c => { c with pl := 0 })).pl < 1 ∧ (me base).xepl ≤ (me base).pl ∧ (me base).xepc.toNat % 64 = 0) ∧
    ((me (withC fun c => { c with xepl := 3 })).xepl = 3 ∧ (me (withC fun c => { c with xepc := 4 })).xepc.toNat % 64 ≠ 0) ∧
    (rangeRefused 0x10 0 = false ∧ rangeRefused 0x11 0 = true) ∧
    (ppwMalformed 6 = true ∧ ppwMalformed 1 = false ∧ ppwConfig 1 ≠ ((coreAt base 0).vreg, (coreAt base 0).tile) ∧
      ppwConfig 0 = ((coreAt base 0).vreg, (coreAt base 0).tile) ∧ (coreKeys 0).all (fun k => k == base.at_ || (ctxOf base k).st == .free) = true ∧
      (ctxOf (updCtx base 1 fun c => { c with st := .ready }) 1).st ≠ .free) ∧
    (0 + (1024#32).toNat = 1024 ∧ 0 + (5#32).toNat < 1024) ∧
    ((readS (withS [(3, 1)]) 3).toNat % 2 ^ 16 ≠ 0 ∧ (readS base 3).toNat % 2 ^ 16 = 0 ∧ (readS base 5).toNat < 2 ^ 16) := by decide +kernel

theorem witness_PrivilegedResults_shoot :
    base.shoots.find? (fun t => t.id == 3) = none ∧
    (let t : Shoot := { id := 3, key := 0, q := 0 }
     let s := { withC fun c => { c with shooting := some 3 } with shoots := [t] }
     s.shoots.find? (fun t => t.id == 3) = some t ∧ (ctxOf s 0).shooting = some t.id) := by decide +kernel

theorem witness_ImagesAndKeys_operands :
    (let s := updCtx (withS [(3, 0x10000), (4, 1)]) 1 fun c => { c with st := .stopping, why := .halt, halted := true, ppw := 0x3D0 }
     rangeCheck (me s) 0x10000 (imageSize (ctxOf s 1).ppw) .write = .ok 0 ∧ (ctxOf s 1).halted = true ∧ (ctxOf s 2).st = .free ∧
     windowOk s 0 2 (windowOf 0 (imageSize (ctxOf s 1).ppw - 1)) = true ∧ rangeCheck (me s) 0x10000 64 .read = .ok 0) ∧
    (rangeCheck (me base) 0x8000 64 .read = .trap 0x09 0x8000 0 ∧ (readS (withS [(3, 8)]) 3).toNat % 64 ≠ 0) ∧
    (keyRefused 0 = false ∧ keyRefused (2 ^ 658) = true ∧ sameQuarter base 0 0 = true ∧ sameQuarter base 0 1 = false ∧ 128 ≤ mySp base) := by
  decide +kernel

/-- base with a request of CTXSAVE or CTXLOAD on context 1, which is free, running or halted. -/
def imaging (i : Instr) (data : List Byte) (st : CtxSt) (halted : Bool) : State :=
  { updCtx base 1 (fun c => { c with st, halted }) with reqs := [{ ask i [1, 0, 0x10000] .none true with data }], subj := { id := 7 } }

theorem witness_ImagesAndKeys_images :
    ((ctxOf (imaging (.ctxsave 3 4 0) [] .free false) 1).st = .free ∧ (ctxOf (imaging (.ctxsave 3 4 0) [] .ready false) 1).st ≠ .free) ∧
    (let s := imaging (.ctxsave 3 4 0) [] .stopping true
     (ctxOf s 1).halted = true ∧ spots s 0 0 0 16 true = (s, .ok [[(spAddr 0 0, 16)]])) ∧
    ((reqOf (imaging (.ctxload 3 4 0 true) [0] .free false) 7).any fun r => r.data != []) = true ∧ (ctxOf (imaging (.ctxload 3 4 0 true) [0] .free false) 1).st = .free ∧
    (Memory.wf base.mem = true ∧ fld (1 : Nat) 511 0 ≠ 0) := by decide +kernel

/-- base without contexts, the control register of quarter 0 as given, in cycle 9. -/
def quarter0 (ctl : Nat) (sub : Subject) : State := { setCreg { base with ctxs := [], cyc := 9 } 0 .part 0x010 ctl with subj := sub }

theorem witness_QuartersQuiesceAndResume :
    (bitAt (qctl (quarter0 0 {}) 0) 0 = false ∧ bitAt (qctl (quarter0 1 {}) 0) 0 = true ∧ bitAt (qctl (quarter0 3 {}) 0) 1 = true) ∧
    (quarterQuiet (quarter0 1 {}) 0 = true ∧ quarterQuiet base 0 = false) ∧ (ackBefore (quarter0 3 {}) 0 = true ∧ ackBefore (quarter0 1 {}) 0 = false) ∧
    ((quarterSt base 0).flushing = false ∧ (quarterSt (updQuarter base 0 fun u => { u with flushing := true }) 0).flushing = true) ∧
    (configOk base = true ∧ configOk (setCreg base 0 .part 0x000 3) = false) ∧
    (let s := quarter0 0x12 {}
     partOf s 0 = [0] ∧ bitAt (qctl s 0) 1 = true ∧ bitAt (qctl s 0) 4 = true ∧ bitAt (qctl s 0) 0 = false ∧ (quarterSt s 0).pend = []) ∧
    (windowOf 0 0xD00000010 = .ctl .part 0 0x010 ∧ windowOf 0 0xA00010000 = .notify 1 0 ∧ windowOf 0 0x500000000 = .none) := by decide +kernel

/-- base with the power-token cap of quarter 0, a give of its own to link 1, and its clock-step configuration. -/
def powered (cap cfg : Nat) (step : Option Nat) (marks : List (Nat × Nat)) : State :=
  updQuarter (setCreg (setCreg base 0 .part 0x044 cap) 0 .part 0x060 cfg) 0 fun u =>
    { u with gives := [⟨4, 1, 10⟩], stepEnd := step, marks, heard := [(2, 9)] }

theorem witness_TokensAndSteps_tokens :
    (12 ≤ fld 0xC 3 0 ∧ fld 0x1A2 3 0 < 12 ∧ tokens base 0 < fld 0xFFFFFF2 27 4 + creg base 0 .part 0x048 ∧
      fld 0x1A2 27 4 + creg base 0 .part 0x048 ≤ tokens base 0 ∧ tokens base 0 < 2 ^ 24) ∧
    (earlierMessage base 0 2 = false ∧ (2, 9) ∈ (quarterSt (powered 0xFFFFFF 0 none []) 0).heard ∧ (2, 8) ∉ (quarterSt (powered 0xFFFFFF 0 none []) 0).heard ∧
      tokens (powered 0xFFFFFF 0 none []) 0 ≤ creg (powered 0xFFFFFF 0 none []) 0 .part 0x044) ∧
    ((quarterSt (powered 0 0 none []) 0).gives.find? (fun g => g.seq == 4 && decide (g.target < 8)) = some ⟨4, 1, 10⟩ ∧
      (quarterSt base 0).gives.find? (fun g => g.seq == 4) = none ∧ tokens base 0 + 10 < 2 ^ 24) := by decide +kernel

theorem witness_TokensAndSteps_steps :
    (let s := { powered 0 0x1000101 none [] with cyc := 1024 }
     stepOn s 0 = true ∧ (quarterSt s 0).stepEnd = none ∧ (quarterSt s 0).stepAt + stepLen s 0 ≤ s.cyc ∧ stepLinks s 0 = [0] ∧ (quarterSt s 0).marks = []) ∧
    stepOn base 0 = false ∧
    (let s := powered 0 0x1000101 (some 1024) [(0, 0)]
     stepOn s 0 = true ∧ (quarterSt s 0).stepEnd ≠ none ∧ (∀ l ∈ stepLinks s 0, (l, stepNum s 0) ∈ (quarterSt s 0).marks) ∧ stepNum s 0 = 0) := by
  decide +kernel

/-- The public key of the Ed448 test vectors of RFC 8032 (blank message). -/
def vendorKey : List Byte :=
  toBytes 57 0x806125e8afbe1afad16c0fe5f13d78d61b06c7469b7624f1ed7867e9805da70e8a1f0ea7852434a11d6ad46a61ec87e72cfd61b4599b44d75f

/-- Its signatures of the two images, made outside the model. -/
def imgSig (kind : Nat) : Nat :=
  if kind = 1 then
    0x83d09b4565d14a5ad62aaaa5436dd81a2e4c437de6b946cad8eb99132d06b99718851c2a27ab22e286b4b1edab5edf336aa71e4607be10480bc5fa88ad4acff21bb25e16da49690d4145988ee16647705486bf6388b4271cc1efcf3cdafc659768bc72fbf286c2ba63c51412616e0ced8
  else
    0x202db5d67f547496fb83754928bd80becd5aa899c16dedafd4d62d64b3dc3769415ec2949f07dd933a9336765babc0c9dd83617054aed6c3801d55ae20c12db441f65e50e28ec847fbcf2d63373d273c1e0c1b595089020c20672cdab35b86ab2285bb8ae13b96d60e5914d9d5f41ae7bd

/-- An image of a kind with one payload of 16 zero bytes, and what the boot flash holds. -/
def img (kind : Nat) : List Byte :=
  toBytes 256 (0x49584C50 + kind * 2 ^ 32 + 16 * 2 ^ 96 + imgSig kind * 2 ^ 1024) ++ List.replicate 16 0

/-- The boot controller with both images in their first copies and a key in slot 0. -/
def flashed (cfg : Bool) : Boot := { flash := if cfg then [(2, img 1), (4, img 2)] else [(2, img 1)], vendor := [(0, vendorKey)] }

/-- What the mask ROM holds is open: where the key matches its digest there, bring-up passes its first steps. -/
theorem witness_BringUpAndManagement (hd : shake256 vendorKey 64 = Config.romDigest 0) :
    chooseCopy (loadKeys (flashed true)) 1 = some (0, img 1) ∧ chooseCopy (loadKeys (flashed true)) 2 = some (0, img 2) ∧
    chooseCopy (loadKeys (flashed false)) 1 = some (0, img 1) ∧ chooseCopy (loadKeys (flashed false)) 2 = none := by
  have n (b : Bool) : chooseCopy (flashed b) 3 = none := by
    have z : imagePasses (flashed b) 3 [] = false := by cases b <;> decide +kernel
    have y : sget [] (flashed b).flash 6 = [] ∧ sget [] (flashed b).flash 7 = [] := by cases b <;> decide +kernel
    simp [chooseCopy, y, z]
  have e (x : Boot) (h : x.owner = []) (m : chooseCopy x 3 = none) : loadKeys x = x := by
    have q : loadKeys x = { x with owner := [] } := by unfold loadKeys; rw [m]
    rw [q, ← h]
  have l (b : Bool) : loadKeys (flashed b) = flashed b := e _ rfl (n b)
  have k (b : Bool) : slotKey (flashed b) 0 = some vendorKey := by
    have v : sget [] (flashed b).vendor 0 = vendorKey := rfl
    simp only [slotKey, Nat.zero_lt_succ, if_true, v, hd]; rfl
  have f (i : Nat) (h : i = 1 ∨ i = 2) : fld (bootHeader (img i)) 63 48 = 0 := by rcases h with rfl | rfl <;> decide +kernel
  have p1 (b : Bool) : imagePasses (flashed b) 1 (img 1) = true := by
    simp only [imagePasses, f 1 (.inl rfl), k]; cases b <;> decide +kernel
  have p2 : imagePasses (flashed true) 2 (img 2) = true := by
    simp only [imagePasses, f 2 (.inr rfl), k]; decide +kernel
  have g (b : Bool) : sget [] (flashed b).flash 2 = img 1 := by cases b <;> rfl
  have g2 : sget [] (flashed true).flash 4 = img 2 := rfl
  refine ⟨?_, ?_, ?_, ?_⟩
  · simp [l, chooseCopy, g, p1]
  · simp [l, chooseCopy, g2, p2]
  · simp [l, chooseCopy, g, p1]
  · rw [l]; decide +kernel

theorem witness_BringUpAndManagement_rest :
    (State.reset.boot.stat = 1 ∧ chooseCopy (loadKeys base.boot) 1 = none ∧ ({ base.boot with stat := 0 } : Boot).stat ≠ 1) ∧
    recordsRefused [(0x900000008, 70000)] = true ∧ recordsRefused [] = false ∧
    imagePasses base.boot 1 [] = false ∧ [(1, 0)].find? (fun e => e.1 == 1) = some (1, 0) := by decide +kernel

/-! ### Witnesses: issue, marks, traps, translations and errors -/

/-- Context 0 ready at a bundle whose slot 1 holds ADDI s5, s4, 64, with a result for s4 in flight. -/
def busy : State :=
  updCtx (placeBundle State.reset (0x2000A20000000040 * 2 ^ 64)) 0 fun c => { c with flights := [{ flight0 (.bits []) with dsts := [.s 4] }] }

theorem witness_SelectorAndReissue :
    ((coreAt (withU fun u => { u with gated := true }) 0).gated = true ∧ quarterHeld { base with quarters := [(0, { spent := true })] } 0 = true ∧
      0 < (coreAt (withU fun u => { u with selAt := 3 }) 0).selAt) ∧
    ((coreAt base 0).gated = false ∧ quarterHeld base 0 = false ∧ (coreAt base 0).selAt ≤ base.cyc ∧ (ctxOf base 0).st = .ready) ∧
    (let s := updCtx (withC fun c => { c with st := .waiting }) 2 fun c => { c with st := .ready }
     (ctxOf s 0).st ≠ .ready ∧ (ctxOf s 1).st ≠ .ready ∧ (ctxOf s 2).st = .ready) ∧
    (let s := withC fun c => { c with st := .waiting }
     ([1, 2, 3, 4].all fun d => (ctxOf s (4 * 0 + (0 + d) % 4)).st != .ready) = true ∧ wouldIssue s 0 = true ∧
     wouldIssue { busy with ctxs := [(0, { ctxOf busy 0 with st := .waiting })] } 0 = false) ∧
    (match fetch busy 0 with
      | (u, .ok b) => (match decodeBundle u u.at_ b with | .inr os => (bundleHeld (clearEp u) (workOf (clearEp u) b os)).isSome | .inl _ => false)
      | _ => false) = true := by decide +kernel

/-- An entry of a slip buffer that holds a NOP. -/
def entry0 (pred : Bool) : SlipEntry := { work := { op := ⟨0, false, .nop, 0⟩, slot := 3, raw := 0, pc := 0x10000, bseq := 1, issued := 0 }, due := 0, pred }

/-- base with that entry at the head of its V buffer. -/
def slipped (pred : Bool) : State := withC fun c => { c with slipV := { lag := 2, entries := [entry0 pred] } }

theorem witness_SlipBuffersDrain :
    ((slipBuf (ctxOf (slipped true) 0) .v).entries = entry0 true :: [] ∧ unitUsed (slipped true) 0 .v = false ∧
      (slipBuf (ctxOf (slipped true) 0) .v).blocked = false ∧ heldNow (slipped true) 0 (entry0 true).work = false) ∧
    headRuns base 0 .v = false ∧ ((slipBuf (ctxOf base 0) .v).entries = [] ∧ ¬ ((coreAt { base with cyc := 5 } 0).last = 5)) := by decide +kernel

theorem witness_TrapsAreTaken :
    (mustHold (me (withC fun c => { c with nextMark := some { bseq := 1 } })) 2 = true ∧ mustHold (me base) 1 = false ∧ (me base).reclaim = false ∧
      (me base).inService = false ∧ (me base).tvec = 0) ∧
    (let c := { me base with tvec := 0x10400, trec := 0x10800 }
     c.tvec ≠ 0 ∧ rangeCheck c c.trec.toNat 64 .write = .ok 0x800 ∧ windowOf 0 0x800 = .scratch 0 0x800 ∧
     windowOk base 0 2 (.scratch 0 0x800) = true ∧ Memory.wf base.mem = true) ∧
    (let c := me (withC fun c => { c with heldTrap := some { code := 9 } })
     c.heldTrap = some { code := 9 } ∧ c.nextMark = none) := by decide +kernel

theorem witness_RollbackUndoesStores :
    (Memory.wf base.mem = true ∧ (me base).nextRegion.journal = [] ∧ inNext (me base) 1 = false) ∧
    ((ctxOf base 0).region.journal = [] ∧ inNext (me (withC fun c => { c with nextMark := some { bseq := 1 } })) 2 = true) := by decide +kernel

theorem witness_AfterMarksComplete :
    ((ctxOf base 0).nextMark = none ∧ (ctxOf base 0).markWait = false) ∧
    (let s := { withC fun c => { c with nextMark := some { bseq := 1 } } with reqs := [{ ask (.decl 0) [0] .none false with bseq := 1 }] }
     (ctxOf s 0).nextMark = some { bseq := 1 } ∧ (∃ r ∈ s.reqs, r.key = 0 ∧ r.bseq = 1 ∧ r.accepted = false)) ∧
    (let s := withC fun c => { c with nextMark := some { bseq := 1 } }
     s.reqs = [] ∧ (ctxOf s 0).flights = [] ∧ (confirmRegion s 0).2 = .ok ∧ (ctxOf s 0).region.gate = [] ∧ (ctxOf s 0).heldTrap = none) ∧
    (let s := withC fun c => { c with nextMark := some { bseq := 1 }, markWait := true, st := .waiting }
     s.reqs = [] ∧ (ctxOf s 0).why ≠ .done ∧ (ctxOf s 0).heldTrap = none ∧ reclaimDue (ctxOf s 0) = false ∧ (ctxOf s 0).checkDue = .none ∧
     (ctxOf s 0).forced = false ∧ (confirmRegion s 0).2 = .ok) ∧
    (confirmRegion { setCreg paged 0 .sched 0x020 2 with
      ctxs := [(0, { me paged with region := { gate := [{ ia := 0x1000000000000, byte := 7, store := 0 }] } })] } 0).2 = .wait := by decide +kernel

theorem witness_TranslationsAreHomed :
    (let s := flying (.load (.s 5) (.scalar .d) 0x100000040 pageBytes)
     windowOf 0 0x1000000000040 = .memory ∧ pageWanted (ctxOf s 0) (0x1000000000040 / 2 ^ 16) false = true ∧
     pageWanted (ctxOf base 0) (0x1000000000040 / 2 ^ 16) false = false ∧ s.tlb = [] ∧ Memory.wf s.mem = true ∧ modeBit s 0 1 = false ∧
     walk s 0 0 0x1000000000040 = .leaf 0x50000 0x60047 false ∧ paNum s 0x50000 8 = 0x60047 ∧ s.fenced = []) ∧
    (asnAbsent base 0 0 = true ∧ asnAbsent (setCreg (setCreg base 0 .sched 0x020 2) 0 .xlate 0x008 1) 0 0 = true) ∧
    (let s := setCreg (flying (.load (.s 5) (.scalar .d) 0x100000040 pageBytes)) 0 .sched 0x020 2
     modeBit s 0 1 = true ∧ asnAbsent s 0 0 = false ∧ s.xreqs = []) ∧
    (let x : XReq := { id := 3, quarter := 0, ev := 1, cause := 0, acc := 0, asn := 0, page := 0x100000000, posted := true }
     [x].find? (fun x => x.quarter == 0 && x.failed.isNone && x.id % 2 ^ 16 == 0x20003 % 2 ^ 16) = some x ∧ fld 0x20003 17 16 = 2 ∧
     fld 0x10003 17 16 = 1 ∧ fld 3 17 16 = 0 ∧ x.shot = false) := by decide +kernel

theorem witness_PageInsEnd :
    base.pageIns = [] ∧
    (let p : PageIn := { id := 3, quarter := 0, asn := 0, ia := 0x1000000000000, entry := 0x50000, keys := [0] }
     let s := { withC fun c => { c with tword := 5 } with pageIns := [p] }
     s.pageIns.find? (fun p => p.id == 3) = some p ∧ p.frame = none ∧ Memory.wf s.mem = true ∧ (ctxOf s 0).tword % 2 = 1 ∧ 0 ∈ p.keys) := by
  decide +kernel

theorem witness_ErrorsRetryOnce :
    ((ctxOf base 1).st = .free ∧ (ctxOf base 0).st ≠ .free ∧ (ctxOf base 0).why = .none ∧ (ctxOf base 0).retry = false ∧ (ctxOf base 0).nextMark = none ∧
      (ctxOf base 0).saved = false ∧ (ctxOf base 0).halted = false ∧ (ctxOf base 0).reclaim = false ∧
      (ctxOf (withC fun c => { c with retry := true }) 0).retry = true) ∧
    ((coreAt base 0).passes = [] ∧ passOf (passed .suspended 3) 0 7 = some { pass0 with st := .suspended, susp := { fc := 3 } } ∧
      (passOf (passed .running 3) 0 7).any (fun p => p.st != .suspended) = true) := by decide +kernel

/-! ### Witnesses: clauses about forms that wait, stop or go on -/

theorem witness_MatrixPassesRun_suspend :
    (let p : Pass := { pass0 with st := .running }
     let s := { passed .running 0 with subj := { id := 7, val := 2 } }
     passOf s 0 7 = some p ∧ p.runs = true ∧
       (match fetchOperand s 0 p false 2 with
        | (u, a, none) => a.length == 2 && (fetchOperand u 0 p true 0).2.2.isNone | _ => false) = true ∧
       (match fetchOperand s 0 p false 32 with
        | (u, _, none) => (fetchOperand u 0 p true 2).2.2.isNone | _ => false) = true) := by decide +kernel

theorem witness_CopiesAndFills_scratchpad :
    let c : CopyJob := { desc := [16 + 0x100000000, 0x100000001, 0x100000001], dst := spAddr 0 0x1000, src := spAddr 0 0x2000 }
    reqOf (copying c) 7 = some (ask (.copy 3 4 0 true true 0) [] (.copy c) true) ∧ c.conv = false ∧ (ask (.copy 3 4 0 true true 0) [] (.copy c) true).kept = [] ∧ runCount c.desc = 1 ∧
    nestCount c.desc 0 = 16 ∧ spReached (copying c) 0 0 0x2000 16 = true ∧ spReached (copying c) 0 0 0x1000 16 = true ∧
    Memory.wf (copying c).mem = true ∧ shapeEmpty c.desc = false ∧
    shapeAt c.src (runOffset c.desc 0 0) = spAddr 0 0x2000 ∧ shapeAt c.dst (runOffset c.desc 1 0) = spAddr 0 0x1000 := by decide +kernel

theorem witness_PullsArePaced_outside :
    (let p : PullJob := { pull1 0 64 with conv := true, srcF := .t8, dstF := .b32, dst := 0x1FFFF0 }
     pullOutside base 0 p 64 = true) ∧ pullOutside base 0 (pull1 0 64) 64 = false := by decide +kernel

theorem witness_ConnectionsCarryFrames_waits :
    let s := { setCreg paged 0 .sched 0x020 2 with
      conns := [(9, { opened := true, wbase := 0x1000000000000, wlim := 0x100000000FFFF, wrd := true, wwr := true })], subj := { id := 9, val := 5 } }
    (connOf s 9).waits = [] ∧ windowOf 0 0x1000000000040 = .memory ∧ (spots s 0 0 0x1000000000040 2 true).2 = .wait ∧
    (spots s 0 0 0x1000000000040 2 false).2 = .wait := by decide +kernel

theorem witness_ContextsStopAndGoOn_pinned :
    (let x : Ctx := { reclaim := true, regs := { pin := 1 }, task := some { record := task1 5 0 } }
     let s := { base with ctxs := [], saved := [(0, x)], cyc := 2 ^ 20, subj := { id := 5 } }
     (ctxOf s 0).st = .free ∧ (∀ p ∈ s.ctxs, (futOf p.2).toNat ≠ 5) ∧ (futOf (ctxOf s 0)).toNat ≠ 5 ∧
     s.saved.find? (fun p => leadCore s (p.1 / 4) == leadCore s s.subj.core && (futOf p.2).toNat == s.subj.id && pinHeld s p.2) = some (0, x)) ∧
    (let c : Ctx := { ctxOf (stopping .done id) 0 with reclaim := true }
     c.why = .done ∧ reclaimDue c = true ∧ c.reclaimAt < 2 ^ 20) := by decide +kernel

theorem witness_DrainResults_protected :
    memorySide (paPut chunked 0x50000 8 0x60043) 0x1000000000000 = true ∧ recordProtected (paPut chunked 0x50000 8 0x60043) 0x1000000000000 = true ∧
    recordProtected chunked 0x1000000000000 = false := by decide +kernel

theorem witness_AtomicsIssue_scope : reservedScope .res6 = true ∧ reservedScope .res7 = true ∧ reservedScope .pod = false := by decide

theorem witness_SelectorAndReissue_issue :
    (coreAt base 0).gated = false ∧ (ctxOf base 0).async = [] ∧
    (match fetch { base with at_ := 0 } 0 with
      | (u, .ok b) => (match decodeBundle u u.at_ b with
        | .inr os => (bundleHeld (clearEp u) (workOf (clearEp u) b os)).isNone && !(workOf (clearEp u) b os).isEmpty &&
          (workOf (clearEp u) b os).all (fun w => !w.2 || !takesMark w.1.op.ins) && !capacityShort (clearEp u) os
        | .inl _ => false)
      | _ => false) = true := by decide +kernel

theorem witness_SelectorAndReissue_reclaim :
    let s := { busy with ctxs := [(0, { ctxOf busy 0 with st := .waiting, reclaim := true })] }
    (ctxOf s 0).st = .waiting ∧ wouldIssue s 0 = false ∧ reclaimDue (ctxOf s 0) = true ∧ (ctxOf s 0).heldTrap = none ∧ (ctxOf s 0).async = [] := by
  decide +kernel

theorem witness_TrapsAreTaken_stopping :
    let c : Ctx := { me base with st := .stopping, why := .save, tvec := 0x10400 }
    mustHold c 1 = false ∧ c.inService = false ∧ c.tvec ≠ 0 ∧ (c.st = .stopping ∧ (c.why = .save ∨ c.why = .halt)) := by decide +kernel

/-- A tenant's slice with a line of its range on its way at a stage, and a step about it. -/
def fetching (stage : LineStage) (asked : Bool) : State :=
  { updSlice (tenant 0x73) 3 fun u => { u with fetches := [{ line := 0x1000000000000, key := 0, stage, asked }] } with
    subj := { id := 0x1000000000000 }, frames := [(homeSlice base 0 0x1000000000000, [(9, ⟨0x1000000000000, false⟩)])] }

theorem witness_HandlersRun_lines :
    (let n := homeSlice base 0 0x1000000000000
     let at_ (stage : LineStage) (asked : Bool) : State := { fetching stage asked with
       slices := [(n, { fetches := [{ line := 0x1000000000000, key := 0, stage, asked }] })] }
     stepLine (at_ .miss false) = (n, 0x1000000000000) ∧ fetchOf base n 0x1000000000000 = none ∧
     (fetchOf (at_ .miss false) n 0x1000000000000).isSome = true ∧ (fetchOf (at_ .fill false) n 0x1000000000000).any (fun f => f.stage == .fill) = true ∧
     evictionOf base n 0x1000000000000 = none ∧
     evictionOf (at_ (.evict 9) false) n 0x1000000000000 = some ({ line := 0x1000000000000, key := 0, stage := .evict 9 }, 9) ∧
     (raiseLine (at_ .miss false) n 0 0x1000000000000 0).2 = false) ∧
    (let s := putDesc (putDesc (putDesc base 3 0 (1 + 2 ^ 16 + 2 ^ 32 + 64 * 2 ^ 40)) 3 2 (3 + 2 ^ 48)) 3 3 (2 ^ 48)
     (raiseLine (mputs s (sliceAddr 3 0) (toBytes 4 0x100)) 3 0 0x1000000000000 0).2 = true) := by decide +kernel

theorem witness_HandlersRun_verdicts :
    let r (key v : Nat) : HandlerRun := { inv := trig key, pc := 0x100, regs := [(10, BitVec.ofNat 64 v)], first := 0 }
    (∀ p ∈ [(0, 0), (0, 1), (1, 0), (1, 1), (2, 0), (3, 2), (0, 2), (1, 2), (2, 1), (3, 3)], xreg (r p.1 p.2) 10 = p.2 ∧ (r p.1 p.2).inv.key = p.1) ∧
    (r 0 1).last ≠ some base.cyc ∧ (base.subj.flag = false) ∧
    (sliceOf (updSlice base 3 fun u => { u with aborts := [trig 0] }) 3).aborts = trig 0 :: [] := by decide +kernel

theorem witness_HandlersRun_place :
    let s := { commanded 0 with mem := (commanded 0).mem ++ paged.mem }
    let r : HandlerRun := { inv := trig 0, pc := 0x100, regs := [(10, 1)], first := 0 }
    ((windowPlace (commanded 0) 3 r 0x1000000000020 64 false true true).2 matches .abort 5) ∧
    ((windowPlace s 3 r 0x2000000000000 64 false true true).2 matches .abort 3) := by decide +kernel

theorem witness_ErrorsRetryOnce_frame :
    let n := homeSlice base 0 0x1000000000000
    let s := { withC fun c => { c with retry := true } with frames := [(n, [(9, ⟨0x1000000000000, true⟩)])], subj := { code := 2, id := 0x1000000000010 } }
    homeSlice s (leadCore s 0) s.subj.id = n ∧ (sget [] s.frames n).find? (fun p => p.2.ia == s.subj.id / 64 * 64) = some (9, ⟨0x1000000000000, true⟩) := by
  decide +kernel

theorem witness_PageInsEnd_counts :
    let p : PageIn := { id := 3, quarter := 0, asn := 0, ia := 0x1000000000000, entry := 0x50000, keys := [0], frame := some 6, counts := [(0, 5, 0x20)] }
    let s := { updCtx (paPut paged 0x50000 8 0x61047) 0 fun c => { c with task := some { record := task1 5 0 } } with pageIns := [p], subj := { id := 3 } }
    s.pageIns.find? (fun p => p.id == 3) = some p ∧ (bitAt (paNum s p.entry 8) 0 = true ∧ bitAt (paNum s p.entry 8) 12 = true) := by decide +kernel

theorem witness_TransfersAndBundleOrder_service :
    let s := { base with iss := { target := some 0x10400, ret := some 1 } }
    s.iss.loopn = none ∧ s.iss.loopTo = none ∧ s.iss.target = some 0x10400 ∧ s.iss.ret.isSome = true := by decide +kernel

/-- paged with host-assisted walks and one queue, whose descriptor lies at 0x1000000000000. -/
def asking : State := setCreg (setCreg (setCreg paged 0 .sched 0x020 2) 0 .sched 0x008 1) 0 .sched 0x000 0x1000000000000

theorem witness_StepRunsDecodedBundle_wait :
    eventAsks asking ⟨.notifyWrite, {}⟩ = [⟨0, 0, 0x1000000000000, false⟩] ∧
    (match settle asking ⟨.notifyWrite, {}⟩ (.next { asking with asks := eventAsks asking ⟨.notifyWrite, {}⟩ }) with
      | .next u => !u.xreqs.isEmpty && u.timers.map Prod.fst == [asking.cyc + 1] | _ => false) = true := by decide +kernel

/-! ### Witnesses: what waits, what is held, and what comes after a cycle's other steps -/

theorem witness_DrainResults_cases :
    (let f : Fmt := .t8
     let rows := drainRows (me operands).regs.mcfg (readS operands 5) (readS operands 4) f
     (drainOwn operands true (drainBytes operands 0 false f rows)).length = (drainBytes operands 0 false f rows).length) ∧
    (let rows := drainRows (me chunked).regs.mcfg (readS chunked 5) (readS chunked 4) .t8
     let bs := drainBytes chunked 0 false .t8 rows
     checkRows chunked false .write rows = none ∧ banksConflict false .t8 (rowBanks chunked false rows) = false ∧
     drainOwn chunked false bs = [] ∧ bs.length ≠ 0 ∧ (rangeFind (mapped chunked) (readS chunked 5).toNat).isSome = true) ∧
    (resolveFmt base .raw ⟨true, 0⟩ = .raw ∧ isOperandFmt .raw = false) ∧ fmtBits .t6 = 6 ∧
    (readS (withS [(3, 8)]) 3).toNat % 64 ≠ 0 ∧ memorySide (paPut chunked 0x50000 8 0x60007) 0x1000000000000 = false := by decide +kernel

theorem witness_MatrixPassesRun_served :
    let s : State := { passed .suspended 3 with cyc := 1 }
    passOf s 0 7 = some { pass0 with st := .suspended, susp := { fc := 3 } } ∧ ({ fc := 3 } : Suspension).since ≠ s.cyc := by decide +kernel

/-- base with a multicast byte of its own cluster released and not yet performed. -/
def copyLate : State := withC fun c => { c with late := [{ ia := 0x400000000 + 0x40, byte := 7, store := 0 }] }

theorem witness_ScratchpadStores_copies :
    gated (me base) = [] ∧ (windowOf 0 0x1000000000000 = .memory) ∧ gateByte base 0x40 = none := by decide +kernel

/-- paged with host-assisted walks, and a released byte of its page that has still to perform. -/
def byteLate : State :=
  updCtx (setCreg paged 0 .sched 0x020 2) 0 fun c => { c with late := [{ ia := 0x1000000000000, byte := 7, store := 0 }] }

/-- paged with a request on its way in the line at the start of its page. -/
def lineBusy : State :=
  { paged with slices := [(homeSlice paged 0 0x1000000000000, { fetches := [{ line := 0x1000000000000, key := 0, stage := .miss, asked := false }] })] }

theorem witness_GatedBytePerforms_waits :
    lineHeld lineBusy 0 0x1000000000000 true = true ∧ lineHeld paged 0 0x1000000000000 true = false ∧
    ((resolvePage byteLate 0 0 0x1000000000000 true).2 matches .wait) ∧
    (resolvePage (headed 0) 0 0 0x1000000000000 true).2 = .ok 0x60000 0x60077 := by
  refine ⟨by decide +kernel, by decide +kernel, by decide +kernel, ?_⟩
  have v := resolve_held (headed 0) 0x1000000000000 true heldAll (by decide +kernel) rfl (by decide +kernel) (by decide) (by decide +kernel) (by decide +kernel)
  rw [v]; decide +kernel

theorem witness_ContextsStopAndGoOn_late :
    ((ctxOf (forceLate base 0) 0).late = [] ∧ (ctxOf (forceLate byteLate 0) 0).late ≠ []) ∧
    (let c := ctxOf (stopping .reclaim id) 0
     c.st = .stopping ∧ c.why = .reclaim ∧ c.nextMark = none ∧ (ctxOf (forceLate (stopping .reclaim id) 0) 0).late = []) ∧
    (let s := updCtx byteLate 0 fun c => { c with st := .stopping, why := .save }
     saveDrained (stopPasses s 0) 0 = true ∧ (confirmRegion (stopPasses s 0) 0).2 = .ok) ∧
    coreFenced (setCreg base 0 .fault 0x100 1) 0 = true := by decide +kernel

theorem witness_BarkerPublishes_waits :
    ((chunk1 1 img1).subj.flag = false ∧ lineHeld (chunk1 1 img1) 0 0x1000000000000 true = false) ∧
    lineHeld { chunk1 1 img1 with slices := lineBusy.slices } 0 0x1000000000000 true = true ∧
    fld (paNum (paPut (chunk1 1 img1) 0x60010 16 (2 ^ 40)) 0x60010 16) 127 36 ≠ 0 ∧ fld (paNum (chunk1 1 img1) 0x60010 16) 127 36 = 0 := by decide +kernel

theorem witness_ConnectionsCarryFrames_windows :
    (windowOf 0 0xD00000010 = .ctl .part 0 0x010 ∧ windowOf 0 0xA00010000 = .notify 1 0) ∧
    (let x : Conn := { opened := true, wbase := 0xA00000000, wlim := 0xAFFFFFFFF, wwr := true, rxc := 7, oldRxc := 4, oldRxk := some 5 }
     x.wbase ≤ 0xA00010000 ∧ 0xA00010000 + 8 ≤ x.wlim + 1 ∧ x.oldRxc < 5 ∧ x.oldRxk ≠ none) := by decide +kernel

theorem witness_QueuesAndLaunches_boot :
    (State.reset.boot.stat ≠ 0 ∧ base.boot.stat = 0) ∧
    (let s := setCreg (ringed 0 0 0 { slot1 with drn := true } true {}) 0 .part 0x010 1
     quiescing s 0 = true ∧ (∃ y, slotAt s 0 = some y ∧ y.drn = true) ∧ bitAt (queueRead s 0 1) 70 = false ∧ modeBit s 0 0 = false) ∧
    ((sysFind (ringed 0 0 0 slot1 true {}) 0 0x1000000002040).2 = true ∧ (sysFind (setCreg paged 0 .sched 0 0x2000000000000) 0 0x2000000000000).2 = false) ∧
    ((depsFound (futured 0x200001) 0 [(0, 0), (0, 0)]).2 = true ∧
      (depsFound (setCreg (futured 0x200001) 0 .sched 0x010 0x2000000000000) 0 [(2, 5), (0, 0)]).2 = false) ∧
    (ctxClaimed base 0 = false ∧ (teamed true 3 true).subj.flag = false) := by
  refine ⟨by decide +kernel, ⟨by decide +kernel, ⟨{ slot1 with drn := true }, by decide +kernel, rfl⟩, by decide +kernel, by decide +kernel⟩, ?_, ?_, ?_⟩ <;>
    decide +kernel

theorem witness_StateStoreResults_counts :
    let s := paPut (setCreg (stored 7 1) 0 .xlate 0x018 64) (0x70000 + 4 * 7) 4 0x10001
    frameBad s 0 7 = true ∧ countsBad s 0 [7] = true ∧ countsBad (stored 7 1) 0 [7, 0] = false ∧ frameBad (stored 7 1) 0 7 = false := by decide +kernel

theorem witness_HandlersRun_overflow :
    let q := (List.range 32).map fun i => ({ trig 0 with id := i, cyc := 3 } : Invoke)
    let s := updSlice (tenant 0x73) 3 fun u => { u with queue := q }
    (invokeIns { trig 2 with id := 40, cyc := 3 } q).getLast?.map Invoke.id = some 40 ∧
    (invokeIns { trig 0 with id := 40, cyc := 2 } q).getLast?.map Invoke.id = some 31 ∧ 32 ≤ (sliceOf s 3).queue.length ∧
    ((sliceOf (updSlice base 3 fun u => { u with aborts := [trig 0] }) 3).aborts.find? fun i => i.id == 5) = some (trig 0) := by decide +kernel

theorem witness_HandlersRun_pages :
    let t : State := { setCreg (setCreg (commanded 0) 0 .xlate 0 0x10000) 0 .xlate 8 1 with mem := (commanded 0).mem ++ paged.mem }
    let c (a : Nat) : Cmd := { id := 5, inv := 5, code := 1, addr := a, len := 64, slot := 0 }
    let r : HandlerRun := { inv := trig 0, pc := 0x100, regs := [(10, 1)], first := 0 }
    pageRefused (commanded 0) 3 (c 0) = true ∧ pageRefused (commanded 0) 3 (c 0x1000000000000) = false ∧
    ((cmdPage t 3 (c 0x1000000000000)).2 matches .ok _ _) ∧ ((cmdPage t 3 (c 0x1000000010000)).2 matches .pageFault) ∧
    ((cmdPage (setCreg t 0 .sched 0x020 2) 3 (c 0x1000000000000)).2 matches .wait) ∧
    (let n := homeSlice t 0 0x1000000000000
     (windowPage t n r 0x1000000000020 64 false true true).2 matches .abort 5) := by decide +kernel

theorem witness_PrivilegedResults_limits :
    (let s := { withC id with iss := { bundle := true, wdLim := some 7 } }
     let t := finishBundle { s with iss := { s.iss with wdLim := none } }
     s.iss.cut = false ∧ (me t).st ≠ .free ∧ t.at_ = s.at_) ∧
    (let t : Shoot := { id := 3, key := 0, q := 0 }
     let g : GateByte := { ia := 0x1000000000000, byte := 7, store := 0, pa := some 0x60000 }
     let s := { withC fun c => { c with late := [g] } with shoots := [t] }
     shootWaits s t = true ∧ shootWaits { base with shoots := [t] } t = false) ∧
    (configFits base 0 0x3D1 = false ∧ configFits base 0 0x3D0 = true) := by decide +kernel

theorem witness_TokensAndSteps_links :
    unlinked base = false ∧ unlinked State.reset = true ∧ (powered 0 0x1000101 (some 1024) []).subj.ctx = 0 ∧
    earlierMessage { base with timers := [(0, ⟨.tokenMessage, { id := 0, code := 1, ctx := 1 }⟩)] } 0 2 = true ∧
    (let s := { powered 0 0x1000101 (some 1024) [] with subj := { ref := 1024 } }
     stepOn s 0 = true ∧ (quarterSt s 0).stepEnd = some s.subj.ref) := by decide +kernel

theorem witness_RollbackUndoesStores_copies :
    let s : State := copyLate
    windowOf 0 0x400000040 = .mcast 0 0x40 ∧ (me s).region.journal = [] ∧ (me s).nextRegion.journal = [] ∧
    ((me s).late.map fun g => (decide (g.seq < 1), ownCopy (myCore s) g 0x40)) = [(true, true)] ∧ inNext (me s) 1 = false ∧
    gated (me base) = [] := by decide +kernel

theorem witness_AfterMarksComplete_own :
    let c := ctxOf (withC fun c => { c with nextMark := some { bseq := 1 }, ownMark := true, reclaim := true }) 0
    c.nextMark = some { bseq := 1 } ∧ c.markWait = false ∧ c.ownMark = true ∧ reclaimDue c = true := by decide +kernel

theorem witness_TranslationsAreHomed_joined :
    let x : XReq := { id := 3, quarter := 0, ev := 1, cause := 0, acc := 0, asn := 4, page := 0x100000000 }
    let s := { setCreg (flying (.load (.s 5) (.scalar .d) 0x100000040 pageBytes)) 0 .sched 0x020 2 with xreqs := [x] }
    (s.xreqs.find? fun x => x.quarter == 0 && x.page == 0x1000000000040 / 2 ^ 16) = some x ∧ x.failed = none ∧ ({ x with failed := some false } : XReq).failed.isSome = true ∧
    s.tlb = [] ∧ modeBit s 0 1 = true ∧ asnAbsent s 0 0 = false ∧ fld 0x30003 17 16 = 3 ∧ ({ x with shot := true } : XReq).shot = true := by decide +kernel

theorem witness_PageInsEnd_leaf :
    let p : PageIn := { id := 3, quarter := 0, asn := 0, ia := 0x1000000000000, entry := 0x50000, keys := [0], frame := some 6, counts := [(0, 5, 0x20)] }
    let s := { paPut paged 0x50000 8 0x61047 with pageIns := [p], subj := { id := 3 } }
    p.entry ≠ noEntry ∧ movingLeaf s p = 0x61047 ∧ (bitAt (movingLeaf s p) 0 = true ∧ bitAt (movingLeaf s p) 12 = true) ∧
    frameBad s p.quarter (fld (movingLeaf s p) 51 16) = false := by decide +kernel

/-! ### The spec's worked examples -/

/-- Worked example Scope 1: 2^−13 ties to code 0; 5000 rounds to 4096 toward zero and to nearest. -/
theorem test_taper_rounding :
    (encodeNum .t8 false (.fin false 1 (-13)), encodeNum .t8 true (.fin false 5000 0), encodeNum .t8 false (.fin false 5000 0)) =
      (0x00, 0x7F, 0x7F) := by decide +kernel

/-- Worked example Formats 1: eight binary32 values in taper-8 and taper-6. -/
theorem test_taper_conversions :
    ([0x40400000, 0x3DCCCCCD, 0x447A0000, 0xC5228000, 0x45200000, 0x7F800000, 0x7FC00000, 0x80000000].map fun x =>
      (convertNum .b32 .t8 x, convertNum .b32 .t6 x)) =
    [(0x58, 0x1A), (0x15, 0x02), (0x7E, 0x1F), (0xFF, 0x3F), (0x7E, 0x1F), (0x7F, 0x1F), (0x80, 0x20), (0x00, 0x00)] := by decide +kernel

/-- Worked example Formats 1: two groups of taper-6 codes. -/
theorem test_taper6_groups :
    packArray .t6 [0x1A, 0x02, 0x1F, 0x3F, 0x1F, 0x1F, 0x20, 0x00] = [0x9A, 0xF0, 0xFD, 0xDF, 0x07, 0x02] := by decide +kernel

/-- Worked example Formats 2: drains of 2^24 + 16, and the b32 addition that rounds back to 2^24. -/
theorem test_drains :
    [drainNum .b32 .bf16 0x4B800008, drainNum .b32 .b16 0x4B800008, drainNum .b32 .t8 0x4B800008] = [0x4B80, 0x7BFF, 0x7F] ∧
    addNum .b32 0x4B800000 0x3F000000 = 0x4B800000 := by decide +kernel

/-- The bits of the one result that an instruction queues. -/
def queuedBits (s : State) (i : Instr) : Option Nat :=
  match exec i s with
  | .next t => match ((ctxOf t 0).flights.filter fun f => f.id == s.nextId).map Flight.src with
    | [.bits [w]] => some w.bits
    | _ => none
  | _ => none

/-- Worked example Control 2: s4 is 2.5, s5 is −2.5, s6 is 2^64. -/
theorem test_float_to_integer :
    ([.ftoi 8 4 false .rne .b64, .ftoi 10 4 false .up .b64, .ftoi 11 5 false .dn .b64, .ftoi 12 6 false .rz .b64, .ftoi 13 6 true .rz .b64,
      .fcvt 14 4 .t8 .b64].map (queuedBits (withS [(4, 0x4004000000000000), (5, 0xC004000000000000), (6, 0x43F0000000000000)]))) =
    [some 2, some 3, some 0xFFFFFFFFFFFFFFFD, some 0x7FFFFFFFFFFFFFFF, some 0xFFFFFFFFFFFFFFFF, some 0x54] := by decide +kernel

/-- Worked example Vectors 1: v4 holds 2^24 and 63 ones; m3 leaves out lane 0. -/
theorem test_reduction_orders :
    ([.vrfadd 8 4 0 false, .vrfadd 9 4 0 true, .vrfadd 10 4 3 false].map (queuedBits (withC fun c => { c with
      regs := { c.regs with v := [(4, BitVec.ofNat 2048 (packElems 32 (0x4B800000 :: List.replicate 63 0x3F800000)))], m := [(3, 0xFFFFFFFFFFFFFFFE)] } }))) =
    [some 0x4B80001F, some 0x4B800000, some 0x427C0000] := by decide +kernel

/-- Worked example Vectors 2: part 2 of v6 gets one taper-6 group at byte 0x60; VUNPK gives it back. -/
theorem test_pack_unpack :
    queuedBits (withC fun c => { c with regs := { c.regs with
      v := [(5, BitVec.ofNat 2048 (packElems 32 [0x40400000, 0x3DCCCCCD, 0x447A0000, 0xC5228000]))], m := [(2, 0xF)] } }) (.vpack 6 5 2 false 2 .t6) =
      some (0xFDF09A * 2 ^ 768) ∧
    queuedBits (withC fun c => { c with regs := { c.regs with v := [(6, BitVec.ofNat 2048 (0xFDF09A * 2 ^ 768))] } }) (.vunpk 7 6 0 2 .t6) =
      some (packElems 32 [0x40400000, 0x3E000000, 0x41800000, 0xC1800000]) := by decide +kernel

/-- Worked example Memory 1: the sync word after cycles 100 and 131. -/
theorem test_sync_word_counts :
    toBytes 16 (swAdd (swAdd (0x2000 + 5 * 2 ^ 80) 0x1000 false false).1 0x1400 false false).1 =
      [0x00, 0x20, 0, 0, 0, 0, 0x04, 0, 0, 0, 0x06, 0, 0x01, 0, 0, 0] ∧
    swAdd (0x2000 + 5 * 2 ^ 80) 0x1000 false false = (0x2000 + 0x1000 * 2 ^ 40 + 5 * 2 ^ 80, 0) := by decide +kernel

/-- Worked example Contexts 1: the level dwords, and the digits of kernel iteration 7. -/
theorem test_loop_levels :
    [0x22A, 0x142D, 0x330, 0x434].map levelOf = [⟨2, 10, 2⟩, ⟨1, 11, 20⟩, ⟨0, 12, 3⟩, ⟨0, 13, 4⟩] ∧
    levelDigits [⟨0, 12, 3⟩, ⟨0, 13, 4⟩] 7 = [(12, 1), (13, 3)] := by decide +kernel

/-- Worked example Storage 1: the partition word, the identity of context c2 of core 437 in package 17, and a core-window address. -/
theorem test_storage_words :
    ppwOf true 1 = 0x3A3 ∧ cidOf { base with at_ := 4 * 437 + 2, pkg := 17 } = 0x000000110136A8D6 ∧
    spAddr 437 0x12340 = 0x000136A12340 ∧ windowOf 0 0x000136A12340 = .scratch 437 0x12340 := by decide +kernel

/-- Worked example Partitions 1: the home of one page under three interleave registers, and that of the next page. -/
theorem test_home_slices :
    ([0x6E0F, 0x6E0C, 0x6E02].map fun mil => homeSlice (setCreg base 0 .part 0x008 mil) 0 0x01000000421C40) = [45, 173, 109] ∧
    homeSlice (setCreg base 0 .part 0x008 0x6E0F) 0 0x01000000431C40 = 44 := by decide +kernel

/-- Worked example Traps 1: the trap record of the page-grain fault of slot 5. -/
theorem test_trap_record :
    trapRecord (updCtx base 1201 fun c => { c with task := some { record := { task1 0x02300041 0 with fut := 0x02300041 } } }) 1201
      { code := 0x0C, slot := 5, pc := 0x000100C0, cyc := 0x41A2F, p0 := 0x0000000700000000, p1 := 0x01000070000000 } =
    [0x0C, 0x05, 0x00, 0x2C, 0x11, 0, 0, 0, 0xC0, 0, 0x01, 0, 0, 0, 0, 0,
     0x41, 0, 0x30, 0x02, 0, 0, 0, 0, 0x2F, 0x1A, 0x04, 0, 0, 0, 0, 0,
     0, 0, 0, 0, 0x07, 0, 0, 0, 0, 0, 0, 0x70, 0, 0, 0x01, 0] ++ List.replicate 16 0 := by decide +kernel

/-- Worked example Storage 1: an address in set 0x2A, line 1; the first access takes the lowest way, and a write of core 1 takes the line away. -/
theorem test_l1_lines :
    l1Set 0x01000000042A40 = 0x2A ∧ l1Line 0x01000000042A40 = 2 ∧
    (l1Access base 0 0x2B 0x01000000042A40 false).l1 = [(0, [(0x150, ⟨0x01000000042A, 2, 0⟩)])] ∧
    (l1Access (l1Access base 0 0x2B 0x01000000042A40 false) 1 0x2B 0x01000000042A40 true).l1 = [(0, []), (1, [(0x150, ⟨0x01000000042A, 2, 2⟩)])] := by
  decide +kernel

end Sys2Proof.Machine.Tests
end

section
/-!
PROOFS. R40: the hardwired registers s0, f0 and m0. What a read of one gives, that a write to one is discarded whether it lands or is queued, that a
write to any other register is made, and that a bundle whose slots share no other destination decodes to its operations.
-/

namespace Sys2Proof.Machine

/-! ### The hardwired registers -/

/-- R40 names three registers. -/
theorem hardwired_iff (r : Reg) : hardwired r = true ↔ r = .s 0 ∨ r = .f 0 ∨ r = .m 0 := by
  unfold hardwired
  split <;> simp_all

@[simp] theorem readS_zero (s : State) : readS s 0 = 0 := rfl

@[simp] theorem readF_zero (s : State) : readF s 0 = true := rfl

@[simp] theorem readM_zero (s : State) : readM s 0 = BitVec.allOnes 64 := rfl

/-! ### Writes that land -/

/-- R40: a write to a hardwired register is discarded. -/
theorem putReg_of_hardwired (r : Regs) {w : RegWrite} (h : hardwired w.dst = true) : putReg r w = r := if_pos h

/-- A scalar other than s0 reads back as written. -/
theorem sget_putReg_s (r : Regs) {n : Nat} (v : Nat) (h : n ≠ 0) :
    sget 0 (putReg r { dst := .s n, bits := v }).s n = BitVec.ofNat 64 v := by
  simp [putReg, hardwired_iff, h]

/-- A mask other than m0 reads back as written. -/
theorem sget_putReg_m (r : Regs) {n : Nat} (v : Nat) (h : n ≠ 0) :
    sget 0 (putReg r { dst := .m n, bits := v }).m n = BitVec.ofNat 64 v := by
  simp [putReg, hardwired_iff, h]

/-- Every vector register reads back as written: v0 is not hardwired. -/
theorem sget_putReg_v (r : Regs) (n v : Nat) :
    sget 0 (putReg r { dst := .v n, bits := v }).v n = BitVec.ofNat 2048 v := by
  simp [putReg, hardwired_iff]

/-- A flag other than f0 reads back as bit 0 of the value written. -/
theorem getLsbD_putReg_f (r : Regs) {n : Nat} (v : Nat) (h : n ≠ 0) (hn : n < 16) :
    (putReg r { dst := .f n, bits := v }).f.getLsbD n = decide (v % 2 = 1) := by
  by_cases hv : v % 2 = 1 <;> simp [putReg, hardwired_iff, h, hv, hn]

/-! ### Writes that are queued -/

/-- R40: a known result whose every destination is hardwired is not queued. -/
theorem queue_of_hardwired (s : State) {dsts : List Reg} (ws : List RegWrite) (fixed : Bool) (bound : Nat)
    (h : ∀ r ∈ dsts, hardwired r = true) : queue s dsts (.bits ws) fixed bound = s := by
  have hnone : (dsts.filter fun r => !hardwired r && !(deadNow s).contains r) = [] :=
    List.filter_eq_nil_iff.2 fun r hr => by simp [h r hr]
  rw [queue, hnone]
  rfl

theorem writeS_zero (s : State) (L : Nat) (v : Word) : writeS s L 0 v = s := by
  rw [writeS, queueFixed]
  exact queue_of_hardwired s _ _ _ (List.forall_mem_singleton.2 rfl)

theorem writeF_zero (s : State) (L : Nat) (v : Bool) : writeF s L 0 v = s := by
  rw [writeF, queueFixed]
  exact queue_of_hardwired s _ _ _ (List.forall_mem_singleton.2 rfl)

theorem writeM_zero (s : State) (v : Word) : writeM s 0 v = s :=
  queue_of_hardwired s _ _ _ (List.forall_mem_singleton.2 rfl)

/-! ### Bundles that decode -/

/-- R110: slots whose every check passes decode to their operations. -/
theorem checkSlots_eq_inr (pl nv nt b : Nat) (o : Nat → SlotOp) (n i : Nat)
    (h : ∀ j, i ≤ j → j < i + n → decodeSlot (slotKind j) (slotWord b j) = some (o j) ∧ fitsPartition nv nt (o j).ins = true ∧
      ¬ (privOpcode (slotKind j) (slotWord b j) = true ∧ pl = 0)) :
    checkSlots pl nv nt b n i = .inr ((List.range' i n).map o) := by
  induction n generalizing i with
  | zero => rfl
  | succ n ih =>
    obtain ⟨hdec, hfit, hpriv⟩ := h i (Nat.le_refl i) (by omega)
    have hrest := ih (i + 1) fun j hj hjn => h j (by omega) (by omega)
    simp [checkSlots, hdec, hfit, hpriv, hrest, List.range'_succ]

/-- R40, R111: no slot is found at fault where the destinations the slots share, with one another or with those seen before, are hardwired. -/
theorem sameWrite_eq_none (i : Nat) (seen : List Reg) (os : List SlotOp)
    (hseen : ∀ o ∈ os, ∀ r ∈ writesOf o.ins, r ∈ seen → hardwired r = true)
    (hpair : os.Pairwise fun p o => ∀ r ∈ writesOf p.ins, r ∈ writesOf o.ins → hardwired r = true) :
    sameWrite i seen os = none := by
  induction os generalizing i seen with
  | nil => rfl
  | cons o os ih =>
    obtain ⟨hhead, htail⟩ := List.pairwise_cons.1 hpair
    have hnew : (((writesOf o.ins).filter fun r => !hardwired r).any seen.contains) = false := by
      simp only [List.any_eq_false, List.mem_filter, List.contains_iff_mem]
      rintro r ⟨hr, hfree⟩ hmem
      simp [hseen o List.mem_cons_self r hr hmem] at hfree
    rw [sameWrite, hnew]
    refine ih _ _ (fun p hp r hr hmem => ?_) htail
    rcases List.mem_append.1 hmem with hold | hthis
    · exact hseen p (List.mem_cons_of_mem o hp) r hr hold
    · exact hhead p hp r (List.mem_filter.1 hthis).1 hr

/-- R110, R111, R402: a bundle decodes where its slots, its destinations and its reservation all pass their checks. -/
theorem decodeBundle_eq_inr (s : State) (k b : Nat) (os : List SlotOp)
    (hslots : checkSlots (ctxOf s k).pl (vregCount (coreAt s (k / 4)).vreg) (tileCount (coreAt s (k / 4)).tile) b 8 0 = .inr os)
    (hwrites : sameWrite 0 [] os = none) (hgate : (bundleReserve os).1 ≤ 256) (hjournal : (bundleReserve os).2 ≤ 512) :
    decodeBundle s k b = .inr os := by
  simp [decodeBundle, hslots, hwrites, Nat.not_lt.2 hgate, Nat.not_lt.2 hjournal]

/-- R40, R111: operations in ascending slot order in which two slots share hardwired destinations alone. -/
theorem pairwise_range_map_writesOf (o : Nat → SlotOp) (n : Nat)
    (h : ∀ i j r, i < j → j < n → r ∈ writesOf (o i).ins → r ∈ writesOf (o j).ins → r = .s 0 ∨ r = .f 0 ∨ r = .m 0) :
    ((List.range n).map o).Pairwise fun p q => ∀ r ∈ writesOf p.ins, r ∈ writesOf q.ins → hardwired r = true := by
  refine List.pairwise_map.2 ((List.pairwise_lt_range).imp_of_mem fun {i j} _ hj hij r hi hr => ?_)
  exact (hardwired_iff r).2 (h i j r hij (List.mem_range.1 hj) hi hr)

/-- Settles O8: reads by definition, landed and queued writes by the rules above, and bundles because the check for a destination named twice
leaves the hardwired registers out. -/
theorem hardwiredRegisters : Obligations.HardwiredRegisters := by
  intro s
  refine ⟨readS_zero s, readF_zero s, readM_zero s, fun r v n => ?_, fun w b => ?_, ?_⟩
  · exact ⟨putReg_of_hardwired r rfl, putReg_of_hardwired r rfl, putReg_of_hardwired r rfl,
      fun hn => ⟨sget_putReg_s r v hn, sget_putReg_m r v hn⟩, fun hn hlt => getLsbD_putReg_f r v hn hlt, sget_putReg_v r n v⟩
  · exact ⟨writeS_zero s 1 w, writeF_zero s 1 b, writeM_zero s w⟩
  · intro k b o u hslots hgate hjournal hshare
    have hcheck := checkSlots_eq_inr (ctxOf s k).pl (vregCount u.vreg) (tileCount u.tile) b o 8 0 fun j _ hj => hslots j (by omega)
    rw [← List.range_eq_range'] at hcheck
    have hwrites := sameWrite_eq_none 0 [] _ (fun _ _ _ _ hr => absurd hr List.not_mem_nil) (pairwise_range_map_writesOf o 8 hshare)
    exact decodeBundle_eq_inr s k b _ hcheck hwrites hgate hjournal

end Sys2Proof.Machine
end

section
/-!
PROOFS. R159, R162 to R164: the scalar arithmetic, immediate operations, moves and multiplies. First words as the numbers they hold, in the spelling
of the rules: sums, shifts, extrema and products modulo 2^64. Then form R3 and its opcodes, and what each instruction sends to sD.
-/

namespace Sys2Proof.Machine

/-! ### Words as numbers -/

/-- R162: adding a sign-extended field adds the signed number it holds. -/
theorem add_signExtend_eq_ofInt {w : Nat} (x : Word) (i : BitVec w) :
    x + i.signExtend 64 = BitVec.ofInt 64 (x.toNat + i.toInt) := by
  rw [BitVec.signExtend, BitVec.ofInt_add, BitVec.ofInt_natCast, BitVec.ofNat_toNat, BitVec.setWidth_eq]

theorem sub_eq_ofInt (x y : Word) : x - y = BitVec.ofInt 64 ((x.toNat : Int) - y.toNat) := by
  rw [Int.sub_eq_add_neg, BitVec.ofInt_add, BitVec.ofInt_neg, BitVec.sub_eq_add_neg]
  simp

/-- A left shift multiplies by a power of two. -/
theorem shiftLeft_eq_ofNat (x : Word) (n : Nat) : x <<< n = BitVec.ofNat 64 (x.toNat * 2 ^ n) :=
  BitVec.eq_of_toNat_eq (by rw [BitVec.toNat_shiftLeft, Nat.shiftLeft_eq, BitVec.toNat_ofNat])

/-- A logical right shift divides by a power of two. -/
theorem ushiftRight_eq_ofNat (x : Word) (n : Nat) : x >>> n = BitVec.ofNat 64 (x.toNat / 2 ^ n) := by
  rw [← Nat.shiftRight_eq_div_pow, ← BitVec.toNat_ushiftRight, BitVec.ofNat_toNat, BitVec.setWidth_eq]

/-- An arithmetic right shift divides the signed number, towards minus infinity. -/
theorem sshiftRight_eq_ofInt (x : Word) (n : Nat) : x.sshiftRight n = BitVec.ofInt 64 (x.toInt / 2 ^ n) := by
  rw [BitVec.sshiftRight, Int.shiftRight_eq_div_pow, Int.natCast_pow]
  rfl

/-- R159: the smaller of two signed words. -/
theorem ite_toInt_le_eq_min (x y : Word) : (if x.toInt ≤ y.toInt then x else y) = BitVec.ofInt 64 (min x.toInt y.toInt) := by
  rw [Int.min_def, apply_ite (BitVec.ofInt 64), BitVec.ofInt_toInt, BitVec.ofInt_toInt]

/-- R159: the larger of two signed words. -/
theorem ite_toInt_le_eq_max (x y : Word) : (if x.toInt ≤ y.toInt then y else x) = BitVec.ofInt 64 (max x.toInt y.toInt) := by
  rw [Int.max_def, apply_ite (BitVec.ofInt 64), BitVec.ofInt_toInt, BitVec.ofInt_toInt]

/-- R159: the smaller of two unsigned words. -/
theorem ite_toNat_le_eq_min (x y : Word) : (if x.toNat ≤ y.toNat then x else y) = BitVec.ofNat 64 (min x.toNat y.toNat) := by
  rw [Nat.min_def, apply_ite (BitVec.ofNat 64), BitVec.ofNat_toNat, BitVec.ofNat_toNat, BitVec.setWidth_eq, BitVec.setWidth_eq]

/-- R159: the larger of two unsigned words. -/
theorem ite_toNat_le_eq_max (x y : Word) : (if x.toNat ≤ y.toNat then y else x) = BitVec.ofNat 64 (max x.toNat y.toNat) := by
  rw [Nat.max_def, apply_ite (BitVec.ofNat 64), BitVec.ofNat_toNat, BitVec.ofNat_toNat, BitVec.setWidth_eq, BitVec.setWidth_eq]

/-- R163: 45 bits above 19. -/
theorem append_extract_eq_ofNat (i : BitVec 45) (x : Word) :
    i ++ x.extractLsb' 0 19 = BitVec.ofNat 64 (i.toNat * 2 ^ 19 + x.toNat % 2 ^ 19) := by
  have hlow : x.toNat % 2 ^ 19 < 2 ^ 19 := Nat.mod_lt _ (by decide)
  have hnat : (i ++ x.extractLsb' 0 19).toNat = i.toNat * 2 ^ 19 + x.toNat % 2 ^ 19 := by
    rw [BitVec.toNat_append, BitVec.extractLsb'_toNat, Nat.shiftRight_zero, ← Nat.shiftLeft_add_eq_or_of_lt hlow, Nat.shiftLeft_eq]
  rw [← hnat, BitVec.ofNat_toNat, BitVec.setWidth_eq]

/-- R164: bits [127:64] of a signed product, taken in two's complement, are its quotient by 2^64. -/
theorem ofNat_ofSigned_high (p : Int) : BitVec.ofNat 64 (ofSigned 128 p / 2 ^ 64) = BitVec.ofInt 64 (p / 2 ^ 64) := by
  refine BitVec.eq_of_toNat_eq ?_
  rw [BitVec.toNat_ofNat, BitVec.toNat_ofInt, ofSigned]
  omega

/-! ### Form R3 -/

/-- R106: the fields of a slot that holds an opcode and three registers, unpredicated. -/
theorem split_three_operands {op d a b : Nat} (hop : op < 256) (hd : d < 64) (ha : a < 64) (hb : b < 64) :
    split [8, 4, 1, 51] (BitVec.ofNat 64 (op * 2 ^ 56 + d * 2 ^ 45 + a * 2 ^ 39 + b * 2 ^ 33)).toNat =
        [op, 0, 0, d * 2 ^ 45 + a * 2 ^ 39 + b * 2 ^ 33] ∧
      split [6, 6, 6, 33] (d * 2 ^ 45 + a * 2 ^ 39 + b * 2 ^ 33) = [d, a, b, 0] := by
  simp only [split, BitVec.toNat_ofNat, List.sum_cons, List.sum_nil, List.cons.injEq, and_true]
  omega

/-- R106: form R3 with C, K and MOD zero: three registers, and nothing else in the operand field. -/
def formR3 (mk : Nat → Nat → Nat → Instr) : List Nat → Option Instr
  | [d, a, b, 0] => some (mk d a b)
  | _ => none

/-- R106, R122: an S-slot opcode that reads form R3 as an instruction whose only limits are those of its scalar registers. -/
structure ReadsR3 (op : Nat) (mk : Nat → Nat → Nat → Instr) : Prop where
  assigned : 0 < op
  belowHints : op < 0xF0
  reads : ∀ x, Sys2Proof.readS op x = formR3 mk (split [6, 6, 6, 33] x)
  limits : ∀ d a b, wf (mk d a b) = (decide (d < 64) && decide (a < 64) && decide (b < 64))

/-- An unpredicated slot of form R3 decodes by its opcode. -/
theorem ReadsR3.decodeSlot_eq {op : Nat} {mk : Nat → Nat → Nat → Instr} (h : ReadsR3 op mk) {w : Word} {x d a b : Nat}
    (hslot : split [8, 4, 1, 51] w.toNat = [op, 0, 0, x]) (hfields : split [6, 6, 6, 33] x = [d, a, b, 0])
    (hd : d < 64) (ha : a < 64) (hb : b < 64) : decodeSlot .s w = some ⟨0, false, mk d a b, 0⟩ := by
  have hins : (readOperands .s op x).filter wf = some (mk d a b) := by
    simp [readOperands, h.reads, hfields, formR3, h.limits, hd, ha, hb]
  rw [decodeSlot, hslot]
  simp [hins, Nat.ne_of_gt h.assigned, Nat.not_le.2 h.belowHints]

/-! ### Results -/

/-- A result sent to sD may be written as any word equal to it. -/
theorem next_writeS_of_eq {o : Host.Outcome State Fault Refusal} {s : State} {L d : Nat} {v w : Word} (h : v = w)
    (ho : o = .next (writeS s L d v)) : o = .next (writeS s L d w) := h ▸ ho

theorem scalarArithmeticResults : Clause.ScalarArithmeticResults := by
  refine ⟨fun p hp d hd a ha b hb => ?_, ?_⟩
  · have h : ReadsR3 p.1 p.2 := by
      simp only [List.mem_cons, List.not_mem_nil, or_false] at hp
      rcases hp with rfl | rfl | rfl | rfl | rfl | rfl | rfl | rfl | rfl | rfl | rfl | rfl | rfl | rfl | rfl | rfl | rfl | rfl <;>
        exact ⟨by decide, by decide, fun _ => rfl, fun _ _ _ => rfl⟩
    obtain ⟨hslot, hfields⟩ := split_three_operands (Nat.lt_trans h.belowHints (by decide)) hd ha hb
    exact h.decodeSlot_eq hslot hfields hd ha hb
  intro s d a b x y n gives
  have hn : n < 64 := Nat.mod_lt _ (by decide)
  have hrol : x.rotateLeft n = (x <<< n ||| x >>> (64 - n)) := by rw [BitVec.rotateLeft_def, Nat.mod_eq_of_lt hn]
  have hror : x.rotateRight n = (x >>> n ||| x <<< (64 - n)) := by rw [BitVec.rotateRight_def, Nat.mod_eq_of_lt hn]
  exact ⟨rfl, next_writeS_of_eq (sub_eq_ofInt x y) rfl, rfl, rfl, rfl, rfl,
    next_writeS_of_eq (shiftLeft_eq_ofNat x n) rfl, next_writeS_of_eq (ushiftRight_eq_ofNat x n) rfl,
    next_writeS_of_eq (sshiftRight_eq_ofInt x n) rfl, next_writeS_of_eq hrol rfl, next_writeS_of_eq hror rfl,
    next_writeS_of_eq (ite_toInt_le_eq_min x y) rfl, next_writeS_of_eq (ite_toInt_le_eq_max x y) rfl,
    next_writeS_of_eq (ite_toNat_le_eq_min x y) rfl, next_writeS_of_eq (ite_toNat_le_eq_max x y) rfl⟩

theorem scalarImmediateAndMultiplyResults : Clause.ScalarImmediateAndMultiplyResults := by
  intro s d a b imm w x y gives
  have hzext : immZ imm = BitVec.ofNat 64 imm.toNat := by rw [immZ, BitVec.zeroExtend, BitVec.ofNat_toNat]
  exact ⟨next_writeS_of_eq (add_signExtend_eq_ofInt x imm) rfl, rfl,
    next_writeS_of_eq (congrArg (x ||| ·) hzext) rfl, next_writeS_of_eq (congrArg (x ^^^ ·) hzext) rfl,
    fun _ => ⟨next_writeS_of_eq (shiftLeft_eq_ofNat x _) rfl, next_writeS_of_eq (ushiftRight_eq_ofNat x _) rfl,
      next_writeS_of_eq (sshiftRight_eq_ofInt x _) rfl⟩,
    rfl, next_writeS_of_eq (append_extract_eq_ofNat w _) rfl, rfl,
    next_writeS_of_eq (ofNat_ofSigned_high (x.toInt * y.toInt)) rfl, rfl⟩

/-- Settles O12: each instruction sends its operator's word to sD by definition, and the words are the rules' numbers. -/
theorem scalarIntegerResults : Obligations.ScalarIntegerResults :=
  ⟨scalarArithmeticResults, scalarImmediateAndMultiplyResults⟩

end Sys2Proof.Machine
end

section
/-!
PROOFS. R141 to R146: control transfers, and the bundle that follows a bundle. What a jump and a conditional branch do, with their targets as numbers;
then the acting context after a bundle, one equation for each way to go on, and where the advance of a nest loop leads.
-/

namespace Sys2Proof.Machine

/-! ### Transfers -/

/-- R142: a target counted in bundles, as a number. -/
theorem bundleOff_eq_ofInt (x : Word) (off : BitVec 25) : bundleOff x off = BitVec.ofInt 64 (x.toNat + 64 * off.toInt) := by
  rw [bundleOff, BitVec.signExtend, BitVec.ofInt_add, BitVec.ofInt_natCast, BitVec.ofNat_toNat, BitVec.setWidth_eq,
    BitVec.mul_comm, BitVec.ofInt_mul]
  rfl

theorem bundleOff_zero (x : Word) : bundleOff x 0 = x := by simp [bundleOff]

/-- R142: the target of BTAB: the lesser of index and default counts bundles from the table's start. -/
theorem bundleOff_add_index (x i j : Word) (off : BitVec 25) :
    bundleOff x off + (if i.toNat ≤ j.toNat then i else j) * 64 =
      BitVec.ofInt 64 (x.toNat + 64 * (off.toInt + (min i.toNat j.toNat : Nat))) := by
  have hindex : BitVec.ofNat 64 (min i.toNat j.toNat) * 64 = BitVec.ofInt 64 (64 * (min i.toNat j.toNat : Nat)) := by
    rw [Int.mul_comm 64, BitVec.ofInt_mul, BitVec.ofInt_natCast]
    rfl
  rw [bundleOff_eq_ofInt, ite_toNat_le_eq_min, hindex, ← BitVec.ofInt_add, Int.add_assoc, ← Int.mul_add]

/-- R141, R143: the outcome is a transfer to a target: taken where the target is aligned, and a trap with misaligned target otherwise. -/
def Transfers (o : Host.Outcome State Fault Refusal) (s : State) (t : Word) : Prop :=
  (t.toNat % 64 = 0 → o = .next { s with iss := { s.iss with target := some t } }) ∧
  (t.toNat % 64 ≠ 0 → o = .next (takeTrap s s.at_ (trapOf s 0x05) (curSeq s)))

theorem jump_transfers (s : State) {t u : Word} (h : t = u) : Transfers (jump s t) s u := by
  subst h
  exact ⟨fun haligned => if_pos haligned, fun hmis => if_neg hmis⟩

/-- R142, R143: a conditional branch transfers where its comparison holds, and does nothing otherwise. -/
theorem branchIf_transfers (s : State) (off : BitVec 25) {c : Bool} {p : Prop} (hc : c = true ↔ p) :
    (p → Transfers (branchIf c off s) s (BitVec.ofInt 64 ((curPc s).toNat + 64 * off.toInt))) ∧ (¬ p → branchIf c off s = .next s) := by
  refine ⟨fun hp => ?_, fun hp => if_neg (mt hc.1 hp)⟩
  rw [branchIf, if_pos (hc.2 hp)]
  exact jump_transfers s (bundleOff_eq_ofInt _ off)

theorem branchResults : Clause.BranchResults := by
  refine ⟨fun s a => (congrArg (jump s) (bundleOff_zero (readS s a))).symm, ?_⟩
  intro s a b off x y aim goes linked branch
  have hpc := bundleOff_eq_ofInt (curPc s) off
  exact ⟨jump_transfers s hpc, jump_transfers s (bundleOff_eq_ofInt x off), jump_transfers linked hpc,
    jump_transfers linked (bundleOff_eq_ofInt y off), jump_transfers s rfl, jump_transfers s (bundleOff_add_index (curPc s) x y off),
    branchIf_transfers s off beq_iff_eq, branchIf_transfers s off bne_iff_ne,
    branchIf_transfers s off BitVec.slt_iff_toInt_lt,
    branchIf_transfers s off (by rw [Bool.not_eq_true', ← Bool.not_eq_true, BitVec.slt_iff_toInt_lt, Int.not_lt]),
    branchIf_transfers s off BitVec.ult_iff_toNat_lt,
    branchIf_transfers s off (by rw [Bool.not_eq_true', ← Bool.not_eq_true, BitVec.ult_iff_toNat_lt, Nat.not_lt])⟩

/-! ### What a loop's boundary leaves -/

@[simp] theorem putReg_loop (r : Regs) (w : RegWrite) : (putReg r w).loop = r.loop := by
  unfold putReg
  split
  · rfl
  · split <;> rfl

@[simp] theorem boundaryS_loop (c : Ctx) (d : Nat) (v : Word) : (boundaryS c d v).regs.loop = c.regs.loop := by
  unfold boundaryS
  split
  · rfl
  · exact putReg_loop _ _

/-- R145: the stepped registers of a pass are no part of the loop state. -/
@[simp] theorem stepRegisters_loop (c : Ctx) : (stepRegisters c).regs.loop = c.regs.loop := by
  unfold stepRegisters
  refine List.foldlRecOn (motive := fun c' : Ctx => c'.regs.loop = c.regs.loop) _ _ rfl fun c' hc' j _ => ?_
  split
  · exact hc'
  · rw [boundaryS_loop, hc']

/-- R145: an advance leads to the body while the loop goes on, and behind it where the loop ends. -/
theorem loopAdvance_pc (c : Ctx) (h : c.regs.loop.active = true) :
    (loopAdvance c).2 = if (loopAdvance c).1.regs.loop.active then c.regs.loop.body else c.regs.loop.endPc := by
  cases hadv : advanceCounts (nestCount c.regs.loop.desc) ((List.range 6).map (lcAfter c)) with
  | none => simp [loopAdvance, hadv]
  | some xs => simp [loopAdvance, hadv, h]

/-! ### The bundle after a bundle -/

section
variable {s : State} (hn : s.iss.loopn = none) (hto : s.iss.loopTo = none)
include hn hto

/-- R146: a transfer that is no return from a service ends the loop. -/
theorem me_nextBundle_transfer {t : Word} (ht : s.iss.target = some t) (hret : s.iss.ret = none) :
    me (nextBundle s) = { me s with pc := t, regs := { (me s).regs with loop := { (me s).regs.loop with active := false } } } := by
  simp [nextBundle, hn, hto, ht, hret]

theorem me_nextBundle_return {t : Word} (ht : s.iss.target = some t) (hret : s.iss.ret.isSome = true) :
    me (nextBundle s) = { me s with pc := t } := by
  simp [nextBundle, hn, hto, ht, hret]

theorem me_nextBundle_next (ht : s.iss.target = none) (h : (me s).regs.loop.active = false ∨ s.iss.pc + 64 ≠ (me s).regs.loop.endPc) :
    me (nextBundle s) = { me s with pc := s.iss.pc + 64 } := by
  have hno : ¬ ((me s).regs.loop.active = true ∧ s.iss.pc + 64 = (me s).regs.loop.endPc) := by
    rintro ⟨hactive, hend⟩
    exact h.elim (by simp [hactive]) (· hend)
  simp only [nextBundle, hn, hto, ht, if_neg hno, me_setMe]

theorem me_nextBundle_advance (ht : s.iss.target = none) (hactive : (me s).regs.loop.active = true)
    (hend : s.iss.pc + 64 = (me s).regs.loop.endPc) :
    me (nextBundle s) = { (loopAdvance (me s)).1 with pc := (loopAdvance (me s)).2 } := by
  simp only [nextBundle, hn, hto, ht, if_pos (And.intro hactive hend), me_setMe]

end

theorem nextBundleFollowsTransfers : Clause.NextBundleFollowsTransfers := by
  intro s hn hto c c'
  refine ⟨fun t ht hret => me_nextBundle_return hn hto ht hret, fun t ht hret => ?_, me_nextBundle_next hn hto, fun ht hactive hend => ?_⟩
  · have hc : c' = _ := me_nextBundle_transfer hn hto ht hret
    rw [hc]
    exact ⟨rfl, rfl, rfl, rfl⟩
  · have hc : c' = _ := me_nextBundle_advance hn hto ht hactive hend
    rw [hc]
    exact loopAdvance_pc c hactive

/-- Settles O17: every transfer is one jump, and the next bundle is found by cases on the bundle's transfer and the loop. -/
theorem transfersAndBundleOrder : Obligations.TransfersAndBundleOrder :=
  ⟨branchResults, nextBundleFollowsTransfers⟩

end Sys2Proof.Machine
end
